-- ==== Sys2Proof/Word.lean ====
section
/-! DEFINITION. The word types of the Perum (R7): bytes, 32-bit words and 64-bit dwords as bit vectors. -/

namespace Sys2Proof

/-- A byte (R7). -/
abbrev Byte := BitVec 8

/-- A 32-bit word (R7); also a lane of a vector register. -/
abbrev W32 := BitVec 32

/-- A 64-bit dword (R7), the width of a scalar register. -/
abbrev Word := BitVec 64

/-- A 6-bit register field (R45). -/
abbrev Reg := BitVec 6

end Sys2Proof
end

