-- ==== Sys2Proof/Syntax.lean ====
section
/-! DEFINITION. The steps of the Perum as one inductive: an instruction constructor carries the whole field structure of
its word's format (R43), so that nothing a word says is lost before the checks of R47; an event constructor carries what
the step acts on. One constructor per row of spec/opcode_table.json. -/

namespace Sys2Proof

/-- R format (R43). -/
structure OpR where
  d : Reg
  a : Reg
  b : Reg
  w : BitVec 2
  deriving DecidableEq, Repr

/-- R format of an atomic, with ord in fn[1:0] (R215). -/
structure OpA where
  d : Reg
  a : Reg
  b : Reg
  w : BitVec 2
  ord : BitVec 2
  deriving DecidableEq, Repr

/-- I format with a sub-function, its imm11 field (R101, R154). -/
structure OpI where
  d : Reg
  a : Reg
  imm : BitVec 11
  deriving DecidableEq, Repr

/-- S format with a sub-function, its imm11 field (R154). -/
structure OpS where
  b : Reg
  a : Reg
  imm : BitVec 11
  deriving DecidableEq, Repr

/-- U format (R43). -/
structure OpU where
  d : Reg
  imm : BitVec 20
  deriving DecidableEq, Repr

/-- I format of a CSR access (R104). -/
structure OpC where
  d : Reg
  a : Reg
  csr : BitVec 12
  deriving DecidableEq, Repr

/-- V format (R43). -/
structure OpV where
  d : Reg
  a : Reg
  b : Reg
  k : BitVec 3
  deriving DecidableEq, Repr

/-- B format (R43). -/
structure OpB where
  a : Reg
  b : Reg
  off : BitVec 14
  deriving DecidableEq, Repr

/-- B format of a predicate branch (R120): bits 25:23, the predicate, field b. -/
structure OpP where
  hi : BitVec 3
  p : BitVec 2
  b : Reg
  off : BitVec 14
  deriving DecidableEq, Repr

/-- J format (R43). -/
structure OpJ where
  d : Reg
  off : BitVec 20
  deriving DecidableEq, Repr

/-- I format of `jr` (R122). -/
structure OpJr where
  d : Reg
  a : Reg
  imm : BitVec 14
  deriving DecidableEq, Repr

/-- X format (R43). -/
structure OpX where
  a : Reg
  b : Reg
  c : Reg
  tag : BitVec 6
  deriving DecidableEq, Repr

/-- Q format (R43). -/
structure OpQ where
  d : Reg
  a : Reg
  b : Reg
  pd : BitVec 2
  i : Bool
  deriving DecidableEq, Repr

/-- M format (R43). -/
structure OpM where
  ta : BitVec 3
  tb : BitVec 3
  c : BitVec 1
  slot : BitVec 6
  a : Reg
  ctl : BitVec 3
  deriving DecidableEq, Repr

/-- P format (R43). -/
structure OpF where
  fa : BitVec 4
  fb : BitVec 4
  fr : BitVec 4
  rc : BitVec 2
  sat : BitVec 1
  rsv : BitVec 11
  deriving DecidableEq, Repr

/-- Where a translation is cached (R197): a core's instruction or data TLB, a cluster's L2 TLB or walk cache. -/
inductive TlbPlace where
  | itlb (core : Nat)
  | dtlb (core : Nat)
  | l2 (cluster : Nat)
  | walk (cluster level : Nat)
  deriving DecidableEq, Repr

/-- How the fault server completes a record (R204). -/
inductive FaultOutcome where
  | retry | deny | poison
  deriving DecidableEq, Repr

/-- The job that a mailbox command names, and the function that gives the command, its FN (R421, R452). -/
structure JobRef where
  func : Nat
  ctx : Nat
  deriving DecidableEq, Repr

/-- The LAUNCH job description (R453) with what firmware chooses for it: the CTXID and each named cluster's vault. -/
structure JobDesc where
  ctx : Nat
  cbase : Nat
  dbase : Nat
  root : Nat
  saveVA : Nat
  saveBytes : Nat
  reportVA : Nat
  reportBytes : Nat
  faultVA : Nat
  faultLog2 : Nat
  handler : Nat
  asleep : Nat
  wlimit : Nat
  budget : Nat
  age : Nat
  ageCap : Nat
  poolReg : Nat
  poolL1 : Nat
  tagged : Nat
  rsv : Nat
  mask0 : BitVec 64
  mask1 : BitVec 64
  rootTask : Nat
  arg0 : Nat
  vaults : List Nat
  deriving DecidableEq, Repr

/-- The fields of the STREAM command (R434). -/
structure StreamDesc where
  complex : Nat
  codec : Nat
  width : Nat
  height : Nat
  rate : Nat
  keyint : Nat
  deriving DecidableEq, Repr

/-- The header of a fabric message (R429); `rsv` is its reserved bytes, `brsv` those of the body (R430). -/
structure FabHdr where
  ver : Nat
  src : Nat
  dst : Nat
  sctx : Nat
  dctx : Nat
  body : Nat
  seq : Nat
  ack : Nat
  rsv : Nat
  brsv : Nat
  deriving DecidableEq, Repr

/-- The steps of spec/opcode_table.json, one constructor per row. -/
inductive Instr where
  | add (o : OpR)
  | sub (o : OpR)
  | and_ (o : OpR)
  | or_ (o : OpR)
  | xor_ (o : OpR)
  | andn (o : OpR)
  | sll (o : OpR)
  | srl (o : OpR)
  | sra (o : OpR)
  | ror (o : OpR)
  | slt (o : OpR)
  | sltz (o : OpR)
  | seq (o : OpR)
  | min_ (o : OpR)
  | max_ (o : OpR)
  | minz (o : OpR)
  | maxz (o : OpR)
  | adds (o : OpR)
  | subs (o : OpR)
  | clz (o : OpR)
  | ctz (o : OpR)
  | popc (o : OpR)
  | bswap (o : OpR)
  | sxb (o : OpR)
  | sxh (o : OpR)
  | sxw (o : OpR)
  | zxw (o : OpR)
  | mvt (o : OpR)
  | mvp (o : OpR)
  | rclr (o : OpR)
  | rful (o : OpR)
  | addi (o : OpI)
  | andi (o : OpI)
  | andiz (o : OpI)
  | ori (o : OpI)
  | oriz (o : OpI)
  | xori (o : OpI)
  | xoriz (o : OpI)
  | slli (o : OpI)
  | srli (o : OpI)
  | srai (o : OpI)
  | rori (o : OpI)
  | slti (o : OpI)
  | sltiz (o : OpI)
  | seqi (o : OpI)
  | shlim (o : OpU)
  | addpc (o : OpU)
  | mul (o : OpR)
  | mulh (o : OpR)
  | mulhz (o : OpR)
  | div (o : OpR)
  | divz (o : OpR)
  | rem (o : OpR)
  | remz (o : OpR)
  | csrr (o : OpC)
  | csrx (o : OpC)
  | csrs (o : OpC)
  | csrc (o : OpC)
  | vadd (o : OpV)
  | vsub (o : OpV)
  | vmul (o : OpV)
  | vmulh (o : OpV)
  | vand (o : OpV)
  | vor (o : OpV)
  | vxor (o : OpV)
  | vsll (o : OpV)
  | vsrl (o : OpV)
  | vsra (o : OpV)
  | vmin (o : OpV)
  | vmax (o : OpV)
  | vclt (o : OpV)
  | vceq (o : OpV)
  | vfadd (o : OpV)
  | vfsub (o : OpV)
  | vfmul (o : OpV)
  | vfma (o : OpV)
  | vfmax (o : OpV)
  | vfmin (o : OpV)
  | vfclt (o : OpV)
  | vfceq (o : OpV)
  | vbcast (o : OpV)
  | vext (o : OpV)
  | vins (o : OpV)
  | vrot (o : OpV)
  | vperm (o : OpV)
  | vredadd (o : OpV)
  | vredmax (o : OpV)
  | kget (o : OpV)
  | kset (o : OpV)
  | vcvt (o : OpV)
  | vexp2 (o : OpV)
  | vrcp (o : OpV)
  | vrsq (o : OpV)
  | vgelu (o : OpV)
  | beq (o : OpB)
  | bne (o : OpB)
  | blt (o : OpB)
  | bge (o : OpB)
  | bltz (o : OpB)
  | bp (o : OpP)
  | bnp (o : OpP)
  | jal (o : OpJ)
  | jr (o : OpJr)
  | pnez (o : OpR)
  | peq (o : OpR)
  | plt (o : OpR)
  | pltz (o : OpR)
  | pand (o : OpR)
  | por (o : OpR)
  | pxor (o : OpR)
  | pnot (o : OpR)
  | pget (o : OpR)
  | yield_ (o : OpR)
  | exit_ (o : OpR)
  | brk (o : OpR)
  | ecall (o : OpR)
  | eret (o : OpR)
  | ldlB (o : OpI)
  | ldlH (o : OpI)
  | ldlW (o : OpI)
  | ldlD (o : OpI)
  | ldlBz (o : OpI)
  | ldlHz (o : OpI)
  | ldlWz (o : OpI)
  | ldlV (o : OpI)
  | stlB (o : OpS)
  | stlH (o : OpS)
  | stlW (o : OpS)
  | stlD (o : OpS)
  | stlV (o : OpS)
  | ldcB (o : OpI)
  | ldcH (o : OpI)
  | ldcW (o : OpI)
  | ldcD (o : OpI)
  | ldcBz (o : OpI)
  | ldcHz (o : OpI)
  | ldcWz (o : OpI)
  | ldcV (o : OpI)
  | stcB (o : OpS)
  | stcH (o : OpS)
  | stcW (o : OpS)
  | stcD (o : OpS)
  | stcV (o : OpS)
  | ldlFr (o : OpR)
  | ldlFe (o : OpR)
  | stlEf (o : OpR)
  | stlXf (o : OpR)
  | felClr (o : OpR)
  | felQ (o : OpR)
  | stlTf (o : OpR)
  | amsg (o : OpR)
  | amsgN (o : OpR)
  | amret (o : OpR)
  | xput (o : OpX)
  | xget (o : OpX)
  | xgath (o : OpX)
  | xscat (o : OpX)
  | tagWany (o : OpR)
  | tagWall (o : OpR)
  | tagFfr (o : OpR)
  | barInit (o : OpR)
  | barExp (o : OpR)
  | barArr (o : OpR)
  | barWait (o : OpR)
  | barQ (o : OpR)
  | barSync (o : OpR)
  | ldgB (o : OpI)
  | ldgH (o : OpI)
  | ldgW (o : OpI)
  | ldgD (o : OpI)
  | ldgBz (o : OpI)
  | ldgHz (o : OpI)
  | ldgWz (o : OpI)
  | ldgV (o : OpI)
  | stgB (o : OpS)
  | stgH (o : OpS)
  | stgW (o : OpS)
  | stgD (o : OpS)
  | stgV (o : OpS)
  | ldgAcq (o : OpR)
  | ldgSc (o : OpR)
  | stgRel (o : OpR)
  | stgSc (o : OpR)
  | amoSwap (o : OpA)
  | amoCas (o : OpA)
  | amoAdd (o : OpA)
  | amoAnd (o : OpA)
  | amoOr (o : OpA)
  | amoXor (o : OpA)
  | amoMin (o : OpA)
  | amoMax (o : OpA)
  | amoMinz (o : OpA)
  | amoMaxz (o : OpA)
  | fenceAcq (o : OpR)
  | fenceRel (o : OpR)
  | fenceAr (o : OpR)
  | fenceSc (o : OpR)
  | fenceRcpt (o : OpR)
  | rcptQ (o : OpR)
  | fenceTlb (o : OpR)
  | spawn (o : OpQ)
  | touch (o : OpQ)
  | touchP (o : OpQ)
  | fres (o : OpQ)
  | fresFirst (o : OpQ)
  | fpois (o : OpQ)
  | fcan (o : OpQ)
  | fcanq (o : OpQ)
  | fq (o : OpQ)
  | frel (o : OpQ)
  | fnew (o : OpQ)
  | ftaskQ (o : OpQ)
  | qpush (o : OpQ)
  | qpop (o : OpQ)
  | qtail (o : OpQ)
  | chsend (o : OpQ)
  | chrecv (o : OpQ)
  | chclose (o : OpQ)
  | chq (o : OpQ)
  | mma (o : OpM)
  | mmac (o : OpM)
  | mdrain (o : OpM)
  | tld (o : OpM)
  | tst (o : OpM)
  | tzero (o : OpM)
  | azero (o : OpM)
  | ebind (o : OpM)
  | efree (o : OpM)
  | tlwait (o : OpM)
  | tlread (o : OpM)
  | dpmLoad (o : OpR)
  | dpmFree (o : OpR)
  | mrowZero (o : OpR)
  | mrowCopy (o : OpR)
  | mrowWait (o : OpR)
  | mrowTl (o : OpR)
  | mrowIss (o : OpR)
  | aqPost (o : OpR)
  | aqMerge (o : OpR)
  | aqNorm (o : OpR)
  | aqNormB (o : OpR)
  | aqWait (o : OpR)
  | aqTl (o : OpR)
  | aqIss (o : OpR)
  | encPost (o : OpR)
  | encWait (o : OpR)
  | encTl (o : OpR)
  | fabPut (o : OpR)
  | ownGrant (o : OpR)
  | ownRevoke (o : OpR)
  | pinv (o : OpR)
  | pzero (o : OpR)
  | fmt (o : OpF)
  | attestSignatureDone
  | amsgArrive (core entry : Nat)
  | amsgHandlerStart (core : Nat)
  | handlerIssueLimit (tid : Nat)
  | transferPiecePerformed (core id piece : Nat)
  | transferComplete (core id : Nat)
  | arrayScrub (tile : Bool) (place addr : Nat)
  | storePerformed (id : Nat)
  | memoryReply (tid : Nat)
  | l1CopyExpire (core line : Nat)
  | clearing (window : Nat)
  | regionRetire (tid : Nat) (seq : BitVec 2)
  | tlbWalkDone (place : TlbPlace) (ctx va : Nat)
  | faultComplete (ctx page : Nat) (outcome : FaultOutcome)
  | noteOpArrive (index : Nat)
  | subscriptionFetchDone (cluster record sub : Nat)
  | recordDispatch (cluster record core phase : Nat)
  | tailWrite (index : Nat)
  | queueSlotPoll (ctx queue : Nat)
  | spawnQueueConsume (ctx queue : Nat)
  | queueMap (ctx queue cluster slot : Nat)
  | queueUnmap (ctx queue : Nat)
  | holdExpire (tid : Nat)
  | pipelinePlace (pipe : Nat)
  | stageRelease (pipe stage : Nat)
  | loaderTileStart (pipe chan : Nat)
  | loaderTileDone (pipe chan : Nat)
  | storerRecord (pipe chan : Nat)
  | storerRecordDone (pipe chan : Nat)
  | tellerLendPhase (core phase tid : Nat)
  | taskEvict (tid groups : Nat)
  | contextSaveDone (tid : Nat)
  | taskRestore (tid core phase : Nat)
  | taskRestoreDone (tid : Nat)
  | budgetOverrun (tid : Nat)
  | waitLimitExpiry (tid : Nat)
  | allAsleep (ctx : Nat)
  | affinityMigration (tid groups : Nat)
  | priorityAge (who : Nat)
  | preemptionRequest (who : Nat)
  | contractRelease (cluster idx : Nat)
  | contractDeadline (cluster idx : Nat)
  | contractBudgetExhausted (tid : Nat)
  | powerControlStep (watts : Nat)
  | arrayPartDone (cluster idx : Nat)
  | drainStart (cluster idx acc : Nat)
  | drainRowDone (cluster idx acc : Nat)
  | drainComplete (cluster idx acc : Nat)
  | rowChunkDone (core id chunk : Nat)
  | bankRefresh (stack bank : Nat)
  | selfRefreshEntry (stack temp : Nat)
  | selfRefreshExit (stack temp : Nat)
  | stackStall (stack : Nat)
  | patrolScrub (line : Nat)
  | ceThresh (stack die count : Nat)
  | pageMigrate (ctx va newPa : Nat)
  | dieMapOut (stack die : Nat)
  | queryHandover (query : Nat)
  | scanStep (query page : Nat)
  | queryComplete (query : Nat)
  | frameComplete (stream bytes : Nat)
  | bar2Read (func off size : Nat)
  | bar2Write (func off size val : Nat)
  | bar2Fetchadd (func off val : Nat)
  | doorbellWrite (func idx size val : Nat)
  | rcfgWrite (func val : Nat)
  | eventRingReadWrite (func val : Nat)
  | hostRegisterWrite (func off val : Nat)
  | info (seq : Nat)
  | attest (seq : Nat) (nonce : List Byte)
  | zero (seq : Nat)
  | imageStage (seq off : Nat) (bytes : List Byte)
  | imageActivate (seq timeout : Nat)
  | quiesceAck (seq func : Nat)
  | quiesceTimeout
  | launch (seq func : Nat) (job : JobDesc)
  | end_ (seq : Nat) (job : JobRef)
  | contract (seq : Nat) (job : JobRef) (va : Nat)
  | aperture (seq func ctx base : Nat)
  | doorbell (seq func idx ctx va : Nat)
  | stream (seq func ctx : Nat) (s : StreamDesc)
  | fabric (seq chip port : Nat)
  | peer (seq chip : Nat) (addr : BitVec 128)
  | pipeline (seq : Nat) (job : JobRef) (va : Nat)
  | fabricGrant (seq : Nat) (job : JobRef) (src sctx : Nat) (revoke : Bool)
  | streamClose (seq func n : Nat)
  | contractWithdraw (seq : Nat) (job : JobRef) (va : Nat)
  | linkDown
  | flitRetry
  | resolve (h : FabHdr) (handle value : Word) (cause kind : Nat) (want : Bool) (token : Word)
  | resolveReply (h : FabHdr) (handle token : Word) (won : Bool) (status : Nat)
  | fabricTouch (h : FabHdr) (handle proxy : Word)
  | touchReply (h : FabHdr) (handle proxy : Word) (state cause : Nat) (value : Word)
  | tail (h : FabHdr) (desc value : Word)
  | put (h : FabHdr) (dst number total plen : Nat) (note : Word) (data : Nat)
  | putAck (h : FabHdr) (number bytes status failva : Nat)
  | ack (src seq : Nat)
  | fabricRetransmit (chip seq : Nat)
  | portFail (port : Nat)
  | packageReset
  | stackTrained (stack : Nat) (ok : Bool) (localsa : Nat)
  | clusterRelease (cluster : Nat) (ok : Bool)
  | illegal (w : W32)
  | fetchFault (ue : Bool) (va : Word)
  | postedWriteBufferDrain (stack : Nat)
  deriving DecidableEq, Repr

end Sys2Proof
end

