-- ==== Sys2Proof/WellFormed.lean ====
section
/-! DEFINITION. Which instructions the device accepts at decode: the accepted values of every register field, the unused
fields, the s-window rule and the format codes (R46, R47, R17, and each family's field table). A word that fails raises
ILLEGAL (R50, R51 step 1). Everything here depends on the word alone. -/

namespace Sys2Proof.WellFormed

/-- A scalar source field: 0-47 (R98). -/
def scalar (r : Reg) : Bool := decide (r.toNat < 48)
/-- A scalar source field of 1-47 (R183). -/
def scalar1 (r : Reg) : Bool := decide (1 ≤ r.toNat) && decide (r.toNat < 48)
/-- A scalar destination: 0-39 or 42-47 (R45, R98). -/
def dest (r : Reg) : Bool := decide (r.toNat < 40) || (decide (42 ≤ r.toNat) && decide (r.toNat < 48))
/-- 0-39. -/
def ghReg (r : Reg) : Bool := decide (r.toNat < 40)
/-- 1-39. -/
def ghReg1 (r : Reg) : Bool := decide (1 ≤ r.toNat) && decide (r.toNat < 40)
/-- 0-31 (R59). -/
def gReg (r : Reg) : Bool := decide (r.toNat < 32)
/-- 1-39 or 42-47 (R100, R102). -/
def movable (r : Reg) : Bool := ghReg1 r || (decide (42 ≤ r.toNat) && decide (r.toNat < 48))
/-- 1-39 or 42-63 (R100). -/
def emptiable (r : Reg) : Bool := ghReg1 r || decide (42 ≤ r.toNat)
/-- 48-63 (R47). -/
def vector (r : Reg) : Bool := decide (48 ≤ r.toNat)
/-- k1-k7 as a destination (R107). -/
def maskReg (r : Reg) : Bool := decide (1 ≤ r.toNat) && decide (r.toNat < 8)
/-- A predicate number (R124). -/
def pred (r : Reg) : Bool := decide (r.toNat < 4)
/-- An even g register g2-g30 (R216). -/
def casReg (r : Reg) : Bool := decide (2 ≤ r.toNat) && decide (r.toNat ≤ 30) && decide (r.toNat % 2 = 0)
/-- A field that the instruction does not use (R47). -/
def unused (r : Reg) : Bool := r == 0#6
/-- A `fmt` word's format codes name element formats and its reserved bits are zero (R17, R52). -/
def fmtOk (o : OpF) : Bool :=
  decide (o.fa.toNat ≤ 9) && decide (o.fb.toNat ≤ 9) && decide (o.fr.toNat ≤ 9) && o.rsv == 0#11
/-- Whether a field names an s register. -/
def isS (r : Reg) : Bool := r == 46#6 || r == 47#6
/-- R46: a nonzero W needs a field that holds 46 or 47. -/
def winOk (w : BitVec 2) (d a b : Reg) : Bool := w == 0#2 || isS d || isS a || isS b
/-- The accepted fields of the words of opcodes 0x28 and 0x29 (R437, R433, R445). -/
def encPostOk (o : OpR) : Bool := dest o.d && ghReg1 o.a && scalar o.b && winOk o.w o.d o.a o.b
def encWaitOk (o : OpR) : Bool := unused o.d && scalar o.a && scalar o.b && winOk o.w o.d o.a o.b
def encTlOk (o : OpR) : Bool := dest o.d && scalar o.a && unused o.b && winOk o.w o.d o.a o.b
def fabPutOk (o : OpR) : Bool := unused o.d && ghReg1 o.a && unused o.b && winOk o.w o.d o.a o.b
def ownGrantOk (o : OpR) : Bool := ghReg1 o.d && ghReg1 o.a && unused o.b && winOk o.w o.d o.a o.b
def ownRevokeOk (o : OpR) : Bool := ghReg1 o.d && ghReg1 o.a && unused o.b && winOk o.w o.d o.a o.b
def pinvOk (o : OpR) : Bool := ghReg1 o.d && scalar o.a && scalar o.b && winOk o.w o.d o.a o.b
def pzeroOk (o : OpR) : Bool := ghReg1 o.d && ghReg1 o.a && unused o.b && winOk o.w o.d o.a o.b

end Sys2Proof.WellFormed

namespace Sys2Proof

open WellFormed in
/-- R47: whether a word of this instruction is accepted at decode. An event is not a word. -/
def Instr.wf (i : Instr) : Bool :=
  match i with
  | .add o => dest o.d && scalar o.a && scalar o.b && winOk o.w o.d o.a o.b
  | .sub o => dest o.d && scalar o.a && scalar o.b && winOk o.w o.d o.a o.b
  | .and_ o => dest o.d && scalar o.a && scalar o.b && winOk o.w o.d o.a o.b
  | .or_ o => dest o.d && scalar o.a && scalar o.b && winOk o.w o.d o.a o.b
  | .xor_ o => dest o.d && scalar o.a && scalar o.b && winOk o.w o.d o.a o.b
  | .andn o => dest o.d && scalar o.a && scalar o.b && winOk o.w o.d o.a o.b
  | .sll o => dest o.d && scalar o.a && scalar o.b && winOk o.w o.d o.a o.b
  | .srl o => dest o.d && scalar o.a && scalar o.b && winOk o.w o.d o.a o.b
  | .sra o => dest o.d && scalar o.a && scalar o.b && winOk o.w o.d o.a o.b
  | .ror o => dest o.d && scalar o.a && scalar o.b && winOk o.w o.d o.a o.b
  | .slt o => dest o.d && scalar o.a && scalar o.b && winOk o.w o.d o.a o.b
  | .sltz o => dest o.d && scalar o.a && scalar o.b && winOk o.w o.d o.a o.b
  | .seq o => dest o.d && scalar o.a && scalar o.b && winOk o.w o.d o.a o.b
  | .min_ o => dest o.d && scalar o.a && scalar o.b && winOk o.w o.d o.a o.b
  | .max_ o => dest o.d && scalar o.a && scalar o.b && winOk o.w o.d o.a o.b
  | .minz o => dest o.d && scalar o.a && scalar o.b && winOk o.w o.d o.a o.b
  | .maxz o => dest o.d && scalar o.a && scalar o.b && winOk o.w o.d o.a o.b
  | .adds o => dest o.d && scalar o.a && scalar o.b && winOk o.w o.d o.a o.b
  | .subs o => dest o.d && scalar o.a && scalar o.b && winOk o.w o.d o.a o.b
  | .clz o => dest o.d && scalar o.a && unused o.b && winOk o.w o.d o.a o.b
  | .ctz o => dest o.d && scalar o.a && unused o.b && winOk o.w o.d o.a o.b
  | .popc o => dest o.d && scalar o.a && unused o.b && winOk o.w o.d o.a o.b
  | .bswap o => dest o.d && scalar o.a && unused o.b && winOk o.w o.d o.a o.b
  | .sxb o => dest o.d && scalar o.a && unused o.b && winOk o.w o.d o.a o.b
  | .sxh o => dest o.d && scalar o.a && unused o.b && winOk o.w o.d o.a o.b
  | .sxw o => dest o.d && scalar o.a && unused o.b && winOk o.w o.d o.a o.b
  | .zxw o => dest o.d && scalar o.a && unused o.b && winOk o.w o.d o.a o.b
  | .mvt o => dest o.d && movable o.a && unused o.b && winOk o.w o.d o.a o.b
  | .mvp o => movable o.d && scalar o.a && unused o.b && winOk o.w o.d o.a o.b
  | .rclr o => unused o.d && emptiable o.a && unused o.b && winOk o.w o.d o.a o.b
  | .rful o => dest o.d && unused o.b && winOk o.w o.d o.a o.b
  | .addi o => dest o.d && scalar o.a
  | .andi o => dest o.d && scalar o.a
  | .andiz o => dest o.d && scalar o.a
  | .ori o => dest o.d && scalar o.a
  | .oriz o => dest o.d && scalar o.a
  | .xori o => dest o.d && scalar o.a
  | .xoriz o => dest o.d && scalar o.a
  | .slli o => dest o.d && scalar o.a && o.imm.extractLsb' 6 5 == 0#5
  | .srli o => dest o.d && scalar o.a && o.imm.extractLsb' 6 5 == 0#5
  | .srai o => dest o.d && scalar o.a && o.imm.extractLsb' 6 5 == 0#5
  | .rori o => dest o.d && scalar o.a && o.imm.extractLsb' 6 5 == 0#5
  | .slti o => dest o.d && scalar o.a
  | .sltiz o => dest o.d && scalar o.a
  | .seqi o => dest o.d && scalar o.a
  | .shlim o => movable o.d
  | .addpc o => gReg o.d
  | .mul o => dest o.d && scalar o.a && scalar o.b && winOk o.w o.d o.a o.b
  | .mulh o => dest o.d && scalar o.a && scalar o.b && winOk o.w o.d o.a o.b
  | .mulhz o => dest o.d && scalar o.a && scalar o.b && winOk o.w o.d o.a o.b
  | .div o => dest o.d && scalar o.a && scalar o.b && winOk o.w o.d o.a o.b
  | .divz o => dest o.d && scalar o.a && scalar o.b && winOk o.w o.d o.a o.b
  | .rem o => dest o.d && scalar o.a && scalar o.b && winOk o.w o.d o.a o.b
  | .remz o => dest o.d && scalar o.a && scalar o.b && winOk o.w o.d o.a o.b
  | .csrr o => dest o.d && unused o.a
  | .csrx o => dest o.d && scalar o.a
  | .csrs o => dest o.d && scalar o.a
  | .csrc o => dest o.d && scalar o.a
  | .vadd o => vector o.d && vector o.a
  | .vsub o => vector o.d && vector o.a
  | .vmul o => vector o.d && vector o.a
  | .vmulh o => vector o.d && vector o.a
  | .vand o => vector o.d && vector o.a
  | .vor o => vector o.d && vector o.a
  | .vxor o => vector o.d && vector o.a
  | .vsll o => vector o.d && vector o.a
  | .vsrl o => vector o.d && vector o.a
  | .vsra o => vector o.d && vector o.a
  | .vmin o => vector o.d && vector o.a
  | .vmax o => vector o.d && vector o.a
  | .vclt o => maskReg o.d && vector o.a
  | .vceq o => maskReg o.d && vector o.a
  | .vfadd o => vector o.d && vector o.a
  | .vfsub o => vector o.d && vector o.a
  | .vfmul o => vector o.d && vector o.a
  | .vfma o => vector o.d && vector o.a
  | .vfmax o => vector o.d && vector o.a
  | .vfmin o => vector o.d && vector o.a
  | .vfclt o => maskReg o.d && vector o.a
  | .vfceq o => maskReg o.d && vector o.a
  | .vbcast o => vector o.d && scalar o.a && unused o.b
  | .vext o => dest o.d && vector o.a && scalar o.b && o.k == 0#3
  | .vins o => vector o.d && scalar o.a && scalar o.b
  | .vrot o => vector o.d && vector o.a && scalar o.b
  | .vperm o => vector o.d && vector o.a && vector o.b
  | .vredadd o => dest o.d && vector o.a && unused o.b
  | .vredmax o => dest o.d && vector o.a && unused o.b
  | .kget o => dest o.d && unused o.a && unused o.b
  | .kset o => maskReg o.d && scalar o.a && unused o.b && o.k == 0#3
  | .vcvt o => vector o.d && vector o.a && unused o.b
  | .vexp2 o => vector o.d && vector o.a && unused o.b
  | .vrcp o => vector o.d && vector o.a && unused o.b
  | .vrsq o => vector o.d && vector o.a && unused o.b
  | .vgelu o => vector o.d && vector o.a && unused o.b
  | .beq o => scalar o.a && scalar o.b
  | .bne o => scalar o.a && scalar o.b
  | .blt o => scalar o.a && scalar o.b
  | .bge o => scalar o.a && scalar o.b
  | .bltz o => scalar o.a && scalar o.b
  | .bp o => o.hi == 0#3 && unused o.b
  | .bnp o => o.hi == 0#3 && unused o.b
  | .jal o => ghReg o.d
  | .jr o => ghReg o.d && ghReg1 o.a
  | .pnez o => pred o.d && scalar o.a && unused o.b && winOk o.w o.d o.a o.b
  | .peq o => pred o.d && scalar o.a && scalar o.b && winOk o.w o.d o.a o.b
  | .plt o => pred o.d && scalar o.a && scalar o.b && winOk o.w o.d o.a o.b
  | .pltz o => pred o.d && scalar o.a && scalar o.b && winOk o.w o.d o.a o.b
  | .pand o => pred o.d && pred o.a && pred o.b && winOk o.w o.d o.a o.b
  | .por o => pred o.d && pred o.a && pred o.b && winOk o.w o.d o.a o.b
  | .pxor o => pred o.d && pred o.a && pred o.b && winOk o.w o.d o.a o.b
  | .pnot o => pred o.d && pred o.a && unused o.b && winOk o.w o.d o.a o.b
  | .pget o => ghReg o.d && pred o.a && unused o.b && winOk o.w o.d o.a o.b
  | .yield_ o => unused o.d && unused o.a && unused o.b && winOk o.w o.d o.a o.b
  | .exit_ o => unused o.d && scalar o.a && unused o.b && winOk o.w o.d o.a o.b
  | .brk o => unused o.d && unused o.a && unused o.b && winOk o.w o.d o.a o.b
  | .ecall o => unused o.d && scalar o.a && unused o.b && winOk o.w o.d o.a o.b
  | .eret o => unused o.d && unused o.a && unused o.b && winOk o.w o.d o.a o.b
  | .ldlB o => ghReg o.a && dest o.d
  | .ldlH o => ghReg o.a && dest o.d
  | .ldlW o => ghReg o.a && dest o.d
  | .ldlD o => ghReg o.a && dest o.d
  | .ldlBz o => ghReg o.a && dest o.d
  | .ldlHz o => ghReg o.a && dest o.d
  | .ldlWz o => ghReg o.a && dest o.d
  | .ldlV o => ghReg o.a && vector o.d
  | .stlB o => ghReg o.a && scalar o.b
  | .stlH o => ghReg o.a && scalar o.b
  | .stlW o => ghReg o.a && scalar o.b
  | .stlD o => ghReg o.a && scalar o.b
  | .stlV o => ghReg o.a && vector o.b
  | .ldcB o => ghReg o.a && dest o.d
  | .ldcH o => ghReg o.a && dest o.d
  | .ldcW o => ghReg o.a && dest o.d
  | .ldcD o => ghReg o.a && dest o.d
  | .ldcBz o => ghReg o.a && dest o.d
  | .ldcHz o => ghReg o.a && dest o.d
  | .ldcWz o => ghReg o.a && dest o.d
  | .ldcV o => ghReg o.a && vector o.d
  | .stcB o => ghReg o.a && scalar o.b
  | .stcH o => ghReg o.a && scalar o.b
  | .stcW o => ghReg o.a && scalar o.b
  | .stcD o => ghReg o.a && scalar o.b
  | .stcV o => ghReg o.a && vector o.b
  | .ldlFr o => dest o.d && ghReg1 o.a && unused o.b && winOk o.w o.d o.a o.b
  | .ldlFe o => dest o.d && ghReg1 o.a && unused o.b && winOk o.w o.d o.a o.b
  | .stlEf o => unused o.d && ghReg1 o.a && scalar o.b && winOk o.w o.d o.a o.b
  | .stlXf o => unused o.d && ghReg1 o.a && scalar o.b && winOk o.w o.d o.a o.b
  | .felClr o => unused o.d && ghReg1 o.a && unused o.b && winOk o.w o.d o.a o.b
  | .felQ o => dest o.d && ghReg1 o.a && unused o.b && winOk o.w o.d o.a o.b
  | .stlTf o => dest o.d && ghReg1 o.a && scalar o.b && winOk o.w o.d o.a o.b
  | .amsg o => dest o.d && ghReg1 o.a && scalar o.b && winOk o.w o.d o.a o.b
  | .amsgN o => unused o.d && ghReg1 o.a && scalar o.b && winOk o.w o.d o.a o.b
  | .amret o => unused o.d && scalar o.a && unused o.b && winOk o.w o.d o.a o.b
  | .xput o => ghReg1 o.a && ghReg1 o.b && ghReg1 o.c
  | .xget o => ghReg1 o.a && ghReg1 o.b && ghReg1 o.c
  | .xgath o => ghReg1 o.a && ghReg1 o.b && ghReg1 o.c
  | .xscat o => ghReg1 o.a && ghReg1 o.b && ghReg1 o.c
  | .tagWany o => dest o.d && scalar o.a && unused o.b && winOk o.w o.d o.a o.b
  | .tagWall o => dest o.d && scalar o.a && unused o.b && winOk o.w o.d o.a o.b
  | .tagFfr o => dest o.d && scalar o.a && unused o.b && winOk o.w o.d o.a o.b
  | .barInit o => unused o.d && scalar1 o.a && scalar o.b && winOk o.w o.d o.a o.b
  | .barExp o => unused o.d && scalar1 o.a && scalar o.b && winOk o.w o.d o.a o.b
  | .barArr o => dest o.d && scalar1 o.a && unused o.b && winOk o.w o.d o.a o.b
  | .barWait o => unused o.d && scalar1 o.a && scalar o.b && winOk o.w o.d o.a o.b
  | .barQ o => dest o.d && scalar1 o.a && scalar o.b && winOk o.w o.d o.a o.b
  | .barSync o => unused o.d && scalar1 o.a && unused o.b && winOk o.w o.d o.a o.b
  | .ldgB o => ghReg o.a && dest o.d
  | .ldgH o => ghReg o.a && dest o.d
  | .ldgW o => ghReg o.a && dest o.d
  | .ldgD o => ghReg o.a && dest o.d
  | .ldgBz o => ghReg o.a && dest o.d
  | .ldgHz o => ghReg o.a && dest o.d
  | .ldgWz o => ghReg o.a && dest o.d
  | .ldgV o => ghReg o.a && vector o.d
  | .stgB o => ghReg o.a && scalar o.b
  | .stgH o => ghReg o.a && scalar o.b
  | .stgW o => ghReg o.a && scalar o.b
  | .stgD o => ghReg o.a && scalar o.b
  | .stgV o => ghReg o.a && vector o.b
  | .ldgAcq o => dest o.d && ghReg1 o.a && scalar o.b && winOk o.w o.d o.a o.b
  | .ldgSc o => dest o.d && ghReg1 o.a && scalar o.b && winOk o.w o.d o.a o.b
  | .stgRel o => scalar o.d && ghReg1 o.a && scalar o.b && winOk o.w o.d o.a o.b
  | .stgSc o => scalar o.d && ghReg1 o.a && scalar o.b && winOk o.w o.d o.a o.b
  | .amoSwap o => ghReg1 o.d && ghReg1 o.a && (if o.ord == 0#2 then unused o.b else scalar o.b) && winOk o.w o.d o.a o.b
  | .amoCas o => casReg o.d && ghReg1 o.a && (if o.ord == 0#2 then unused o.b else scalar o.b) && winOk o.w o.d o.a o.b
  | .amoAdd o => ghReg1 o.d && ghReg1 o.a && (if o.ord == 0#2 then unused o.b else scalar o.b) && winOk o.w o.d o.a o.b
  | .amoAnd o => ghReg1 o.d && ghReg1 o.a && (if o.ord == 0#2 then unused o.b else scalar o.b) && winOk o.w o.d o.a o.b
  | .amoOr o => ghReg1 o.d && ghReg1 o.a && (if o.ord == 0#2 then unused o.b else scalar o.b) && winOk o.w o.d o.a o.b
  | .amoXor o => ghReg1 o.d && ghReg1 o.a && (if o.ord == 0#2 then unused o.b else scalar o.b) && winOk o.w o.d o.a o.b
  | .amoMin o => ghReg1 o.d && ghReg1 o.a && (if o.ord == 0#2 then unused o.b else scalar o.b) && winOk o.w o.d o.a o.b
  | .amoMax o => ghReg1 o.d && ghReg1 o.a && (if o.ord == 0#2 then unused o.b else scalar o.b) && winOk o.w o.d o.a o.b
  | .amoMinz o => ghReg1 o.d && ghReg1 o.a && (if o.ord == 0#2 then unused o.b else scalar o.b) && winOk o.w o.d o.a o.b
  | .amoMaxz o => ghReg1 o.d && ghReg1 o.a && (if o.ord == 0#2 then unused o.b else scalar o.b) && winOk o.w o.d o.a o.b
  | .fenceAcq o => unused o.d && scalar o.a && unused o.b && winOk o.w o.d o.a o.b
  | .fenceRel o => unused o.d && scalar o.a && unused o.b && winOk o.w o.d o.a o.b
  | .fenceAr o => unused o.d && scalar o.a && unused o.b && winOk o.w o.d o.a o.b
  | .fenceSc o => unused o.d && scalar o.a && unused o.b && winOk o.w o.d o.a o.b
  | .fenceRcpt o => unused o.d && scalar o.a && unused o.b && winOk o.w o.d o.a o.b
  | .rcptQ o => dest o.d && unused o.a && unused o.b && winOk o.w o.d o.a o.b
  | .fenceTlb o => unused o.d && scalar o.a && scalar o.b && winOk o.w o.d o.a o.b
  | .spawn o => dest o.d && ghReg o.a && unused o.b
  | .touch o => dest o.d && scalar o.a && unused o.b && o.pd == 0#2 && !o.i
  | .touchP o => dest o.d && scalar o.a && unused o.b && !o.i
  | .fres o => unused o.d && scalar o.a && scalar o.b && o.pd == 0#2 && !o.i
  | .fresFirst o => unused o.d && scalar o.a && scalar o.b && !o.i
  | .fpois o => unused o.d && scalar o.a && scalar o.b && !o.i
  | .fcan o => unused o.d && scalar o.a && unused o.b && !o.i
  | .fcanq o => unused o.d && unused o.a && unused o.b && !o.i
  | .fq o => dest o.d && scalar o.a && unused o.b && o.pd == 0#2 && !o.i
  | .frel o => unused o.d && scalar o.a && unused o.b && o.pd == 0#2 && !o.i
  | .fnew o => dest o.d && unused o.a && unused o.b && !o.i
  | .ftaskQ o => dest o.d && unused o.a && decide (o.b.toNat ≤ 2) && o.pd == 0#2 && !o.i
  | .qpush o => dest o.d && ghReg1 o.a && ghReg o.b
  | .qpop o => dest o.d && ghReg1 o.a && ghReg o.b
  | .qtail o => unused o.d && ghReg1 o.a && scalar o.b && o.pd == 0#2 && !o.i
  | .chsend o => unused o.d && scalar o.a && ghReg o.b
  | .chrecv o => dest o.d && scalar o.a && ghReg o.b
  | .chclose o => unused o.d && scalar o.a && unused o.b && o.pd == 0#2 && !o.i
  | .chq o => dest o.d && scalar o.a && unused o.b && o.pd == 0#2 && !o.i
  | .mma o => o.ctl.extractLsb' 2 1 == 0#1 && (if o.ctl.extractLsb' 1 1 == 1#1 then ghReg1 o.a else o.slot == 0#6 && unused o.a)
  | .mmac o => o.ctl.extractLsb' 2 1 == 0#1 && (if o.ctl.extractLsb' 1 1 == 1#1 then ghReg1 o.a else o.slot == 0#6 && unused o.a)
  | .mdrain o => o.tb == 0#3 && ghReg1 o.a && o.ctl.extractLsb' 1 2 == 0#2
  | .tld o => o.tb == 0#3 && o.c == 0#1 && o.slot == 0#6 && ghReg1 o.a && o.ctl == 0#3
  | .tst o => o.tb == 0#3 && o.c == 0#1 && o.slot == 0#6 && ghReg1 o.a && o.ctl == 0#3
  | .tzero o => o.tb == 0#3 && o.c == 0#1 && o.slot == 0#6 && unused o.a && o.ctl == 0#3
  | .azero o => o.ta == 0#3 && o.tb == 0#3 && o.slot == 0#6 && unused o.a && o.ctl.extractLsb' 1 2 == 0#2
  | .ebind o => o.ta == 0#3 && o.tb == 0#3 && o.c == 0#1 && o.slot == 0#6 && ghReg o.a && o.ctl.extractLsb' 2 1 == 0#1
  | .efree o => o.ta == 0#3 && o.tb == 0#3 && o.c == 0#1 && o.slot == 0#6 && unused o.a && o.ctl == 0#3
  | .tlwait o => o.ta == 0#3 && o.tb == 0#3 && o.c == 0#1 && o.slot == 0#6 && scalar o.a && o.ctl == 0#3
  | .tlread o => o.ta == 0#3 && o.tb == 0#3 && o.c == 0#1 && o.slot == 0#6 && ghReg o.a && o.ctl.extractLsb' 2 1 == 0#1
  | .dpmLoad o => dest o.d && scalar o.a && ghReg o.b && winOk o.w o.d o.a o.b
  | .dpmFree o => dest o.d && scalar o.a && unused o.b && winOk o.w o.d o.a o.b
  | .mrowZero o => ghReg1 o.d && ghReg1 o.a && unused o.b && winOk o.w o.d o.a o.b
  | .mrowCopy o => ghReg1 o.d && ghReg1 o.a && ghReg1 o.b && winOk o.w o.d o.a o.b
  | .mrowWait o => unused o.d && scalar o.a && unused o.b && winOk o.w o.d o.a o.b
  | .mrowTl o => dest o.d && unused o.a && unused o.b && winOk o.w o.d o.a o.b
  | .mrowIss o => dest o.d && unused o.a && unused o.b && winOk o.w o.d o.a o.b
  | .aqPost o => dest o.d && ghReg1 o.a && unused o.b && winOk o.w o.d o.a o.b
  | .aqMerge o => dest o.d && ghReg1 o.a && ghReg1 o.b && winOk o.w o.d o.a o.b
  | .aqNorm o => dest o.d && ghReg1 o.a && ghReg1 o.b && winOk o.w o.d o.a o.b
  | .aqNormB o => dest o.d && ghReg1 o.a && ghReg1 o.b && winOk o.w o.d o.a o.b
  | .aqWait o => unused o.d && scalar o.a && unused o.b && winOk o.w o.d o.a o.b
  | .aqTl o => dest o.d && unused o.a && unused o.b && winOk o.w o.d o.a o.b
  | .aqIss o => dest o.d && unused o.a && unused o.b && winOk o.w o.d o.a o.b
  | .encPost o => encPostOk o
  | .encWait o => encWaitOk o
  | .encTl o => encTlOk o
  | .fabPut o => fabPutOk o
  | .ownGrant o => ownGrantOk o
  | .ownRevoke o => ownRevokeOk o
  | .pinv o => pinvOk o
  | .pzero o => pzeroOk o
  | .fmt o => fmtOk o
  | .attestSignatureDone => true
  | .amsgArrive _ _ => true
  | .amsgHandlerStart _ => true
  | .handlerIssueLimit _ => true
  | .transferPiecePerformed _ _ _ => true
  | .transferComplete _ _ => true
  | .arrayScrub _ _ _ => true
  | .storePerformed _ => true
  | .memoryReply _ => true
  | .l1CopyExpire _ _ => true
  | .clearing _ => true
  | .regionRetire _ _ => true
  | .tlbWalkDone _ _ _ => true
  | .faultComplete _ _ _ => true
  | .noteOpArrive _ => true
  | .subscriptionFetchDone _ _ _ => true
  | .recordDispatch _ _ _ _ => true
  | .tailWrite _ => true
  | .queueSlotPoll _ _ => true
  | .spawnQueueConsume _ _ => true
  | .queueMap _ _ _ _ => true
  | .queueUnmap _ _ => true
  | .holdExpire _ => true
  | .pipelinePlace _ => true
  | .stageRelease _ _ => true
  | .loaderTileStart _ _ => true
  | .loaderTileDone _ _ => true
  | .storerRecord _ _ => true
  | .storerRecordDone _ _ => true
  | .tellerLendPhase _ _ _ => true
  | .taskEvict _ _ => true
  | .contextSaveDone _ => true
  | .taskRestore _ _ _ => true
  | .taskRestoreDone _ => true
  | .budgetOverrun _ => true
  | .waitLimitExpiry _ => true
  | .allAsleep _ => true
  | .affinityMigration _ _ => true
  | .priorityAge _ => true
  | .preemptionRequest _ => true
  | .contractRelease _ _ => true
  | .contractDeadline _ _ => true
  | .contractBudgetExhausted _ => true
  | .powerControlStep _ => true
  | .arrayPartDone _ _ => true
  | .drainStart _ _ _ => true
  | .drainRowDone _ _ _ => true
  | .drainComplete _ _ _ => true
  | .rowChunkDone _ _ _ => true
  | .bankRefresh _ _ => true
  | .selfRefreshEntry _ _ => true
  | .selfRefreshExit _ _ => true
  | .stackStall _ => true
  | .patrolScrub _ => true
  | .ceThresh _ _ _ => true
  | .pageMigrate _ _ _ => true
  | .dieMapOut _ _ => true
  | .queryHandover _ => true
  | .scanStep _ _ => true
  | .queryComplete _ => true
  | .frameComplete _ _ => true
  | .bar2Read _ _ _ => true
  | .bar2Write _ _ _ _ => true
  | .bar2Fetchadd _ _ _ => true
  | .doorbellWrite _ _ _ _ => true
  | .rcfgWrite _ _ => true
  | .eventRingReadWrite _ _ => true
  | .hostRegisterWrite _ _ _ => true
  | .info _ => true
  | .attest _ _ => true
  | .zero _ => true
  | .imageStage _ _ _ => true
  | .imageActivate _ _ => true
  | .quiesceAck _ _ => true
  | .quiesceTimeout => true
  | .launch _ _ _ => true
  | .end_ _ _ => true
  | .contract _ _ _ => true
  | .aperture _ _ _ _ => true
  | .doorbell _ _ _ _ _ => true
  | .stream _ _ _ _ => true
  | .fabric _ _ _ => true
  | .peer _ _ _ => true
  | .pipeline _ _ _ => true
  | .fabricGrant _ _ _ _ _ => true
  | .streamClose _ _ _ => true
  | .contractWithdraw _ _ _ => true
  | .linkDown => true
  | .flitRetry => true
  | .resolve _ _ _ _ _ _ _ => true
  | .resolveReply _ _ _ _ _ => true
  | .fabricTouch _ _ _ => true
  | .touchReply _ _ _ _ _ _ => true
  | .tail _ _ _ => true
  | .put _ _ _ _ _ _ _ => true
  | .putAck _ _ _ _ _ => true
  | .ack _ _ => true
  | .fabricRetransmit _ _ => true
  | .portFail _ => true
  | .packageReset => true
  | .stackTrained _ _ _ => true
  | .clusterRelease _ _ => true
  | .illegal _ => true
  | .fetchFault _ _ => true
  | .postedWriteBufferDrain _ => true

end Sys2Proof
end

