-- ==== Sys2Proof/Decode.lean ====
section
/-! DEFINITION. Instruction words (R43-R48): the fields of each format, decoding by major opcode and function code alone,
and the encoder. A definition is marked noncomputable only because Lean's runtime has at most 244 constructors with fields
and the opcode table has more rows; the kernel evaluates it, and `step` does without it. Decoding drops no bit: which field values are accepted is WellFormed's question (R47). -/

namespace Sys2Proof

/-- Why a word names no instruction (R48, R49); the device raises ILLEGAL for each. -/
inductive DecodeError where
  | reservedOpcode
  | unassignedOpcode
  | undefinedFunction
  | truncated
  deriving DecidableEq, Repr

/-- Word bits lo+n-1:lo (R43). -/
def bits (w : W32) (lo n : Nat) : BitVec n := w.extractLsb' lo n

/-- The fields of each format (R43). -/
def fieldsR (w : W32) : OpR := ⟨bits w 20 6, bits w 14 6, bits w 8 6, bits w 6 2⟩
def fieldsA (w : W32) : OpA := ⟨bits w 20 6, bits w 14 6, bits w 8 6, bits w 6 2, bits w 0 2⟩
def fieldsI (w : W32) : OpI := ⟨bits w 20 6, bits w 14 6, bits w 0 11⟩
def fieldsS (w : W32) : OpS := ⟨bits w 20 6, bits w 14 6, bits w 0 11⟩
def fieldsU (w : W32) : OpU := ⟨bits w 20 6, bits w 0 20⟩
def fieldsC (w : W32) : OpC := ⟨bits w 20 6, bits w 14 6, bits w 0 12⟩
def fieldsV (w : W32) : OpV := ⟨bits w 20 6, bits w 14 6, bits w 8 6, bits w 5 3⟩
def fieldsB (w : W32) : OpB := ⟨bits w 20 6, bits w 14 6, bits w 0 14⟩
def fieldsP (w : W32) : OpP := ⟨bits w 23 3, bits w 20 2, bits w 14 6, bits w 0 14⟩
def fieldsJ (w : W32) : OpJ := ⟨bits w 20 6, bits w 0 20⟩
def fieldsJr (w : W32) : OpJr := ⟨bits w 20 6, bits w 14 6, bits w 0 14⟩
def fieldsX (w : W32) : OpX := ⟨bits w 18 6, bits w 12 6, bits w 6 6, bits w 0 6⟩
def fieldsQ (w : W32) : OpQ := ⟨bits w 20 6, bits w 14 6, bits w 8 6, bits w 1 2, (bits w 0 1) == 1#1⟩
def fieldsM (w : W32) : OpM := ⟨bits w 19 3, bits w 16 3, bits w 15 1, bits w 9 6, bits w 3 6, bits w 0 3⟩
def fieldsF (w : W32) : OpF := ⟨bits w 22 4, bits w 18 4, bits w 14 4, bits w 12 2, bits w 11 1, bits w 0 11⟩

/-- The words of each format (R43): the inverse of the field functions. -/
def packR (op : BitVec 6) (o : OpR) (fn : BitVec 6) : W32 := op ++ o.d ++ o.a ++ o.b ++ o.w ++ fn
def packA (op : BitVec 6) (o : OpA) (f4 : BitVec 4) : W32 := op ++ o.d ++ o.a ++ o.b ++ o.w ++ f4 ++ o.ord
def packI (op : BitVec 6) (o : OpI) (f3 : BitVec 3) : W32 := op ++ o.d ++ o.a ++ f3 ++ o.imm
def packS (op : BitVec 6) (o : OpS) (f3 : BitVec 3) : W32 := op ++ o.b ++ o.a ++ f3 ++ o.imm
def packU (op : BitVec 6) (o : OpU) : W32 := op ++ o.d ++ o.imm
def packC (op : BitVec 6) (o : OpC) (f2 : BitVec 2) : W32 := op ++ o.d ++ o.a ++ f2 ++ o.csr
def packV (op : BitVec 6) (o : OpV) (fn : BitVec 5) : W32 := op ++ o.d ++ o.a ++ o.b ++ o.k ++ fn
def packB (op : BitVec 6) (o : OpB) : W32 := op ++ o.a ++ o.b ++ o.off
def packP (op : BitVec 6) (o : OpP) (n : BitVec 1) : W32 := op ++ o.hi ++ n ++ o.p ++ o.b ++ o.off
def packJ (op : BitVec 6) (o : OpJ) : W32 := op ++ o.d ++ o.off
def packJr (op : BitVec 6) (o : OpJr) : W32 := op ++ o.d ++ o.a ++ o.imm
def packX (op : BitVec 6) (o : OpX) (xf : BitVec 2) : W32 := op ++ xf ++ o.a ++ o.b ++ o.c ++ o.tag
def packQ (op : BitVec 6) (o : OpQ) (qf : BitVec 5) : W32 := op ++ o.d ++ o.a ++ o.b ++ qf ++ o.pd ++ BitVec.ofBool o.i
def packM (op : BitVec 6) (o : OpM) (mf : BitVec 4) : W32 := op ++ mf ++ o.ta ++ o.tb ++ o.c ++ o.slot ++ o.a ++ o.ctl
def packF (op : BitVec 6) (o : OpF) : W32 := op ++ o.fa ++ o.fb ++ o.fr ++ o.rc ++ o.sat ++ o.rsv

/-- The functions of opcode 0x01 (R99). -/
def decode01 (w : W32) : Except DecodeError Instr :=
  match (bits w 0 6).toNat with
  | 0 => .ok (.add (fieldsR w))
  | 1 => .ok (.sub (fieldsR w))
  | 2 => .ok (.and_ (fieldsR w))
  | 3 => .ok (.or_ (fieldsR w))
  | 4 => .ok (.xor_ (fieldsR w))
  | 5 => .ok (.andn (fieldsR w))
  | 6 => .ok (.sll (fieldsR w))
  | 7 => .ok (.srl (fieldsR w))
  | 8 => .ok (.sra (fieldsR w))
  | 9 => .ok (.ror (fieldsR w))
  | 10 => .ok (.slt (fieldsR w))
  | 11 => .ok (.sltz (fieldsR w))
  | 12 => .ok (.seq (fieldsR w))
  | 13 => .ok (.min_ (fieldsR w))
  | 14 => .ok (.max_ (fieldsR w))
  | 15 => .ok (.minz (fieldsR w))
  | 16 => .ok (.maxz (fieldsR w))
  | 17 => .ok (.adds (fieldsR w))
  | 18 => .ok (.subs (fieldsR w))
  | 19 => .ok (.clz (fieldsR w))
  | 20 => .ok (.ctz (fieldsR w))
  | 21 => .ok (.popc (fieldsR w))
  | 22 => .ok (.bswap (fieldsR w))
  | 23 => .ok (.sxb (fieldsR w))
  | 24 => .ok (.sxh (fieldsR w))
  | 25 => .ok (.sxw (fieldsR w))
  | 26 => .ok (.zxw (fieldsR w))
  | 27 => .ok (.mvt (fieldsR w))
  | 28 => .ok (.mvp (fieldsR w))
  | 29 => .ok (.rclr (fieldsR w))
  | 30 => .ok (.rful (fieldsR w))
  | _ => .error .undefinedFunction

/-- The functions of opcode 0x02 (R101). -/
def decode02 (w : W32) : Except DecodeError Instr :=
  match (bits w 11 3).toNat with
  | 0 => .ok (.addi (fieldsI w))
  | 1 => .ok (.andi (fieldsI w))
  | 2 => .ok (.andiz (fieldsI w))
  | 3 => .ok (.ori (fieldsI w))
  | 4 => .ok (.oriz (fieldsI w))
  | 5 => .ok (.xori (fieldsI w))
  | 6 => .ok (.xoriz (fieldsI w))
  | _ => .error .undefinedFunction

/-- The functions of opcode 0x03 (R101). -/
def decode03 (w : W32) : Except DecodeError Instr :=
  match (bits w 11 3).toNat with
  | 0 => .ok (.slli (fieldsI w))
  | 1 => .ok (.srli (fieldsI w))
  | 2 => .ok (.srai (fieldsI w))
  | 3 => .ok (.rori (fieldsI w))
  | 4 => .ok (.slti (fieldsI w))
  | 5 => .ok (.sltiz (fieldsI w))
  | 6 => .ok (.seqi (fieldsI w))
  | _ => .error .undefinedFunction

/-- The functions of opcode 0x06 (R103). -/
def decode06 (w : W32) : Except DecodeError Instr :=
  match (bits w 0 6).toNat with
  | 0 => .ok (.mul (fieldsR w))
  | 1 => .ok (.mulh (fieldsR w))
  | 2 => .ok (.mulhz (fieldsR w))
  | 3 => .ok (.div (fieldsR w))
  | 4 => .ok (.divz (fieldsR w))
  | 5 => .ok (.rem (fieldsR w))
  | 6 => .ok (.remz (fieldsR w))
  | _ => .error .undefinedFunction

/-- The functions of opcode 0x07 (R104). -/
def decode07 (w : W32) : Except DecodeError Instr :=
  match (bits w 12 2).toNat with
  | 0 => .ok (.csrr (fieldsC w))
  | 1 => .ok (.csrx (fieldsC w))
  | 2 => .ok (.csrs (fieldsC w))
  | 3 => .ok (.csrc (fieldsC w))
  | _ => .error .undefinedFunction

/-- The functions of opcode 0x08 (R107). -/
def decode08 (w : W32) : Except DecodeError Instr :=
  match (bits w 0 5).toNat with
  | 0 => .ok (.vadd (fieldsV w))
  | 1 => .ok (.vsub (fieldsV w))
  | 2 => .ok (.vmul (fieldsV w))
  | 3 => .ok (.vmulh (fieldsV w))
  | 4 => .ok (.vand (fieldsV w))
  | 5 => .ok (.vor (fieldsV w))
  | 6 => .ok (.vxor (fieldsV w))
  | 7 => .ok (.vsll (fieldsV w))
  | 8 => .ok (.vsrl (fieldsV w))
  | 9 => .ok (.vsra (fieldsV w))
  | 10 => .ok (.vmin (fieldsV w))
  | 11 => .ok (.vmax (fieldsV w))
  | 12 => .ok (.vclt (fieldsV w))
  | 13 => .ok (.vceq (fieldsV w))
  | _ => .error .undefinedFunction

/-- The functions of opcode 0x09 (R108). -/
def decode09 (w : W32) : Except DecodeError Instr :=
  match (bits w 0 5).toNat with
  | 0 => .ok (.vfadd (fieldsV w))
  | 1 => .ok (.vfsub (fieldsV w))
  | 2 => .ok (.vfmul (fieldsV w))
  | 3 => .ok (.vfma (fieldsV w))
  | 4 => .ok (.vfmax (fieldsV w))
  | 5 => .ok (.vfmin (fieldsV w))
  | 6 => .ok (.vfclt (fieldsV w))
  | 7 => .ok (.vfceq (fieldsV w))
  | _ => .error .undefinedFunction

/-- The functions of opcode 0x0A (R109). -/
def decode0A (w : W32) : Except DecodeError Instr :=
  match (bits w 0 5).toNat with
  | 0 => .ok (.vbcast (fieldsV w))
  | 1 => .ok (.vext (fieldsV w))
  | 2 => .ok (.vins (fieldsV w))
  | 3 => .ok (.vrot (fieldsV w))
  | 4 => .ok (.vperm (fieldsV w))
  | 5 => .ok (.vredadd (fieldsV w))
  | 6 => .ok (.vredmax (fieldsV w))
  | 7 => .ok (.kget (fieldsV w))
  | 8 => .ok (.kset (fieldsV w))
  | _ => .error .undefinedFunction

/-- The functions of opcode 0x0B (R111). -/
def decode0B (w : W32) : Except DecodeError Instr :=
  match (bits w 0 5).toNat with
  | 0 => .ok (.vcvt (fieldsV w))
  | 1 => .ok (.vexp2 (fieldsV w))
  | 2 => .ok (.vrcp (fieldsV w))
  | 3 => .ok (.vrsq (fieldsV w))
  | 4 => .ok (.vgelu (fieldsV w))
  | _ => .error .undefinedFunction

/-- The functions of opcode 0x11 (R120). -/
def decode11 (w : W32) : Except DecodeError Instr :=
  match (bits w 22 1).toNat with
  | 0 => .ok (.bp (fieldsP w))
  | 1 => .ok (.bnp (fieldsP w))
  | _ => .error .undefinedFunction

/-- The functions of opcode 0x14 (R124). -/
def decode14 (w : W32) : Except DecodeError Instr :=
  match (bits w 0 6).toNat with
  | 0 => .ok (.pnez (fieldsR w))
  | 1 => .ok (.peq (fieldsR w))
  | 2 => .ok (.plt (fieldsR w))
  | 3 => .ok (.pltz (fieldsR w))
  | 4 => .ok (.pand (fieldsR w))
  | 5 => .ok (.por (fieldsR w))
  | 6 => .ok (.pxor (fieldsR w))
  | 7 => .ok (.pnot (fieldsR w))
  | 8 => .ok (.pget (fieldsR w))
  | 16 => .ok (.yield_ (fieldsR w))
  | 17 => .ok (.exit_ (fieldsR w))
  | 18 => .ok (.brk (fieldsR w))
  | 19 => .ok (.ecall (fieldsR w))
  | 20 => .ok (.eret (fieldsR w))
  | _ => .error .undefinedFunction

/-- The functions of opcode 0x15 (R155). -/
def decode15 (w : W32) : Except DecodeError Instr :=
  match (bits w 11 3).toNat with
  | 0 => .ok (.ldlB (fieldsI w))
  | 1 => .ok (.ldlH (fieldsI w))
  | 2 => .ok (.ldlW (fieldsI w))
  | 3 => .ok (.ldlD (fieldsI w))
  | 4 => .ok (.ldlBz (fieldsI w))
  | 5 => .ok (.ldlHz (fieldsI w))
  | 6 => .ok (.ldlWz (fieldsI w))
  | 7 => .ok (.ldlV (fieldsI w))
  | _ => .error .undefinedFunction

/-- The functions of opcode 0x16 (R155). -/
def decode16 (w : W32) : Except DecodeError Instr :=
  match (bits w 11 3).toNat with
  | 0 => .ok (.stlB (fieldsS w))
  | 1 => .ok (.stlH (fieldsS w))
  | 2 => .ok (.stlW (fieldsS w))
  | 3 => .ok (.stlD (fieldsS w))
  | 4 => .ok (.stlV (fieldsS w))
  | _ => .error .undefinedFunction

/-- The functions of opcode 0x17 (R155). -/
def decode17 (w : W32) : Except DecodeError Instr :=
  match (bits w 11 3).toNat with
  | 0 => .ok (.ldcB (fieldsI w))
  | 1 => .ok (.ldcH (fieldsI w))
  | 2 => .ok (.ldcW (fieldsI w))
  | 3 => .ok (.ldcD (fieldsI w))
  | 4 => .ok (.ldcBz (fieldsI w))
  | 5 => .ok (.ldcHz (fieldsI w))
  | 6 => .ok (.ldcWz (fieldsI w))
  | 7 => .ok (.ldcV (fieldsI w))
  | _ => .error .undefinedFunction

/-- The functions of opcode 0x18 (R155). -/
def decode18 (w : W32) : Except DecodeError Instr :=
  match (bits w 11 3).toNat with
  | 0 => .ok (.stcB (fieldsS w))
  | 1 => .ok (.stcH (fieldsS w))
  | 2 => .ok (.stcW (fieldsS w))
  | 3 => .ok (.stcD (fieldsS w))
  | 4 => .ok (.stcV (fieldsS w))
  | _ => .error .undefinedFunction

/-- The functions of opcode 0x19 (R163). -/
def decode19 (w : W32) : Except DecodeError Instr :=
  match (bits w 0 6).toNat with
  | 0 => .ok (.ldlFr (fieldsR w))
  | 1 => .ok (.ldlFe (fieldsR w))
  | 2 => .ok (.stlEf (fieldsR w))
  | 3 => .ok (.stlXf (fieldsR w))
  | 4 => .ok (.felClr (fieldsR w))
  | 5 => .ok (.felQ (fieldsR w))
  | 6 => .ok (.stlTf (fieldsR w))
  | _ => .error .undefinedFunction

/-- The functions of opcode 0x1A (R165). -/
def decode1A (w : W32) : Except DecodeError Instr :=
  match (bits w 0 6).toNat with
  | 0 => .ok (.amsg (fieldsR w))
  | 1 => .ok (.amsgN (fieldsR w))
  | 2 => .ok (.amret (fieldsR w))
  | _ => .error .undefinedFunction

/-- The functions of opcode 0x1B (R170). -/
def decode1B (w : W32) : Except DecodeError Instr :=
  match (bits w 24 2).toNat with
  | 0 => .ok (.xput (fieldsX w))
  | 1 => .ok (.xget (fieldsX w))
  | 2 => .ok (.xgath (fieldsX w))
  | 3 => .ok (.xscat (fieldsX w))
  | _ => .error .undefinedFunction

/-- The functions of opcode 0x1C (R181). -/
def decode1C (w : W32) : Except DecodeError Instr :=
  match (bits w 0 6).toNat with
  | 0 => .ok (.tagWany (fieldsR w))
  | 1 => .ok (.tagWall (fieldsR w))
  | 2 => .ok (.tagFfr (fieldsR w))
  | 8 => .ok (.barInit (fieldsR w))
  | 9 => .ok (.barExp (fieldsR w))
  | 10 => .ok (.barArr (fieldsR w))
  | 11 => .ok (.barWait (fieldsR w))
  | 12 => .ok (.barQ (fieldsR w))
  | 13 => .ok (.barSync (fieldsR w))
  | _ => .error .undefinedFunction

/-- The functions of opcode 0x1D (R210). -/
def decode1D (w : W32) : Except DecodeError Instr :=
  match (bits w 11 3).toNat with
  | 0 => .ok (.ldgB (fieldsI w))
  | 1 => .ok (.ldgH (fieldsI w))
  | 2 => .ok (.ldgW (fieldsI w))
  | 3 => .ok (.ldgD (fieldsI w))
  | 4 => .ok (.ldgBz (fieldsI w))
  | 5 => .ok (.ldgHz (fieldsI w))
  | 6 => .ok (.ldgWz (fieldsI w))
  | 7 => .ok (.ldgV (fieldsI w))
  | _ => .error .undefinedFunction

/-- The functions of opcode 0x1E (R212). -/
def decode1E (w : W32) : Except DecodeError Instr :=
  match (bits w 11 3).toNat with
  | 0 => .ok (.stgB (fieldsS w))
  | 1 => .ok (.stgH (fieldsS w))
  | 2 => .ok (.stgW (fieldsS w))
  | 3 => .ok (.stgD (fieldsS w))
  | 4 => .ok (.stgV (fieldsS w))
  | _ => .error .undefinedFunction

/-- The functions of opcode 0x1F (R217). -/
def decode1F (w : W32) : Except DecodeError Instr :=
  match (bits w 0 6).toNat with
  | 0x01 => .ok (.ldgAcq (fieldsR w))
  | 0x03 => .ok (.ldgSc (fieldsR w))
  | 0x06 => .ok (.stgRel (fieldsR w))
  | 0x07 => .ok (.stgSc (fieldsR w))
  | _ => match (bits w 2 4).toNat with
    | 2 => .ok (.amoSwap (fieldsA w))
    | 3 => .ok (.amoCas (fieldsA w))
    | 4 => .ok (.amoAdd (fieldsA w))
    | 5 => .ok (.amoAnd (fieldsA w))
    | 6 => .ok (.amoOr (fieldsA w))
    | 7 => .ok (.amoXor (fieldsA w))
    | 8 => .ok (.amoMin (fieldsA w))
    | 9 => .ok (.amoMax (fieldsA w))
    | 10 => .ok (.amoMinz (fieldsA w))
    | 11 => .ok (.amoMaxz (fieldsA w))
    | _ => .error .undefinedFunction

/-- The functions of opcode 0x20 (R218). -/
def decode20 (w : W32) : Except DecodeError Instr :=
  match (bits w 0 6).toNat with
  | 0 => .ok (.fenceAcq (fieldsR w))
  | 1 => .ok (.fenceRel (fieldsR w))
  | 2 => .ok (.fenceAr (fieldsR w))
  | 3 => .ok (.fenceSc (fieldsR w))
  | 4 => .ok (.fenceRcpt (fieldsR w))
  | 5 => .ok (.rcptQ (fieldsR w))
  | 48 => .ok (.fenceTlb (fieldsR w))
  | _ => .error .undefinedFunction

/-- The functions of opcode 0x21 (R258). -/
def decode21 (w : W32) : Except DecodeError Instr :=
  match (bits w 3 5).toNat with
  | 0 => .ok (.spawn (fieldsQ w))
  | 1 => .ok (.touch (fieldsQ w))
  | 2 => .ok (.touchP (fieldsQ w))
  | 3 => .ok (.fres (fieldsQ w))
  | 4 => .ok (.fresFirst (fieldsQ w))
  | 5 => .ok (.fpois (fieldsQ w))
  | 6 => .ok (.fcan (fieldsQ w))
  | 7 => .ok (.fcanq (fieldsQ w))
  | 8 => .ok (.fq (fieldsQ w))
  | 9 => .ok (.frel (fieldsQ w))
  | 10 => .ok (.fnew (fieldsQ w))
  | 11 => .ok (.ftaskQ (fieldsQ w))
  | _ => .error .undefinedFunction

/-- The functions of opcode 0x22 (R287). -/
def decode22 (w : W32) : Except DecodeError Instr :=
  match (bits w 3 5).toNat with
  | 0 => .ok (.qpush (fieldsQ w))
  | 1 => .ok (.qpop (fieldsQ w))
  | 2 => .ok (.qtail (fieldsQ w))
  | 3 => .ok (.chsend (fieldsQ w))
  | 4 => .ok (.chrecv (fieldsQ w))
  | 5 => .ok (.chclose (fieldsQ w))
  | 6 => .ok (.chq (fieldsQ w))
  | _ => .error .undefinedFunction

/-- The functions of opcode 0x23 (R330). -/
def decode23 (w : W32) : Except DecodeError Instr :=
  match (bits w 22 4).toNat with
  | 0 => .ok (.mma (fieldsM w))
  | 1 => .ok (.mmac (fieldsM w))
  | 2 => .ok (.mdrain (fieldsM w))
  | _ => .error .undefinedFunction

/-- The functions of opcode 0x24 (R328). -/
def decode24 (w : W32) : Except DecodeError Instr :=
  match (bits w 22 4).toNat with
  | 0 => .ok (.tld (fieldsM w))
  | 1 => .ok (.tst (fieldsM w))
  | 2 => .ok (.tzero (fieldsM w))
  | 3 => .ok (.azero (fieldsM w))
  | 4 => .ok (.ebind (fieldsM w))
  | 5 => .ok (.efree (fieldsM w))
  | 6 => .ok (.tlwait (fieldsM w))
  | 7 => .ok (.tlread (fieldsM w))
  | _ => .error .undefinedFunction

/-- The functions of opcode 0x25 (R348). -/
def decode25 (w : W32) : Except DecodeError Instr :=
  match (bits w 0 6).toNat with
  | 0 => .ok (.dpmLoad (fieldsR w))
  | 1 => .ok (.dpmFree (fieldsR w))
  | _ => .error .undefinedFunction

/-- The functions of opcode 0x26 (R379). -/
def decode26 (w : W32) : Except DecodeError Instr :=
  match (bits w 0 6).toNat with
  | 0 => .ok (.mrowZero (fieldsR w))
  | 1 => .ok (.mrowCopy (fieldsR w))
  | 2 => .ok (.mrowWait (fieldsR w))
  | 3 => .ok (.mrowTl (fieldsR w))
  | 4 => .ok (.mrowIss (fieldsR w))
  | _ => .error .undefinedFunction

/-- The functions of opcode 0x27 (R399). -/
def decode27 (w : W32) : Except DecodeError Instr :=
  match (bits w 0 6).toNat with
  | 0 => .ok (.aqPost (fieldsR w))
  | 1 => .ok (.aqMerge (fieldsR w))
  | 2 => .ok (.aqNorm (fieldsR w))
  | 3 => .ok (.aqNormB (fieldsR w))
  | 4 => .ok (.aqWait (fieldsR w))
  | 5 => .ok (.aqTl (fieldsR w))
  | 6 => .ok (.aqIss (fieldsR w))
  | _ => .error .undefinedFunction

/-- The functions of opcode 0x28 (R437). -/
noncomputable def decode28 (w : W32) : Except DecodeError Instr :=
  match (bits w 0 6).toNat with
  | 0 => .ok (.encPost (fieldsR w))
  | 1 => .ok (.encWait (fieldsR w))
  | 2 => .ok (.encTl (fieldsR w))
  | 3 => .ok (.fabPut (fieldsR w))
  | _ => .error .undefinedFunction

/-- The functions of opcode 0x29 (R445). -/
noncomputable def decode29 (w : W32) : Except DecodeError Instr :=
  match (bits w 0 6).toNat with
  | 0 => .ok (.ownGrant (fieldsR w))
  | 1 => .ok (.ownRevoke (fieldsR w))
  | 2 => .ok (.pinv (fieldsR w))
  | 3 => .ok (.pzero (fieldsR w))
  | _ => .error .undefinedFunction

/-- The instructions of the major opcodes 0x01-0x27 (R48, R49). -/
def decodeMost (w : W32) : Except DecodeError Instr :=
  match (bits w 26 6).toNat with
  | 0x00 => .error .reservedOpcode
  | 0x3F => .error .reservedOpcode
  | 0x01 => decode01 w
  | 0x02 => decode02 w
  | 0x03 => decode03 w
  | 0x04 => .ok (.shlim (fieldsU w))
  | 0x05 => .ok (.addpc (fieldsU w))
  | 0x06 => decode06 w
  | 0x07 => decode07 w
  | 0x08 => decode08 w
  | 0x09 => decode09 w
  | 0x0A => decode0A w
  | 0x0B => decode0B w
  | 0x0C => .ok (.beq (fieldsB w))
  | 0x0D => .ok (.bne (fieldsB w))
  | 0x0E => .ok (.blt (fieldsB w))
  | 0x0F => .ok (.bge (fieldsB w))
  | 0x10 => .ok (.bltz (fieldsB w))
  | 0x11 => decode11 w
  | 0x12 => .ok (.jal (fieldsJ w))
  | 0x13 => .ok (.jr (fieldsJr w))
  | 0x14 => decode14 w
  | 0x15 => decode15 w
  | 0x16 => decode16 w
  | 0x17 => decode17 w
  | 0x18 => decode18 w
  | 0x19 => decode19 w
  | 0x1A => decode1A w
  | 0x1B => decode1B w
  | 0x1C => decode1C w
  | 0x1D => decode1D w
  | 0x1E => decode1E w
  | 0x1F => decode1F w
  | 0x20 => decode20 w
  | 0x21 => decode21 w
  | 0x22 => decode22 w
  | 0x23 => decode23 w
  | 0x24 => decode24 w
  | 0x25 => decode25 w
  | 0x26 => decode26 w
  | 0x27 => decode27 w
  | _ => .error .unassignedOpcode

/-- The instruction a word names (R48, R49) (log 128). -/
noncomputable def decode (w : W32) : Except DecodeError Instr :=
  match (bits w 26 6).toNat with
  | 0x28 => decode28 w
  | 0x29 => decode29 w
  | 0x2A => .ok (.fmt (fieldsF w))
  | _ => decodeMost w

/-- The instruction at the front of a list of bytes, with the rest of the list (R43: little-endian words). -/
noncomputable def decodeBytes : List Byte → Except DecodeError (Instr × List Byte)
  | b0 :: b1 :: b2 :: b3 :: rest =>
    match decode (b3 ++ b2 ++ b1 ++ b0) with
    | .ok i => .ok (i, rest)
    | .error e => .error e
  | _ => .error .truncated

/-- The word of an instruction (R43, R48). An event is no word: it gives the word 0, which names no instruction (R49). -/
def Instr.encode (i : Instr) : W32 :=
  match i with
  | .add o => packR 0x01#6 o 0#6
  | .sub o => packR 0x01#6 o 1#6
  | .and_ o => packR 0x01#6 o 2#6
  | .or_ o => packR 0x01#6 o 3#6
  | .xor_ o => packR 0x01#6 o 4#6
  | .andn o => packR 0x01#6 o 5#6
  | .sll o => packR 0x01#6 o 6#6
  | .srl o => packR 0x01#6 o 7#6
  | .sra o => packR 0x01#6 o 8#6
  | .ror o => packR 0x01#6 o 9#6
  | .slt o => packR 0x01#6 o 10#6
  | .sltz o => packR 0x01#6 o 11#6
  | .seq o => packR 0x01#6 o 12#6
  | .min_ o => packR 0x01#6 o 13#6
  | .max_ o => packR 0x01#6 o 14#6
  | .minz o => packR 0x01#6 o 15#6
  | .maxz o => packR 0x01#6 o 16#6
  | .adds o => packR 0x01#6 o 17#6
  | .subs o => packR 0x01#6 o 18#6
  | .clz o => packR 0x01#6 o 19#6
  | .ctz o => packR 0x01#6 o 20#6
  | .popc o => packR 0x01#6 o 21#6
  | .bswap o => packR 0x01#6 o 22#6
  | .sxb o => packR 0x01#6 o 23#6
  | .sxh o => packR 0x01#6 o 24#6
  | .sxw o => packR 0x01#6 o 25#6
  | .zxw o => packR 0x01#6 o 26#6
  | .mvt o => packR 0x01#6 o 27#6
  | .mvp o => packR 0x01#6 o 28#6
  | .rclr o => packR 0x01#6 o 29#6
  | .rful o => packR 0x01#6 o 30#6
  | .addi o => packI 0x02#6 o 0#3
  | .andi o => packI 0x02#6 o 1#3
  | .andiz o => packI 0x02#6 o 2#3
  | .ori o => packI 0x02#6 o 3#3
  | .oriz o => packI 0x02#6 o 4#3
  | .xori o => packI 0x02#6 o 5#3
  | .xoriz o => packI 0x02#6 o 6#3
  | .slli o => packI 0x03#6 o 0#3
  | .srli o => packI 0x03#6 o 1#3
  | .srai o => packI 0x03#6 o 2#3
  | .rori o => packI 0x03#6 o 3#3
  | .slti o => packI 0x03#6 o 4#3
  | .sltiz o => packI 0x03#6 o 5#3
  | .seqi o => packI 0x03#6 o 6#3
  | .shlim o => packU 0x04#6 o
  | .addpc o => packU 0x05#6 o
  | .mul o => packR 0x06#6 o 0#6
  | .mulh o => packR 0x06#6 o 1#6
  | .mulhz o => packR 0x06#6 o 2#6
  | .div o => packR 0x06#6 o 3#6
  | .divz o => packR 0x06#6 o 4#6
  | .rem o => packR 0x06#6 o 5#6
  | .remz o => packR 0x06#6 o 6#6
  | .csrr o => packC 0x07#6 o 0#2
  | .csrx o => packC 0x07#6 o 1#2
  | .csrs o => packC 0x07#6 o 2#2
  | .csrc o => packC 0x07#6 o 3#2
  | .vadd o => packV 0x08#6 o 0#5
  | .vsub o => packV 0x08#6 o 1#5
  | .vmul o => packV 0x08#6 o 2#5
  | .vmulh o => packV 0x08#6 o 3#5
  | .vand o => packV 0x08#6 o 4#5
  | .vor o => packV 0x08#6 o 5#5
  | .vxor o => packV 0x08#6 o 6#5
  | .vsll o => packV 0x08#6 o 7#5
  | .vsrl o => packV 0x08#6 o 8#5
  | .vsra o => packV 0x08#6 o 9#5
  | .vmin o => packV 0x08#6 o 10#5
  | .vmax o => packV 0x08#6 o 11#5
  | .vclt o => packV 0x08#6 o 12#5
  | .vceq o => packV 0x08#6 o 13#5
  | .vfadd o => packV 0x09#6 o 0#5
  | .vfsub o => packV 0x09#6 o 1#5
  | .vfmul o => packV 0x09#6 o 2#5
  | .vfma o => packV 0x09#6 o 3#5
  | .vfmax o => packV 0x09#6 o 4#5
  | .vfmin o => packV 0x09#6 o 5#5
  | .vfclt o => packV 0x09#6 o 6#5
  | .vfceq o => packV 0x09#6 o 7#5
  | .vbcast o => packV 0x0A#6 o 0#5
  | .vext o => packV 0x0A#6 o 1#5
  | .vins o => packV 0x0A#6 o 2#5
  | .vrot o => packV 0x0A#6 o 3#5
  | .vperm o => packV 0x0A#6 o 4#5
  | .vredadd o => packV 0x0A#6 o 5#5
  | .vredmax o => packV 0x0A#6 o 6#5
  | .kget o => packV 0x0A#6 o 7#5
  | .kset o => packV 0x0A#6 o 8#5
  | .vcvt o => packV 0x0B#6 o 0#5
  | .vexp2 o => packV 0x0B#6 o 1#5
  | .vrcp o => packV 0x0B#6 o 2#5
  | .vrsq o => packV 0x0B#6 o 3#5
  | .vgelu o => packV 0x0B#6 o 4#5
  | .beq o => packB 0x0C#6 o
  | .bne o => packB 0x0D#6 o
  | .blt o => packB 0x0E#6 o
  | .bge o => packB 0x0F#6 o
  | .bltz o => packB 0x10#6 o
  | .bp o => packP 0x11#6 o 0#1
  | .bnp o => packP 0x11#6 o 1#1
  | .jal o => packJ 0x12#6 o
  | .jr o => packJr 0x13#6 o
  | .pnez o => packR 0x14#6 o 0#6
  | .peq o => packR 0x14#6 o 1#6
  | .plt o => packR 0x14#6 o 2#6
  | .pltz o => packR 0x14#6 o 3#6
  | .pand o => packR 0x14#6 o 4#6
  | .por o => packR 0x14#6 o 5#6
  | .pxor o => packR 0x14#6 o 6#6
  | .pnot o => packR 0x14#6 o 7#6
  | .pget o => packR 0x14#6 o 8#6
  | .yield_ o => packR 0x14#6 o 16#6
  | .exit_ o => packR 0x14#6 o 17#6
  | .brk o => packR 0x14#6 o 18#6
  | .ecall o => packR 0x14#6 o 19#6
  | .eret o => packR 0x14#6 o 20#6
  | .ldlB o => packI 0x15#6 o 0#3
  | .ldlH o => packI 0x15#6 o 1#3
  | .ldlW o => packI 0x15#6 o 2#3
  | .ldlD o => packI 0x15#6 o 3#3
  | .ldlBz o => packI 0x15#6 o 4#3
  | .ldlHz o => packI 0x15#6 o 5#3
  | .ldlWz o => packI 0x15#6 o 6#3
  | .ldlV o => packI 0x15#6 o 7#3
  | .stlB o => packS 0x16#6 o 0#3
  | .stlH o => packS 0x16#6 o 1#3
  | .stlW o => packS 0x16#6 o 2#3
  | .stlD o => packS 0x16#6 o 3#3
  | .stlV o => packS 0x16#6 o 4#3
  | .ldcB o => packI 0x17#6 o 0#3
  | .ldcH o => packI 0x17#6 o 1#3
  | .ldcW o => packI 0x17#6 o 2#3
  | .ldcD o => packI 0x17#6 o 3#3
  | .ldcBz o => packI 0x17#6 o 4#3
  | .ldcHz o => packI 0x17#6 o 5#3
  | .ldcWz o => packI 0x17#6 o 6#3
  | .ldcV o => packI 0x17#6 o 7#3
  | .stcB o => packS 0x18#6 o 0#3
  | .stcH o => packS 0x18#6 o 1#3
  | .stcW o => packS 0x18#6 o 2#3
  | .stcD o => packS 0x18#6 o 3#3
  | .stcV o => packS 0x18#6 o 4#3
  | .ldlFr o => packR 0x19#6 o 0#6
  | .ldlFe o => packR 0x19#6 o 1#6
  | .stlEf o => packR 0x19#6 o 2#6
  | .stlXf o => packR 0x19#6 o 3#6
  | .felClr o => packR 0x19#6 o 4#6
  | .felQ o => packR 0x19#6 o 5#6
  | .stlTf o => packR 0x19#6 o 6#6
  | .amsg o => packR 0x1A#6 o 0#6
  | .amsgN o => packR 0x1A#6 o 1#6
  | .amret o => packR 0x1A#6 o 2#6
  | .xput o => packX 0x1B#6 o 0#2
  | .xget o => packX 0x1B#6 o 1#2
  | .xgath o => packX 0x1B#6 o 2#2
  | .xscat o => packX 0x1B#6 o 3#2
  | .tagWany o => packR 0x1C#6 o 0#6
  | .tagWall o => packR 0x1C#6 o 1#6
  | .tagFfr o => packR 0x1C#6 o 2#6
  | .barInit o => packR 0x1C#6 o 8#6
  | .barExp o => packR 0x1C#6 o 9#6
  | .barArr o => packR 0x1C#6 o 10#6
  | .barWait o => packR 0x1C#6 o 11#6
  | .barQ o => packR 0x1C#6 o 12#6
  | .barSync o => packR 0x1C#6 o 13#6
  | .ldgB o => packI 0x1D#6 o 0#3
  | .ldgH o => packI 0x1D#6 o 1#3
  | .ldgW o => packI 0x1D#6 o 2#3
  | .ldgD o => packI 0x1D#6 o 3#3
  | .ldgBz o => packI 0x1D#6 o 4#3
  | .ldgHz o => packI 0x1D#6 o 5#3
  | .ldgWz o => packI 0x1D#6 o 6#3
  | .ldgV o => packI 0x1D#6 o 7#3
  | .stgB o => packS 0x1E#6 o 0#3
  | .stgH o => packS 0x1E#6 o 1#3
  | .stgW o => packS 0x1E#6 o 2#3
  | .stgD o => packS 0x1E#6 o 3#3
  | .stgV o => packS 0x1E#6 o 4#3
  | .ldgAcq o => packR 0x1F#6 o 1#6
  | .ldgSc o => packR 0x1F#6 o 3#6
  | .stgRel o => packR 0x1F#6 o 6#6
  | .stgSc o => packR 0x1F#6 o 7#6
  | .amoSwap o => packA 0x1F#6 o 2#4
  | .amoCas o => packA 0x1F#6 o 3#4
  | .amoAdd o => packA 0x1F#6 o 4#4
  | .amoAnd o => packA 0x1F#6 o 5#4
  | .amoOr o => packA 0x1F#6 o 6#4
  | .amoXor o => packA 0x1F#6 o 7#4
  | .amoMin o => packA 0x1F#6 o 8#4
  | .amoMax o => packA 0x1F#6 o 9#4
  | .amoMinz o => packA 0x1F#6 o 10#4
  | .amoMaxz o => packA 0x1F#6 o 11#4
  | .fenceAcq o => packR 0x20#6 o 0#6
  | .fenceRel o => packR 0x20#6 o 1#6
  | .fenceAr o => packR 0x20#6 o 2#6
  | .fenceSc o => packR 0x20#6 o 3#6
  | .fenceRcpt o => packR 0x20#6 o 4#6
  | .rcptQ o => packR 0x20#6 o 5#6
  | .fenceTlb o => packR 0x20#6 o 48#6
  | .spawn o => packQ 0x21#6 o 0#5
  | .touch o => packQ 0x21#6 o 1#5
  | .touchP o => packQ 0x21#6 o 2#5
  | .fres o => packQ 0x21#6 o 3#5
  | .fresFirst o => packQ 0x21#6 o 4#5
  | .fpois o => packQ 0x21#6 o 5#5
  | .fcan o => packQ 0x21#6 o 6#5
  | .fcanq o => packQ 0x21#6 o 7#5
  | .fq o => packQ 0x21#6 o 8#5
  | .frel o => packQ 0x21#6 o 9#5
  | .fnew o => packQ 0x21#6 o 10#5
  | .ftaskQ o => packQ 0x21#6 o 11#5
  | .qpush o => packQ 0x22#6 o 0#5
  | .qpop o => packQ 0x22#6 o 1#5
  | .qtail o => packQ 0x22#6 o 2#5
  | .chsend o => packQ 0x22#6 o 3#5
  | .chrecv o => packQ 0x22#6 o 4#5
  | .chclose o => packQ 0x22#6 o 5#5
  | .chq o => packQ 0x22#6 o 6#5
  | .mma o => packM 0x23#6 o 0#4
  | .mmac o => packM 0x23#6 o 1#4
  | .mdrain o => packM 0x23#6 o 2#4
  | .tld o => packM 0x24#6 o 0#4
  | .tst o => packM 0x24#6 o 1#4
  | .tzero o => packM 0x24#6 o 2#4
  | .azero o => packM 0x24#6 o 3#4
  | .ebind o => packM 0x24#6 o 4#4
  | .efree o => packM 0x24#6 o 5#4
  | .tlwait o => packM 0x24#6 o 6#4
  | .tlread o => packM 0x24#6 o 7#4
  | .dpmLoad o => packR 0x25#6 o 0#6
  | .dpmFree o => packR 0x25#6 o 1#6
  | .mrowZero o => packR 0x26#6 o 0#6
  | .mrowCopy o => packR 0x26#6 o 1#6
  | .mrowWait o => packR 0x26#6 o 2#6
  | .mrowTl o => packR 0x26#6 o 3#6
  | .mrowIss o => packR 0x26#6 o 4#6
  | .aqPost o => packR 0x27#6 o 0#6
  | .aqMerge o => packR 0x27#6 o 1#6
  | .aqNorm o => packR 0x27#6 o 2#6
  | .aqNormB o => packR 0x27#6 o 3#6
  | .aqWait o => packR 0x27#6 o 4#6
  | .aqTl o => packR 0x27#6 o 5#6
  | .aqIss o => packR 0x27#6 o 6#6
  | .encPost o => packR 0x28#6 o 0#6
  | .encWait o => packR 0x28#6 o 1#6
  | .encTl o => packR 0x28#6 o 2#6
  | .fabPut o => packR 0x28#6 o 3#6
  | .ownGrant o => packR 0x29#6 o 0#6
  | .ownRevoke o => packR 0x29#6 o 1#6
  | .pinv o => packR 0x29#6 o 2#6
  | .pzero o => packR 0x29#6 o 3#6
  | .fmt o => packF 0x2A#6 o
  | .attestSignatureDone => 0#32
  | .amsgArrive _ _ => 0#32
  | .amsgHandlerStart _ => 0#32
  | .handlerIssueLimit _ => 0#32
  | .transferPiecePerformed _ _ _ => 0#32
  | .transferComplete _ _ => 0#32
  | .arrayScrub _ _ _ => 0#32
  | .storePerformed _ => 0#32
  | .memoryReply _ => 0#32
  | .l1CopyExpire _ _ => 0#32
  | .clearing _ => 0#32
  | .regionRetire _ _ => 0#32
  | .tlbWalkDone _ _ _ => 0#32
  | .faultComplete _ _ _ => 0#32
  | .noteOpArrive _ => 0#32
  | .subscriptionFetchDone _ _ _ => 0#32
  | .recordDispatch _ _ _ _ => 0#32
  | .tailWrite _ => 0#32
  | .queueSlotPoll _ _ => 0#32
  | .spawnQueueConsume _ _ => 0#32
  | .queueMap _ _ _ _ => 0#32
  | .queueUnmap _ _ => 0#32
  | .holdExpire _ => 0#32
  | .pipelinePlace _ => 0#32
  | .stageRelease _ _ => 0#32
  | .loaderTileStart _ _ => 0#32
  | .loaderTileDone _ _ => 0#32
  | .storerRecord _ _ => 0#32
  | .storerRecordDone _ _ => 0#32
  | .tellerLendPhase _ _ _ => 0#32
  | .taskEvict _ _ => 0#32
  | .contextSaveDone _ => 0#32
  | .taskRestore _ _ _ => 0#32
  | .taskRestoreDone _ => 0#32
  | .budgetOverrun _ => 0#32
  | .waitLimitExpiry _ => 0#32
  | .allAsleep _ => 0#32
  | .affinityMigration _ _ => 0#32
  | .priorityAge _ => 0#32
  | .preemptionRequest _ => 0#32
  | .contractRelease _ _ => 0#32
  | .contractDeadline _ _ => 0#32
  | .contractBudgetExhausted _ => 0#32
  | .powerControlStep _ => 0#32
  | .arrayPartDone _ _ => 0#32
  | .drainStart _ _ _ => 0#32
  | .drainRowDone _ _ _ => 0#32
  | .drainComplete _ _ _ => 0#32
  | .rowChunkDone _ _ _ => 0#32
  | .bankRefresh _ _ => 0#32
  | .selfRefreshEntry _ _ => 0#32
  | .selfRefreshExit _ _ => 0#32
  | .stackStall _ => 0#32
  | .patrolScrub _ => 0#32
  | .ceThresh _ _ _ => 0#32
  | .pageMigrate _ _ _ => 0#32
  | .dieMapOut _ _ => 0#32
  | .queryHandover _ => 0#32
  | .scanStep _ _ => 0#32
  | .queryComplete _ => 0#32
  | .frameComplete _ _ => 0#32
  | .bar2Read _ _ _ => 0#32
  | .bar2Write _ _ _ _ => 0#32
  | .bar2Fetchadd _ _ _ => 0#32
  | .doorbellWrite _ _ _ _ => 0#32
  | .rcfgWrite _ _ => 0#32
  | .eventRingReadWrite _ _ => 0#32
  | .hostRegisterWrite _ _ _ => 0#32
  | .info _ => 0#32
  | .attest _ _ => 0#32
  | .zero _ => 0#32
  | .imageStage _ _ _ => 0#32
  | .imageActivate _ _ => 0#32
  | .quiesceAck _ _ => 0#32
  | .quiesceTimeout => 0#32
  | .launch _ _ _ => 0#32
  | .end_ _ _ => 0#32
  | .contract _ _ _ => 0#32
  | .aperture _ _ _ _ => 0#32
  | .doorbell _ _ _ _ _ => 0#32
  | .stream _ _ _ _ => 0#32
  | .fabric _ _ _ => 0#32
  | .peer _ _ _ => 0#32
  | .pipeline _ _ _ => 0#32
  | .fabricGrant _ _ _ _ _ => 0#32
  | .streamClose _ _ _ => 0#32
  | .contractWithdraw _ _ _ => 0#32
  | .linkDown => 0#32
  | .flitRetry => 0#32
  | .resolve _ _ _ _ _ _ _ => 0#32
  | .resolveReply _ _ _ _ _ => 0#32
  | .fabricTouch _ _ _ => 0#32
  | .touchReply _ _ _ _ _ _ => 0#32
  | .tail _ _ _ => 0#32
  | .put _ _ _ _ _ _ _ => 0#32
  | .putAck _ _ _ _ _ => 0#32
  | .ack _ _ => 0#32
  | .fabricRetransmit _ _ => 0#32
  | .portFail _ => 0#32
  | .packageReset => 0#32
  | .stackTrained _ _ _ => 0#32
  | .clusterRelease _ _ => 0#32
  | .illegal _ => 0#32
  | .fetchFault _ _ => 0#32
  | .postedWriteBufferDrain _ => 0#32

/-- The major opcode of an instruction's word (R43). -/
def Instr.major (i : Instr) : Nat := (bits i.encode 26 6).toNat

/-- Whether a constructor stands for an instruction word; the others are asynchronous steps and outside acts. -/
def Instr.isWord (i : Instr) : Bool :=
  match i with
  | .add _ => true
  | .sub _ => true
  | .and_ _ => true
  | .or_ _ => true
  | .xor_ _ => true
  | .andn _ => true
  | .sll _ => true
  | .srl _ => true
  | .sra _ => true
  | .ror _ => true
  | .slt _ => true
  | .sltz _ => true
  | .seq _ => true
  | .min_ _ => true
  | .max_ _ => true
  | .minz _ => true
  | .maxz _ => true
  | .adds _ => true
  | .subs _ => true
  | .clz _ => true
  | .ctz _ => true
  | .popc _ => true
  | .bswap _ => true
  | .sxb _ => true
  | .sxh _ => true
  | .sxw _ => true
  | .zxw _ => true
  | .mvt _ => true
  | .mvp _ => true
  | .rclr _ => true
  | .rful _ => true
  | .addi _ => true
  | .andi _ => true
  | .andiz _ => true
  | .ori _ => true
  | .oriz _ => true
  | .xori _ => true
  | .xoriz _ => true
  | .slli _ => true
  | .srli _ => true
  | .srai _ => true
  | .rori _ => true
  | .slti _ => true
  | .sltiz _ => true
  | .seqi _ => true
  | .shlim _ => true
  | .addpc _ => true
  | .mul _ => true
  | .mulh _ => true
  | .mulhz _ => true
  | .div _ => true
  | .divz _ => true
  | .rem _ => true
  | .remz _ => true
  | .csrr _ => true
  | .csrx _ => true
  | .csrs _ => true
  | .csrc _ => true
  | .vadd _ => true
  | .vsub _ => true
  | .vmul _ => true
  | .vmulh _ => true
  | .vand _ => true
  | .vor _ => true
  | .vxor _ => true
  | .vsll _ => true
  | .vsrl _ => true
  | .vsra _ => true
  | .vmin _ => true
  | .vmax _ => true
  | .vclt _ => true
  | .vceq _ => true
  | .vfadd _ => true
  | .vfsub _ => true
  | .vfmul _ => true
  | .vfma _ => true
  | .vfmax _ => true
  | .vfmin _ => true
  | .vfclt _ => true
  | .vfceq _ => true
  | .vbcast _ => true
  | .vext _ => true
  | .vins _ => true
  | .vrot _ => true
  | .vperm _ => true
  | .vredadd _ => true
  | .vredmax _ => true
  | .kget _ => true
  | .kset _ => true
  | .vcvt _ => true
  | .vexp2 _ => true
  | .vrcp _ => true
  | .vrsq _ => true
  | .vgelu _ => true
  | .beq _ => true
  | .bne _ => true
  | .blt _ => true
  | .bge _ => true
  | .bltz _ => true
  | .bp _ => true
  | .bnp _ => true
  | .jal _ => true
  | .jr _ => true
  | .pnez _ => true
  | .peq _ => true
  | .plt _ => true
  | .pltz _ => true
  | .pand _ => true
  | .por _ => true
  | .pxor _ => true
  | .pnot _ => true
  | .pget _ => true
  | .yield_ _ => true
  | .exit_ _ => true
  | .brk _ => true
  | .ecall _ => true
  | .eret _ => true
  | .ldlB _ => true
  | .ldlH _ => true
  | .ldlW _ => true
  | .ldlD _ => true
  | .ldlBz _ => true
  | .ldlHz _ => true
  | .ldlWz _ => true
  | .ldlV _ => true
  | .stlB _ => true
  | .stlH _ => true
  | .stlW _ => true
  | .stlD _ => true
  | .stlV _ => true
  | .ldcB _ => true
  | .ldcH _ => true
  | .ldcW _ => true
  | .ldcD _ => true
  | .ldcBz _ => true
  | .ldcHz _ => true
  | .ldcWz _ => true
  | .ldcV _ => true
  | .stcB _ => true
  | .stcH _ => true
  | .stcW _ => true
  | .stcD _ => true
  | .stcV _ => true
  | .ldlFr _ => true
  | .ldlFe _ => true
  | .stlEf _ => true
  | .stlXf _ => true
  | .felClr _ => true
  | .felQ _ => true
  | .stlTf _ => true
  | .amsg _ => true
  | .amsgN _ => true
  | .amret _ => true
  | .xput _ => true
  | .xget _ => true
  | .xgath _ => true
  | .xscat _ => true
  | .tagWany _ => true
  | .tagWall _ => true
  | .tagFfr _ => true
  | .barInit _ => true
  | .barExp _ => true
  | .barArr _ => true
  | .barWait _ => true
  | .barQ _ => true
  | .barSync _ => true
  | .ldgB _ => true
  | .ldgH _ => true
  | .ldgW _ => true
  | .ldgD _ => true
  | .ldgBz _ => true
  | .ldgHz _ => true
  | .ldgWz _ => true
  | .ldgV _ => true
  | .stgB _ => true
  | .stgH _ => true
  | .stgW _ => true
  | .stgD _ => true
  | .stgV _ => true
  | .ldgAcq _ => true
  | .ldgSc _ => true
  | .stgRel _ => true
  | .stgSc _ => true
  | .amoSwap _ => true
  | .amoCas _ => true
  | .amoAdd _ => true
  | .amoAnd _ => true
  | .amoOr _ => true
  | .amoXor _ => true
  | .amoMin _ => true
  | .amoMax _ => true
  | .amoMinz _ => true
  | .amoMaxz _ => true
  | .fenceAcq _ => true
  | .fenceRel _ => true
  | .fenceAr _ => true
  | .fenceSc _ => true
  | .fenceRcpt _ => true
  | .rcptQ _ => true
  | .fenceTlb _ => true
  | .spawn _ => true
  | .touch _ => true
  | .touchP _ => true
  | .fres _ => true
  | .fresFirst _ => true
  | .fpois _ => true
  | .fcan _ => true
  | .fcanq _ => true
  | .fq _ => true
  | .frel _ => true
  | .fnew _ => true
  | .ftaskQ _ => true
  | .qpush _ => true
  | .qpop _ => true
  | .qtail _ => true
  | .chsend _ => true
  | .chrecv _ => true
  | .chclose _ => true
  | .chq _ => true
  | .mma _ => true
  | .mmac _ => true
  | .mdrain _ => true
  | .tld _ => true
  | .tst _ => true
  | .tzero _ => true
  | .azero _ => true
  | .ebind _ => true
  | .efree _ => true
  | .tlwait _ => true
  | .tlread _ => true
  | .dpmLoad _ => true
  | .dpmFree _ => true
  | .mrowZero _ => true
  | .mrowCopy _ => true
  | .mrowWait _ => true
  | .mrowTl _ => true
  | .mrowIss _ => true
  | .aqPost _ => true
  | .aqMerge _ => true
  | .aqNorm _ => true
  | .aqNormB _ => true
  | .aqWait _ => true
  | .aqTl _ => true
  | .aqIss _ => true
  | .encPost _ => true
  | .encWait _ => true
  | .encTl _ => true
  | .fabPut _ => true
  | .ownGrant _ => true
  | .ownRevoke _ => true
  | .pinv _ => true
  | .pzero _ => true
  | .fmt _ => true
  | .attestSignatureDone => false
  | .amsgArrive _ _ => false
  | .amsgHandlerStart _ => false
  | .handlerIssueLimit _ => false
  | .transferPiecePerformed _ _ _ => false
  | .transferComplete _ _ => false
  | .arrayScrub _ _ _ => false
  | .storePerformed _ => false
  | .memoryReply _ => false
  | .l1CopyExpire _ _ => false
  | .clearing _ => false
  | .regionRetire _ _ => false
  | .tlbWalkDone _ _ _ => false
  | .faultComplete _ _ _ => false
  | .noteOpArrive _ => false
  | .subscriptionFetchDone _ _ _ => false
  | .recordDispatch _ _ _ _ => false
  | .tailWrite _ => false
  | .queueSlotPoll _ _ => false
  | .spawnQueueConsume _ _ => false
  | .queueMap _ _ _ _ => false
  | .queueUnmap _ _ => false
  | .holdExpire _ => false
  | .pipelinePlace _ => false
  | .stageRelease _ _ => false
  | .loaderTileStart _ _ => false
  | .loaderTileDone _ _ => false
  | .storerRecord _ _ => false
  | .storerRecordDone _ _ => false
  | .tellerLendPhase _ _ _ => false
  | .taskEvict _ _ => false
  | .contextSaveDone _ => false
  | .taskRestore _ _ _ => false
  | .taskRestoreDone _ => false
  | .budgetOverrun _ => false
  | .waitLimitExpiry _ => false
  | .allAsleep _ => false
  | .affinityMigration _ _ => false
  | .priorityAge _ => false
  | .preemptionRequest _ => false
  | .contractRelease _ _ => false
  | .contractDeadline _ _ => false
  | .contractBudgetExhausted _ => false
  | .powerControlStep _ => false
  | .arrayPartDone _ _ => false
  | .drainStart _ _ _ => false
  | .drainRowDone _ _ _ => false
  | .drainComplete _ _ _ => false
  | .rowChunkDone _ _ _ => false
  | .bankRefresh _ _ => false
  | .selfRefreshEntry _ _ => false
  | .selfRefreshExit _ _ => false
  | .stackStall _ => false
  | .patrolScrub _ => false
  | .ceThresh _ _ _ => false
  | .pageMigrate _ _ _ => false
  | .dieMapOut _ _ => false
  | .queryHandover _ => false
  | .scanStep _ _ => false
  | .queryComplete _ => false
  | .frameComplete _ _ => false
  | .bar2Read _ _ _ => false
  | .bar2Write _ _ _ _ => false
  | .bar2Fetchadd _ _ _ => false
  | .doorbellWrite _ _ _ _ => false
  | .rcfgWrite _ _ => false
  | .eventRingReadWrite _ _ => false
  | .hostRegisterWrite _ _ _ => false
  | .info _ => false
  | .attest _ _ => false
  | .zero _ => false
  | .imageStage _ _ _ => false
  | .imageActivate _ _ => false
  | .quiesceAck _ _ => false
  | .quiesceTimeout => false
  | .launch _ _ _ => false
  | .end_ _ _ => false
  | .contract _ _ _ => false
  | .aperture _ _ _ _ => false
  | .doorbell _ _ _ _ _ => false
  | .stream _ _ _ _ => false
  | .fabric _ _ _ => false
  | .peer _ _ _ => false
  | .pipeline _ _ _ => false
  | .fabricGrant _ _ _ _ _ => false
  | .streamClose _ _ _ => false
  | .contractWithdraw _ _ _ => false
  | .linkDown => false
  | .flitRetry => false
  | .resolve _ _ _ _ _ _ _ => false
  | .resolveReply _ _ _ _ _ => false
  | .fabricTouch _ _ _ => false
  | .touchReply _ _ _ _ _ _ => false
  | .tail _ _ _ => false
  | .put _ _ _ _ _ _ _ => false
  | .putAck _ _ _ _ _ => false
  | .ack _ _ => false
  | .fabricRetransmit _ _ => false
  | .portFail _ => false
  | .packageReset => false
  | .stackTrained _ _ _ => false
  | .clusterRelease _ _ => false
  | .illegal _ => false
  | .fetchFault _ _ => false
  | .postedWriteBufferDrain _ => false

/-- The four bytes of a word, at rising addresses (R43: little-endian). -/
def wordBytes (w : W32) : List Byte := [w.extractLsb' 0 8, w.extractLsb' 8 8, w.extractLsb' 16 8, w.extractLsb' 24 8]

/-- The instruction the decoder reads from a word given as a number (bit 0 the least significant bit of the word). -/
noncomputable def decodeTableWord (nbits w : Nat) : Option Instr :=
  match decodeBytes (wordBytes (BitVec.ofNat 32 (w % 2 ^ (min nbits 32)))) with
  | .ok (i, _) => some i
  | .error _ => none

end Sys2Proof
end

