-- ==== Sys2Proof/Machine/Numbers.lean ====
section
/-! DEFINITION. The element formats and their arithmetic (R16-R32): exact values, decoding, rounding, delivery, IEEE
addition, multiplication and comparison with the modifications of R22 and R23. Bit patterns are natural numbers. -/

namespace Sys2Proof.Machine

/-- An exact value: a signed dyadic number m·2^e (the sign of a zero is kept), an infinity or NaN. -/
inductive Num where
  | nan
  | inf (neg : Bool)
  | fin (neg : Bool) (m : Nat) (e : Int)
  deriving DecidableEq, Repr

/-- A floating-point format (R20): fraction bits, exponent bits, bias; F8A has no infinities (R21). -/
structure FloatFmt where
  m : Nat
  ebits : Nat
  bias : Nat
  f8a : Bool
  deriving DecidableEq, Repr

/-- The floating-point format of a code (R16, R20). -/
def floatFmt : Nat → Option FloatFmt
  | 5 => some ⟨3, 4, 7, true⟩
  | 6 => some ⟨2, 5, 15, false⟩
  | 7 => some ⟨7, 8, 127, false⟩
  | 8 => some ⟨10, 5, 15, false⟩
  | 9 => some ⟨23, 8, 127, false⟩
  | _ => none

def f32 : FloatFmt := ⟨23, 8, 127, false⟩
def f8a : FloatFmt := ⟨3, 4, 7, true⟩
def b16 : FloatFmt := ⟨7, 8, 127, false⟩

/-- Element bits of a format code (R16). -/
def fmtBits : Nat → Nat
  | 0 => 4
  | 1 => 8
  | 2 => 8
  | 3 => 32
  | 4 => 64
  | 5 => 8
  | 6 => 8
  | 7 => 16
  | 8 => 16
  | _ => 32

/-- Integer format codes, and those that are signed (R19). -/
def isIntFmt (f : Nat) : Bool := decide (f ≤ 4)
def isSignedFmt (f : Nat) : Bool := f != 2

/-- Read n bits as a signed number. -/
def toSigned (n x : Nat) : Int := if x < 2 ^ (n - 1) then (x : Int) else (x : Int) - 2 ^ n
/-- The low n bits of an integer. -/
def lowBits (n : Nat) (x : Int) : Nat := (x % (2 ^ n : Nat)).toNat

/-- The integer an element of an integer format holds (R19). -/
def intValue (f x : Nat) : Int :=
  let y := x % 2 ^ fmtBits f
  if isSignedFmt f then toSigned (fmtBits f) y else y

def intMin (f : Nat) : Int := if isSignedFmt f then -(2 ^ (fmtBits f - 1) : Nat) else 0
def intMax (f : Nat) : Int := if isSignedFmt f then (2 ^ (fmtBits f - 1) : Nat) - 1 else (2 ^ fmtBits f : Nat) - 1

/-- Clamp to an integer format's range. -/
def clampInt (f : Nat) (x : Int) : Int := max (intMin f) (min (intMax f) x)
/-- Deliver an integer to an integer format: clamp with the sat bit, else keep the low bits (R28). -/
def deliverInt (f : Nat) (sat : Bool) (x : Int) : Nat := lowBits (fmtBits f) (if sat then clampInt f x else x)

/-- The value of a floating-point element (R20, R21). -/
def decodeFloat (f : FloatFmt) (x : Nat) : Num :=
  let neg := x / 2 ^ (f.m + f.ebits) % 2 == 1
  let e := x / 2 ^ f.m % 2 ^ f.ebits
  let m := x % 2 ^ f.m
  if f.f8a && neg && e == 0 && m == 0 then .nan
  else if !f.f8a && e == 2 ^ f.ebits - 1 then (if m = 0 then .inf neg else .nan)
  else if e = 0 then .fin neg m (1 - (f.bias : Int) - f.m)
  else .fin neg (2 ^ f.m + m) ((e : Int) - f.bias - f.m)

/-- An exact integer as a value. -/
def Num.ofInt (x : Int) : Num := .fin (decide (x < 0)) x.natAbs 0

/-- The value of an element of a format code (R16-R21). -/
def decodeNum (f x : Nat) : Num :=
  match floatFmt f with
  | some ff => decodeFloat ff x
  | none => .ofInt (intValue f x)

/-- The canonical NaN (R23). -/
def FloatFmt.nan (f : FloatFmt) : Nat :=
  if f.f8a then 0x80 else (2 ^ f.ebits - 1) * 2 ^ f.m + 2 ^ (f.m - 1)
/-- The largest finite magnitude's bits without the sign (R20). -/
def FloatFmt.maxBits (f : FloatFmt) : Nat := if f.f8a then 0x7F else (2 ^ f.ebits - 1) * 2 ^ f.m - 1
def FloatFmt.signBit (f : FloatFmt) (neg : Bool) : Nat := if neg then 2 ^ (f.m + f.ebits) else 0
/-- Infinity, which is NaN in F8A (R21, R25). -/
def FloatFmt.infBits (f : FloatFmt) (neg : Bool) : Nat :=
  if f.f8a then 0x80 else f.signBit neg + (2 ^ f.ebits - 1) * 2 ^ f.m

/-- Whether a magnitude with low part `r` of `2^k` rounds away from zero under a rounding code (R18). -/
def roundsUp (rc : Nat) (neg : Bool) (n r half : Nat) : Bool :=
  match rc with
  | 0 => decide (half < r) || (r == half && n % 2 == 1)
  | 1 => false
  | 2 => neg && r != 0
  | _ => !neg && r != 0

/-- Round m·2^e to a multiple of 2^q: the multiple (R18). -/
def roundAt (rc : Nat) (neg : Bool) (m : Nat) (e q : Int) : Nat :=
  if q ≤ e then m <<< (e - q).toNat
  else
    let k := (q - e).toNat
    let n := m >>> k
    let r := m - n <<< k
    if r = 0 then n
    -- the comparison with one half, at twice the scale
    else if roundsUp rc neg n (2 * r) (1 <<< k) then n + 1 else n

/-- What an overflow gives (R25, R26) (log 16). -/
def overflow (f : FloatFmt) (rc : Nat) (sat neg : Bool) : Nat :=
  let big := f.signBit neg + f.maxBits
  if sat then big
  else match rc with
    | 0 => f.infBits neg
    | 1 => big
    | 2 => if neg then f.infBits neg else big
    | _ => if neg then big else f.infBits neg

/-- round_fmt of a finite value, and delivery of infinities and NaN (R24-R26) (log 16). -/
def roundFmt (f : FloatFmt) (rc : Nat) (sat : Bool) : Num → Nat
  | .nan => f.nan
  | .inf neg => if sat then f.signBit neg + f.maxBits else f.infBits neg
  | .fin neg m e =>
    if m = 0 then (if f.f8a then 0 else f.signBit neg)
    else
      let emin : Int := 1 - (f.bias : Int)
      let k : Int := (Nat.log2 m : Int) + e
      let q : Int := max k emin - f.m
      let n := roundAt rc neg m e q
      if n = 0 then (if f.f8a then 0 else f.signBit neg)
      else if n < 2 ^ f.m then f.signBit neg + n
      else
        let top : Int := (Nat.log2 n : Int) + q
        let mant := if n < 2 ^ (f.m + 1) then n else n / 2
        let body : Int := (top + f.bias) * (2 ^ f.m : Nat) + (mant - 2 ^ f.m : Nat)
        if body.toNat > f.maxBits then overflow f rc sat neg else f.signBit neg + body.toNat

/-- The integer nearest an exact value under a rounding code. -/
def roundInt (rc : Nat) : Num → Int
  | .fin neg m e => let n := roundAt rc neg m e 0; if neg then -(n : Int) else n
  | _ => 0

/-- The indefinite value (R28). -/
def indefinite (f : Nat) : Nat := if isSignedFmt f then 2 ^ (fmtBits f - 1) else 0

/-- Conversion of a floating-point value to an integer format (R28). -/
def floatToInt (f rc : Nat) (sat : Bool) : Num → Nat
  | .nan => if sat then 0 else indefinite f
  | .inf neg => if sat then lowBits (fmtBits f) (if neg then intMin f else intMax f) else indefinite f
  | x =>
    let n := roundInt rc x
    if intMin f ≤ n ∧ n ≤ intMax f then lowBits (fmtBits f) n
    else if sat then lowBits (fmtBits f) (clampInt f n) else indefinite f

/-- Deliver the value of a floating-point or integer source to a format (R24-R28). -/
def convert (src dst rc : Nat) (sat : Bool) (x : Nat) : Nat :=
  match floatFmt dst with
  | some f => roundFmt f rc sat (decodeNum src x)
  | none =>
    if isIntFmt src then deliverInt dst sat (intValue src x) else floatToInt dst rc sat (decodeNum src x)

/-- Exact sum of signed dyadic numbers; the sign of an exact zero follows IEEE 754: minus if both are minus, or when
rounding toward minus infinity unless both are plus. -/
def addNum (rc : Nat) : Num → Num → Num
  | .nan, _ => .nan
  | _, .nan => .nan
  | .inf a, .inf b => if a = b then .inf a else .nan
  | .inf a, _ => .inf a
  | _, .inf b => .inf b
  | .fin a m e, .fin b n g =>
    let lo := min e g
    let x : Int := (if a then -1 else 1) * (m <<< (e - lo).toNat : Nat)
    let y : Int := (if b then -1 else 1) * (n <<< (g - lo).toNat : Nat)
    let z := x + y
    if z = 0 then .fin (if a = b then a else rc == 2) 0 lo
    else .fin (decide (z < 0)) z.natAbs lo

def negNum : Num → Num
  | .nan => .nan
  | .inf a => .inf (!a)
  | .fin a m e => .fin (!a) m e

/-- Exact product (R29). -/
def mulNum : Num → Num → Num
  | .nan, _ => .nan
  | _, .nan => .nan
  | .inf a, .inf b => .inf (a != b)
  | .inf a, .fin b m _ => if m = 0 then .nan else .inf (a != b)
  | .fin a m _, .inf b => if m = 0 then .nan else .inf (a != b)
  | .fin a m e, .fin b n g => .fin (a != b) (m * n) (e + g)

/-- The signed numerator at scale 2^lo. -/
def scaled (neg : Bool) (m : Nat) (e lo : Int) : Int := (if neg then -1 else 1) * (m <<< (e - lo).toNat : Nat)

/-- Order of values: less than, and equal, with false for NaN; zeros are equal (R108). -/
def ltNum : Num → Num → Bool
  | .nan, _ => false
  | _, .nan => false
  | .inf a, .inf b => a && !b
  | .inf a, _ => a
  | _, .inf b => !b
  | .fin a m e, .fin b n g => decide (scaled a m e (min e g) < scaled b n g (min e g))
def eqNum : Num → Num → Bool
  | .nan, _ => false
  | _, .nan => false
  | .inf a, .inf b => a == b
  | .inf _, _ => false
  | _, .inf _ => false
  | .fin a m e, .fin b n g => decide (scaled a m e (min e g) = scaled b n g (min e g))

def Num.isNeg : Num → Bool
  | .nan => false
  | .inf a => a
  | .fin a _ _ => a
def Num.isNan : Num → Bool
  | .nan => true
  | _ => false
def Num.isInf : Num → Bool
  | .inf _ => true
  | _ => false

/-- Maximum and minimum: NaN if either is NaN, and -0 below +0 (R29). -/
def maxNum (x y : Num) : Num :=
  if x.isNan || y.isNan then .nan else if ltNum x y then y else if ltNum y x then x else if x.isNeg then y else x
def minNum (x y : Num) : Num :=
  if x.isNan || y.isNan then .nan else if ltNum x y then x else if ltNum y x then y else if x.isNeg then x else y

/-- round_ne to F32 (R24). -/
def roundNe (x : Num) : Nat := roundFmt f32 0 false x
/-- F32 operations rounded to nearest. -/
def addF (x y : Nat) : Nat := roundNe (addNum 0 (decodeFloat f32 x) (decodeFloat f32 y))
def mulF (x y : Nat) : Nat := roundNe (mulNum (decodeFloat f32 x) (decodeFloat f32 y))

/-- The exact sum of a k-group's products, with its special cases (R30): +0 for an exact zero unless every product is -0. -/
def sumGroup (ps : List Num) : Num :=
  if ps.any Num.isNan || (ps.contains (.inf true) && ps.contains (.inf false)) then .nan
  else match ps.find? Num.isInf with
    | some p => p
    | none =>
      match ps with
      | [] => .fin false 0 0
      | p :: rest => rest.foldl (addNum 0) p

/-- One k-group's update of a floating-point accumulator element (R30). -/
def accumulate (acc : Nat) (ps : List Num) : Nat :=
  if ps.isEmpty then acc
  else addF acc (roundNe (sumGroup ps))

/-- One k-group's update of an integer accumulator element (R31). -/
def accumulateInt (acc : Nat) (g : Int) : Nat := deliverInt 3 true (intValue 3 acc + g)

end Sys2Proof.Machine
end

