-- ==== Sys2Proof/Config.lean ====
section
/-! DEFINITION. What one Perum part fixes (R1), the constants the manual leaves to the implementation, and the free
values: opaque constants without a body, of which nothing can be proved. -/

namespace Sys2Proof.Config

/-- Default limits (R211, R165, R166, R169, R379, R399, R415, R253, R308, R281, R437, R377). -/
def maxStores : Nat := 64
def outboundEntries : Nat := 8
def inboundEntries : Nat := 16
def transferEntries : Nat := 32
def rowEntries : Nat := 8
def queryEntries : Nat := 16
def controllerQueries : Nat := 256
def recordStore : Nat := 1024
def maxContracts : Nat := 16
def queueSlots : Nat := 64
def frameEntries : Nat := 8
def writeBuffer : Nat := 512

/-- Sizes of the note space and the future table (R246), the vault's waiter blocks (R250), and the race spill entries of
a die (R233). -/
def noteIndices : Nat := 65536
def tableEntries : Nat := 4096
def waiterBlocks : Nat := 32768
def spillEntries : Nat := 1048576

/-- The monitor's ROM entry, the reset value of FTBASE0 (R440). DESIGN CHOICE (log 5): the manual names the ROM entry
and gives no address. -/
def romEntry : Word := 0x0000FFFFFFFF0000#64

/-- The fused values of R443. DESIGN CHOICE (log 6): the manual gives none. -/
def keyDigest : Nat → Word := fun _ => 0#64
def fusedSvn : W32 := 0#32

/-- FREE VALUE (log 20): where the home starts looking for a FREE note index (R249, "with no stated choice among them"). -/
opaque noteStart : Nat → Nat

/-- FREE VALUE (log 21): the bytes of INFO, which tell of a failed first image and of failed stacks, and the certificate chain it
returns (R449, R451, R452); the package's serial number (R451). -/
opaque infoByte : Bool → List Nat → Nat → Byte
opaque certificates : List Byte
opaque serial : Nat → Byte

/-- FREE VALUE (log 22): the 64 bytes (r, s) of an SM2 signature over the 128 bytes given (R443, R451). -/
opaque signature : Nat → Nat → Nat

/-- FREE VALUE (log 23): where the boot ROM begins and how long it is (R449, R451). -/
opaque romStart : Nat
opaque romLength : Nat

/-- FREE VALUE (log 24): the bitstream byte and key-frame bit an encoder produces (R437). -/
opaque bitstream : Nat → Nat → Byte
opaque keyFrame : Nat → Bool

/-- FREE VALUE (log 25): TVAL of UE raised by an uncorrectable register word, for which R455 gives no address. -/
opaque registerTval : Nat → Word

/-- FREE VALUE (log 47): TVAL of the UE of a transfer whose list word is uncorrectable: its element has no address (R178, R186). -/
opaque listTval : Nat → Word

/-- FREE VALUE (log 61): an element that a drain reads from an uncorrectable accumulator word, for which the manual gives neither value
nor fault (R363, R455). -/
opaque badElement : Nat → W32

/-- FREE VALUE (log 28): the boot ROM's bytes, which the manual does not give (R449). -/
opaque romByte : Nat → Byte

/-- FREE VALUE (log 29): whether an access at a home slice reads or writes the HBM, for the purse (R316): the home slices
cache lines (R1) by a policy the manual does not give. -/
opaque reachesHbm : Nat → Bool

/-- FREE VALUE (log 29): whether such an access finds its DRAM row closed and activates it (R316). -/
opaque opensRow : Nat → Bool

/-- FREE VALUE (log 30): COORD as a firmware core reads it, which the manual does not give (R94, R439). -/
opaque fwCoord : Nat → Word

/-- FREE VALUE (log 33): the word `fq` gives for a note homed in another package: no fabric message asks for it (R264,
R429). -/
opaque remoteState : Nat → Word

/-- FREE VALUE (log 72): what the home in another package answers to a spawn that asks for an input's state: 0 PENDING, 1 RESOLVED, 2
POISONED, 3 CANCELLED, 4 a failed home check (R258); no fabric message carries the question. -/
opaque remoteInput : Nat → Nat

/-- FREE VALUE (log 34): the virtual address a BAR2_DROP event names where the function has no aperture (R426). -/
opaque dropAddress : Nat → Nat

/-- FREE VALUE (log 35): COORD of the issuer of a posted note operation that arrives from another package, which its message does
not carry (R261, R430). -/
opaque remoteCoord : Nat → Word

/-- FREE VALUE (log 36): the hash of a pair of chip numbers that chooses a stream's port (R431). -/
opaque portHash : Nat → Nat → Nat

/-- FREE VALUE (log 37): the mailbox's STATUS for a refused command where the manual gives none (R452). -/
opaque refusedStatus : Nat → Nat

/-- FREE VALUE (log 38): the fields of the root task's record, and the core and phase it starts in, that LAUNCH does not give
(R453). -/
opaque rootField : Nat → Nat

/-- FREE VALUE (log 39): the first image at package reset: whether it is accepted, its security version and the save-frame layouts it
reads (R449, R450). -/
opaque firstSigned : Bool
opaque firstSvn : W32
opaque firstLayouts : List Nat
opaque firstDigest : Nat

/-- FREE VALUE (log 135): what firmware chooses for a command that the host gives it: where it starts looking for a free CTXID, the
4 MiB areas it reserves for vaults and their number (R453), and the encoder complex of a stream (R434). -/
opaque firstCtx : Nat → Nat
opaque vaultCount : Nat
opaque vaultPa : Nat → Nat
opaque streamComplex : Nat → Nat

/-- FREE VALUE (log 40): the length of the body that INFO returns (R452). -/
opaque infoLength : Nat → Nat

/-- FREE VALUE (log 42): TVAL of the UE with which a bad save frame kills its task, for which the manual gives none (R140). -/
opaque frameTval : Nat → Word

/-- FREE VALUE (log 26): whether a byte of an aborted subscription fetch was already fetched (R262, R13). -/
opaque fetchedByte : Nat → Nat → Bool

/-- FREE VALUE (log 27): which free bytes a concurrent access sees where R13 allows old or new. -/
opaque newByte : Nat → Bool

end Sys2Proof.Config
end

