-- ==== Sys2Proof/Machine/State.lean ====
section
/-! DEFINITION. The state of a whole Perum package as plain data (R1): every register, memory, table, queue and
operation in progress that the spec names. Collections are lists of the live things; a thing that is not listed is
absent, free, unowned or zero, as its field says. Only data stands here; what is done with it is in Ops.lean and the
family files. -/

namespace Sys2Proof.Machine

/-- A list of (address, byte) pairs, addresses strictly rising, no entry equal to what an unlisted address reads as
(zero). Used for HBM, scratchpads, tile stores, tile registers and host memory. -/
abbrev Mem := List Host.Cell

/-- A vector register (R77, R105): 32 lanes of 32 bits, lane 0 first. -/
abbrev VReg := Vector W32 32

/-- Trap causes of R133. -/
inductive Cause where
  | illegal | misaligned | access | page | ue | race | waitLimit | futurePoisoned | futureCancelled | notAHandle
  | budget | allAsleep | layoutMismatch | drainFault | prefixMisuse | privilege | engineUnbound | scope | brk | ecall
  deriving DecidableEq, Repr

/-- A trap about to be taken: its cause and the value for TVAL. -/
structure Trap where
  cause : Cause
  tval : Word
  deriving DecidableEq, Repr

/-- Kinds of the wake word (R135). -/
inductive WakeKind where
  | reg | portw | future | barrier | feword | tags | timeline | queue | memory | page | budget | yield | exit
  deriving DecidableEq, Repr

/-- A wake condition: the wake word's KIND and DETAIL, and its operand (R134, R135). `win` is the s-window of the parked
word (R46), which tells which core-shared registers the values 46 and 47 in DETAIL name; `wantEmpty` marks an `mvp` that waits for the
first register of DETAIL to be empty (R100), `cur` a wait in which core-shared registers count in the current view (R84). -/
structure Wake where
  kind : WakeKind
  detail : W32
  operand : Word
  win : BitVec 2
  wantEmpty : Bool
  cur : Bool
  deriving DecidableEq, Repr

/-- A thread's register files (R77). `x` holds register values 0-39 (g0-g31, then h0-h7); bit r of `full` is the
full bit of register value r (1-39 and 48-63); `ue` lists (register value, word of 8 bytes in it) that are uncorrectable (R455). -/
structure Ctx where
  x : Vector Word 40
  full : BitVec 64
  q0 : Word
  q1 : Word
  v : Vector VReg 16
  k : Vector W32 8
  p : Vector Bool 4
  ue : List (Nat × Nat)
  deriving DecidableEq, Repr

/-- The per-thread CSRs (R89-R95, R57, R180) and the prefix latch (R53). STATUS is kept as its fields; its PHASE field
is where the thread runs. -/
structure Csrs where
  prio : BitVec 8
  migoff : Bool
  creq : Bool
  pin : Bool
  pfx : Bool
  trap : Bool
  latch : BitVec 15
  tcause : BitVec 8
  tval : Word
  tepc : Word
  tstatus : Word
  tpfx : Word
  tbase : Word
  tq0 : Word
  tq1 : Word
  wlimit : W32
  remain : W32
  purse : Word
  migCount : BitVec 16
  migThresh : BitVec 16
  stage : BitVec 4
  tile : BitVec 48
  done : Word
  tshape : Vector Word 8
  deriving DecidableEq, Repr

/-- A task record as read from memory (R240-R242). -/
structure TaskRec where
  entry : Nat
  budget : Nat
  prio : Nat
  stage : Nat
  radius : Nat
  pin : Bool
  hintv : Bool
  dep0 : Bool
  dep1 : Bool
  nin : Nat
  tx : Nat
  ty : Nat
  tz : Nat
  hintx : Nat
  hinty : Nat
  arg0 : Nat
  arg1 : Nat
  arg2 : Nat
  arg3 : Nat
  in0 : Word
  in1 : Word
  subs : List (Word × Word)
  deriving DecidableEq, Repr

/-- Where a thread is: in a phase of a task core, resident in a context slot without a phase (R74), in a save frame
(R138; the frame's virtual address, the core and phase it last held, and for a migration the target cluster), or in a
phase of a firmware core (R439). A slot keeps the phase the task last held. Cores are numbered 64·Y + X. -/
inductive Loc where
  | phase (core phase : Nat)
  | slot (core phase : Nat)
  | frame (va : Word) (core phase : Nat) (mig : Option Nat)
  | fw (die n phase : Nat)
  deriving DecidableEq, Repr

/-- The operation of an ordered access (R215). -/
inductive OrdOp where
  | ld | st | swap | cas | add | and | or | xor | min | max | minz | maxz
  deriving DecidableEq, Repr

/-- The ord field of R215. -/
inductive Ord where
  | relaxed | acquire | release | sc
  deriving DecidableEq, Repr

/-- How a load's bytes become a register value (R154). -/
inductive Ext where
  | signed | zero | vec
  deriving DecidableEq, Repr

/-- What the home answered to a note operation (R245-R248): the home check failed, the note is PENDING and the asker is
registered, or the note's terminal state; or whether a transition won. -/
inductive NoteReply where
  | badHandle
  | won (b : Bool)
  | resolved (value : Word)
  | poisoned (cause : BitVec 8) (value : Word)
  | cancelled
  deriving DecidableEq, Repr

/-- The transition a note operation asks for (R261, R262, R265, R430). -/
inductive NoteKind where
  | resolve | resolveFirst | poison | cancel | free | touch
  deriving DecidableEq, Repr

/-- A resource of which an operation waits for a free unit, its thread out of the rotation: an entry of the transfer queue (R169), of
the outbound message buffer (R165), of the row queue (R379), of the query entries (R399), or of a stream's frame entries (R437)
(log 120). -/
inductive Res where
  | xfer | outb | rowq | query | frame (stream : Nat)
  deriving DecidableEq, Repr

/-- What a reply delivers to the waiting instruction (R136): a register with its value (a vector register's lanes, or a
scalar, which is a scalar result where `push` says so), a predicate, a destination left empty (R259), or a trap. -/
structure Delivery where
  d : Option (BitVec 6)
  vec : Bool
  push : Bool
  val : Nat
  pd : BitVec 2
  pv : Bool
  empty : Option (BitVec 6)
  trap : Option Trap
  deriving DecidableEq, Repr

/-- A query descriptor as a post reads it (R398): the query vector is one number. -/
structure AqDesc where
  table : Nat
  len : Nat
  scale : W32
  res : Nat
  npg : Nat
  dim : Nat
  banks : Bool
  q : Nat
  deriving DecidableEq, Repr

/-- One piece of a transfer, put, fetch or tile write not yet performed (R177, R174): its global address, length and
local byte offset; `va` is a virtual address. -/
structure Piece where
  va : Nat
  len : Nat
  off : Nat
  deriving DecidableEq, Repr

/-- What a transfer queue entry moves (R170, R433). -/
inductive XKind where
  | put | get | gather | scatter
  | remote (chip rctx : Nat) (dst : Nat) (total : Nat) (note : Word) (number : Nat)
  deriving DecidableEq, Repr

/-- An entry of a core's transfer queue (R169-R178): the issuing thread, tag, local side (core, space 0-2, address,
swizzle), codec, the barrier it decreases, the region current at issue, the pieces left, and for a register destination
the bytes gathered so far. `entry` is its number in the queue. `cursor` is the global address of a codec transfer's next
block; `after` lists stores that a remote put sends after, `acked` counts the bytes its acknowledgements cover (R433); `early` lists
the local bytes (place, value) read or written before their piece (R173). -/
structure Xfer where
  id : Nat
  entry : Nat
  tid : Nat
  ctx : Nat
  tag : Nat
  kind : XKind
  core : Nat
  addr : Nat
  space : Nat
  swz : Nat
  codec : Bool
  len : Nat
  bar : Option (Nat × Nat)
  region : BitVec 2
  pieces : List Piece
  buf : Nat
  after : List Nat
  cursor : Nat
  acked : Nat
  early : List (Nat × Nat)
  deriving DecidableEq, Repr

/-- An active message (R164-R167). -/
structure Msg where
  ctx : Nat
  entry : Nat
  target : Nat
  sender : Nat
  senderCore : Nat
  senderPhase : Nat
  senderCoord : Word
  arg : Word
  wantReply : Bool
  after : List Nat
  charge : Nat
  deriving DecidableEq, Repr

/-- A row operation in a core's row queue (R378-R382); `early` lists the destination bytes written before their chunk (R381). -/
structure RowOp where
  id : Nat
  tid : Nat
  ctx : Nat
  num : Word
  copy : Bool
  dst : Nat
  src : Nat
  len : Nat
  left : List Nat
  after : List Nat
  issuedAt : Nat
  early : List Nat
  deriving DecidableEq, Repr

/-- A frame posted to an encoder stream (R436, R437). -/
structure Frame where
  num : Word
  tid : Nat
  luma : Nat
  chroma : Nat
  out : Nat
  outcap : Nat
  pitch : Nat
  stat : Nat
  force : Bool
  qp : Nat
  target : Nat
  note : Word
  after : List Nat
  deriving DecidableEq, Repr

/-- A note operation on its way to its home (R247, R261): what it asks, its issuer and the stores it follows. `told` marks a
touch for which VAULT_FULL has been reported (R250); `proxy` is the waiter of a touch from another package: its chip, proxy word and
context (R432). -/
structure NoteOp where
  kind : NoteKind
  handle : Word
  value : Word
  cause : BitVec 8
  tid : Nat
  ctx : Nat
  core : Nat
  wants : Bool
  after : List Nat
  told : Bool
  proxy : Option (Nat × (Word × Nat))
  deriving DecidableEq, Repr

/-- What an access needs (R195). -/
inductive Need where
  | fetch | read | write | atomic
  deriving DecidableEq, Repr

/-- The rows of R163. -/
inductive FeOp where
  | fr | fe | ef | xf | clr | q | tf
  deriving DecidableEq, Repr

/-- The rows of R181. -/
inductive TagOp where
  | wany | wall | ffr
  deriving DecidableEq, Repr

/-- What a thread that left the rotation awaits (R115, R136): the operation with the operand values read at issue. The
reply (MEMORY_REPLY) performs it and delivers its result; nothing is issued again. `walk` waits for the translation of an
access (R198), `unit` for a unit of a resource at a core (R115, R169), `sync` for the regions of its thread (R231, R235), each
with the operation that goes on then. `chk` is the page's CHK bit; `num` is a store's or load's number in the order of issue,
`hit` is the value a load found in the L1 (R208, R221); `replied` holds a reply that came during an eviction. -/
inductive Pending where
  | fetch (va : Word)
  | walk (need : Need) (va : Word) (size num : Nat) (p : Pending)
  | unit (r : Res) (core : Nat) (p : Pending)
  | sync (ended all : Bool) (p : Pending)
  | post (va : Word) (pa size val num : Nat)
  | feWord (op : FeOp) (d : BitVec 6) (ea : Word) (b : Word)
  | tagWait (op : TagOp) (d : BitVec 6) (a : Word)
  | barArr (d : BitVec 6) (n : Nat)
  | barSync (n : Nat)
  | done (acquire : Bool)
  | sendMsg (m : Msg) (d : Option (BitVec 6))
  | enqueue (x : Xfer)
  | noteOp (o : NoteOp) (p : Pending)
  | rowOp (d : BitVec 6) (core : Nat) (x : RowOp)
  | frame (d : BitVec 6) (stream : Nat) (x : Frame)
  | loadTile (ea size : Nat) (ext : Ext) (d : BitVec 6)
  | storeTile (ea size val : Nat)
  | replied (r : Delivery)
  | load (va : Word) (pa size : Nat) (ext : Ext) (d : BitVec 6) (chk : Bool) (num : Nat) (hit : Option Nat)
  | storeChk (va : Word) (pa size val num : Nat)
  | ordered (op : OrdOp) (ord : Ord) (va : Word) (pa : Nat) (scope src src2 : Word) (d : BitVec 6) (chk : Bool)
      (after : List Nat) (num : Nat) (win : Option Nat)
  | fence (acq rel : Bool) (sc : Bool) (scope : Word) (after : List Nat) (win : Option Nat)
  | receipts (after : List Nat)
  | tlb (ctx : Nat) (start len : Word) (after : List Nat)
  | flushed (nums : List Nat)
  | amsg (d : BitVec 6) (reply : Option (Word ⊕ Trap))
  | spawn (inl : Bool) (pd : BitVec 2) (d : BitVec 6) (ra : Nat) (r : TaskRec) (after : List Nat)
  | note (handle : Word) (pd : BitVec 2) (reply : Option NoteReply)
  | touch (p : Bool) (pd : BitVec 2) (d : BitVec 6) (handle : Word) (reply : Option NoteReply)
  | postNote (kind : NoteKind) (handle value : Word) (after : List Nat)
  | fq (handle : Word) (d : BitVec 6)
  | fnew (pd : BitVec 2) (d : BitVec 6)
  | qpush (n : Bool) (pd : BitVec 2) (d : BitVec 6) (q : Word) (pa num r : Nat) (ext : Bool) (ring : Nat × Nat) (after : List Nat)
  | qput (pd : BitVec 2) (d : BitVec 6) (q : Word) (pa num idx data : Nat) (slot : Nat × Nat)
  | qpop (n : Bool) (pd : BitVec 2) (d : BitVec 6) (q : Word) (pa num r : Nat) (ext : Bool)
  | qtail (q v : Word) (pa num : Nat) (after : List Nat)
  | chsend (n : Bool) (pd : BitVec 2) (ch r : Nat) (after : List Nat)
  | chrecv (n : Bool) (pd : BitVec 2) (d : BitVec 6) (ch r : Nat)
  | chclose (ch : Nat) (after : List Nat)
  | chq (d : BitVec 6) (ch : Nat)
  | ebind (pd : BitVec 2) (d : BitVec 6)
  | dpmLoad (d : BitVec 6) (x : Word) (image : List W32)
  | dpmFree (d : BitVec 6) (slot : Nat)
  | aqPost (d : BitVec 6) (core : Nat) (x : AqDesc) (after : List Nat)
  | aqBytes (core addr size val : Nat) (d : BitVec 6) (dval : Word) (due : Nat)
  | encTl (d : BitVec 6) (stream : Nat)
  | own (grant : Bool) (d : BitVec 6) (rec : Nat)
  | pzero (d : BitVec 6) (pa len : Nat)
  deriving DecidableEq, Repr

/-- Whether a thread may issue (R115). -/
inductive Run where
  /-- issues at the next slot of its phase -/
  | runnable
  /-- at a blocking point that is issued again once `fired` (R136) -/
  | parked (w : Wake) (fired : Bool)
  /-- out of the rotation until its reply (R136) -/
  | out (w : Wake) (p : Pending)
  /-- being saved to the frame at `va`, for its migration or not, until CONTEXT_SAVE_DONE (R149, R314) -/
  | saving (w : Wake) (p : Option Pending) (fired : Bool) (va : Nat) (mig : Bool)
  /-- being restored from a frame, until TASK_RESTORE_DONE (R137) -/
  | restoring (w : Wake) (p : Option Pending) (fired : Bool)
  deriving DecidableEq, Repr

/-- The wait a blocking instruction began (R143): its address, PARKED, and the LIMIT when it first parked; `fetch` marks the wait of a
fetch or of a budget overrun, which is none of the instruction's own (R116, R142). -/
structure WaitRec where
  pc : Word
  since : Nat
  limit : Nat
  fetch : Bool
  deriving DecidableEq, Repr

/-- A synchronisation region of a thread (R230, R231, R235): its 2-bit sequence and the home slices (0-127) its checked
accesses have touched. -/
structure Region where
  seq : BitVec 2
  homes : List Nat
  deriving DecidableEq, Repr

/-- What a phase-7 handler thread carries (R167, R168): the sender, whether the sender awaits a reply, the sender's COORD
for reports, and the instructions issued so far. -/
structure Handler where
  sender : Nat
  wantReply : Bool
  senderCoord : Word
  issues : Nat
  charge : Nat
  deriving DecidableEq, Repr

/-- One thread context and what the teller keeps with it (R74, R211, R379, R399, R231). `tid` names it in the model; `num` is
its task number, given at its first dispatch (R231). -/
structure Thread where
  tid : Nat
  num : BitVec 24
  ctx : Nat
  loc : Loc
  run : Run
  pc : Word
  c : Ctx
  csr : Csrs
  /-- in-flight transfer counts per tag (R180); an absent tag counts 0 -/
  tagCount : List (Nat × Nat)
  /-- NEXT, the receipt counter (R211) -/
  next : BitVec 16
  /-- row timeline RTL, RISSUED (R379) -/
  rtl : Word
  rissued : Word
  /-- query timeline QTL, QISSUED (R399) -/
  qtl : Word
  qissued : Word
  /-- the current region and the unretired earlier ones, oldest first (R231, R235) -/
  region : Region
  unretired : List Region
  /-- the wait in progress (R143) -/
  wait : Option WaitRec
  /-- a trap the thread takes when it next issues (R144, R204) -/
  due : Option Trap
  /-- the ports its operation in progress has read, which its completion empties (R86) -/
  taken : List (BitVec 6)
  /-- the address, barrier and old phase bit of its bar.sync after the one arrival (R183) -/
  synced : Option (Word × (Nat × Bool))
  /-- the record it was started from, its note's handle if any, and carried inputs (R139, R240, R267) -/
  record : Word
  note : Option Word
  in0 : Word
  in1 : Word
  radius : Nat
  hint : Nat
  recPrio : BitVec 8
  budget : Nat
  readyAt : Nat
  agedAt : Nat
  dispatchedAt : Nat
  lastIssue : Nat
  /-- the cancel request was acknowledged by fcanq (R263) -/
  creqAck : Bool
  /-- marked for affinity migration: home cluster of the access that reached the threshold (R149) -/
  migTarget : Option Nat
  /-- since when it sees its core's line copies: those taken before its restore on another core are older than what R221
  lets it see -/
  freshFrom : Nat
  /-- the task or record whose pre-emption request is directed at it (R306) -/
  request : Option Nat
  /-- the contract release it belongs to (cluster, contract index), and phase-cycles charged this period (R310, R311) -/
  contract : Option (Nat × Nat)
  charged : Nat
  /-- the pipeline that placed it (R298), channels it has closed (R295) -/
  pipeline : Option Nat
  closed : List Nat
  /-- the caller of a note-less inline child, and its destination (R259) -/
  caller : Option (Nat × BitVec 6)
  /-- the registers a handler's message carries (phase 7 only) -/
  handler : Option Handler
  /-- the running blocking exit: its value (R127) -/
  exiting : Option Word
  /-- firmware level and level before the last trap (R440) -/
  lev : BitVec 2
  plev : BitVec 2
  deriving DecidableEq, Repr

/-- A barrier of a core (R182). -/
structure Barrier where
  expect : BitVec 16
  arr : BitVec 16
  pend : Int
  ph : Bool
  ovr : Bool
  deriving DecidableEq, Repr

/-- One change of a core-shared register (R83, R84): the cycle at whose end it holds, register, value, full bit. -/
structure SWrite where
  cycle : Nat
  reg : Nat
  val : Word
  full : Bool
  deriving DecidableEq, Repr

/-- A line copy in a core's L1 (R208): physical line address, its 128 bytes, the cycle of the fill, and the cycle at which
the home slice held these bytes (R221). -/
structure L1Line where
  pa : Nat
  data : Nat
  filled : Nat
  seen : Nat
  deriving DecidableEq, Repr

/-- The neighbour directions of R86. -/
inductive Dir where
  | east | north | west | south
  deriving DecidableEq, Repr

/-- A task core (R73-R76, R83-R88, R97, R151-R187, R208). `owner` is the owning job's CTXID; an unowned core lists
nothing. `tagFull` lists the tagged words (addresses) that are full (R162); `inbox` lists the full inbox registers. -/
structure Core where
  id : Nat
  owner : Option Nat
  poolReg : Nat
  poolSpad : Nat
  poolL1 : Nat
  tagged : Nat
  spad : Mem
  spadUE : List Nat
  tagFull : List Nat
  barriers : List (Nat × Barrier)
  sregs : List SWrite
  inbox : List ((Nat × Dir) × Word)
  outb : List Msg
  inb : List Msg
  xq : List Xfer
  rowq : List RowOp
  l1 : List L1Line
  deriving DecidableEq, Repr

/-- A numbered operation of an engine context (R326, R327, R341): its instruction word and address, number, next k-group,
the value of register a (the drain word or address word), the drain's default rounding and sat, the operand formats, and
the shapes. `recorded` marks the context's array record; `running` is false from a restore until the re-issue; `finished`
marks a recorded array part that is done, with the trap it ended in. `after` lists the stores it follows (R237). -/
structure ArrRec where
  word : W32
  pc : Word
  num : Word
  nextk : Nat
  arg : Word
  rc : BitVec 2
  sat : Bool
  fa : BitVec 4
  fb : BitVec 4
  sa : Word
  sb : Word
  recorded : Bool
  running : Bool
  finished : Bool
  stop : Option Trap
  after : List Nat
  deriving DecidableEq, Repr

/-- A drain of an accumulator (R362, R364), and the stores it follows (R237). -/
structure DrainRec where
  started : Bool
  stop : Bool
  slot : Nat
  row : Nat
  col : Nat
  step : Nat
  rows : Nat
  cols : Nat
  dword : Word
  rc : BitVec 2
  sat : Bool
  opnum : Word
  fault : Word
  after : List Nat
  deriving DecidableEq, Repr

/-- An engine context that is not free (R321). Tile registers are byte memories of 4,096 bytes; an unlisted byte or
accumulator element is 0. `tUE` lists (tile register, byte address of an 8-byte word) that are uncorrectable, `aUE` (accumulator,
first element of such a word). `landing` are the drains, with their accumulators, that have run their last row and whose stores are
not all performed. `ops` are the
operations whose array part is not done, in number order, and the recorded one. `faultPc` is the address at which the fault
of a halted drain has been delivered (R339). -/
structure Engine where
  idx : Nat
  holder : Nat
  tiles : Vector Mem 8
  tUE : List (Nat × Nat)
  aUE : List (Nat × Nat)
  acc : Vector (List (Nat × W32)) 2
  kind : Vector Bool 2
  pois : Vector Word 2
  tl : Word
  issued : Word
  halt : Bool
  faultPc : Option Word
  ops : List ArrRec
  drains : Vector (Option DrainRec) 2
  landing : List (Nat × DrainRec)
  deriving DecidableEq, Repr

/-- A loaded drain slot (R345); a slot that is not listed is FREE. `holds` lists the task and number of each operation that
holds it; HOLD is their count. -/
structure DSlot where
  slot : Nat
  code : List W32
  sclog : Nat
  scbase : Nat
  holds : List (Nat × Word)
  deriving DecidableEq, Repr

/-- Terminal and pending states of a note (R246); FREE is absence. -/
inductive NoteState where
  | pending | resolved | poisoned | cancelled
  deriving DecidableEq, Repr

/-- A waiter of a note (R248): a thread parked on a touch, a held record, or a proxy of another package. -/
inductive Waiter where
  | thread (tid : Nat)
  | record (id : Nat)
  | proxy (chip : Nat) (proxy : Word) (ctx : Nat)
  deriving DecidableEq, Repr

/-- A note that is not FREE (R246-R249). `task` links the task or held record that will resolve it; `blocks` are the vault's waiter
blocks that hold its waiters beyond the fourth, in order (R248, R250). -/
structure Note where
  index : Nat
  ctx : Nat
  state : NoteState
  value : Word
  cause : BitVec 8
  relq : Bool
  task : Option Nat
  waiters : List Waiter
  blocks : List Nat
  spilled : Bool
  termAt : Nat
  deriving DecidableEq, Repr

/-- A record in a cluster's record store (R253): its task number, handle if it has a note, the dependence inputs still
awaited, the subscription pieces not yet fetched (entry index, piece), when it arrived and became ready; `told` marks one whose
registration has met a full vault (R250). -/
structure Held where
  id : Nat
  ctx : Nat
  va : Word
  r : TaskRec
  note : Option Word
  hint : Nat
  waits : List Word
  pieces : List (Nat × Piece)
  cursor : List (Nat × Nat)
  spawner : Nat
  arrived : Nat
  readyAt : Option Nat
  level : BitVec 8
  agedAt : Nat
  contract : Option (Nat × Nat)
  rank : Option Nat
  told : Bool
  deriving DecidableEq, Repr

/-- An admitted contract (R307-R312), with the address and the copy of its task record. -/
structure Contract where
  idx : Nat
  ctx : Nat
  va : Nat
  rva : Word
  r : TaskRec
  period : Nat
  budget : Nat
  deadline : Nat
  width : Nat
  eshare : Nat
  band : Nat
  nextRelease : Nat
  lastRelease : Nat
  deadlineDue : Option Nat
  live : List Nat
  reserved : List Nat
  misses : Nat
  overruns : Nat
  skips : Nat
  withdrawn : Bool
  deriving DecidableEq, Repr

/-- A mapped-queue slot (R281). -/
structure MapSlot where
  slot : Nat
  ctx : Nat
  q : Nat
  last : Nat
  deriving DecidableEq, Repr

/-- A cluster and its resources (R156-R162, R246-R253, R281, R321, R345, R449). `failed` marks a
failed self-test. A note index's generation that is not
listed is 0; a layout tag that is not listed is 0. -/
structure Cluster where
  id : Nat
  released : Bool
  failed : Bool
  owner : Option Nat
  tile : Mem
  tileUE : List Nat
  ltags : List (Nat × Nat)
  engines : List Engine
  dslots : List DSlot
  notes : List Note
  gens : List (Nat × Nat)
  records : List Held
  contracts : List Contract
  /-- contracts that have ended with tasks of their last release live, whose reservations end with those (R310, R312) -/
  ending : List Contract
  slots : List MapSlot
  vault : Nat
  deriving DecidableEq, Repr

/-- A job (R271, R453). `faultK` counts the fault records written or held since launch; `energy` is the job's total of
R316; `disarmed` and
`sleepTask` belong to the all-asleep detector (R147); `remap` is firmware's list of queues to map again (R281). -/
structure Job where
  ctx : Nat
  func : Nat
  cbase : Nat
  dbase : Nat
  root : Nat
  saveVA : Nat
  saveBytes : Nat
  reportVA : Nat
  reportBytes : Nat
  faultVA : Nat
  faultLog2 : Nat
  handler : Nat
  asleep : Option Nat
  wlimit : Nat
  budget : Nat
  age : Nat
  ageCap : Nat
  energy : Nat
  faultK : Nat
  frames : List (Nat × Nat)
  disarmed : Bool
  sleepTask : Option Nat
  remap : List Nat
  mapAsked : List Nat
  deriving DecidableEq, Repr

/-- A store posted or in flight (R211, R212): its thread, core, address, bytes and receipt. The outstanding stores of a
core are its store buffer (R208). -/
structure Store where
  id : Nat
  tid : Nat
  ctx : Nat
  core : Nat
  va : Nat
  pa : Nat
  size : Nat
  val : Nat
  receipt : BitVec 16
  deriving DecidableEq, Repr

/-- A region tag at a granule (R231, R232). -/
structure RaceTag where
  task : BitVec 24
  seq : BitVec 2
  deriving DecidableEq, Repr

/-- Race metadata of one 8-byte granule of a checked page (R232, R233): readers beyond the fourth are spilled. -/
structure RaceEnt where
  granule : Nat
  writer : Option RaceTag
  readers : List RaceTag
  deriving DecidableEq, Repr

/-- A tail write on its way to its descriptor's home (R278, R289, R432): `pa` is the descriptor's translation where the write
has one, and `num` its number in the order of issue. -/
structure TailOp where
  ctx : Nat
  q : Nat
  v : Word
  pa : Option Nat
  num : Nat
  tid : Nat
  after : List Nat
  deriving DecidableEq, Repr

/-- Who waits on a translation fault (R203, R204, R422); a piece is named by its place in its operation. -/
inductive FaultWaiter where
  | thread (tid : Nat)
  | xfer (core id piece : Nat)
  | rowop (core id chunk : Nat)
  | sub (cluster id entry piece : Nat)
  | loader (pipe chan piece : Nat)
  | storer (pipe chan piece : Nat)
  | encoder (stream : Nat)
  | bar2 (func : Nat)
  | put (src : Nat) (seq : Nat)
  deriving DecidableEq, Repr

/-- An outstanding fault record (R203, R456). `slot` is the ring slot once written. -/
structure FaultRec where
  ctx : Nat
  page : Nat
  kind : Nat
  reason : Nat
  level : Nat
  waiters : List FaultWaiter
  coord : Word
  cycle : Nat
  k : Nat
  written : Bool
  deriving DecidableEq, Repr

/-- Which queue or channel end a waiter waits at (R285, R286). -/
inductive QKey where
  | push (ctx q : Nat)
  | pop (ctx q : Nat)
  | send (pipe ch : Nat)
  | recv (pipe ch : Nat)
  deriving DecidableEq, Repr

/-- A registered waiter (R286), in order of arrival. `hold` is the cycle from which a unit is held for it; `passed` marks one
whose hold has lapsed, with the number of free units that were there then: it is held one only when more become available.
`ext` is CFG.EXT as read at issue (R274). -/
structure QWait where
  key : QKey
  tid : Nat
  hold : Option Nat
  passed : Option Nat
  ext : Bool
  deriving DecidableEq, Repr

/-- A loader end of a channel (R300). -/
structure Loader where
  va : Nat
  stride : Nat
  tdesc : Word
  slotsz : Nat
  count : Nat
  nextTile : Nat
  pieces : List Piece
  cursor : Nat
  active : Bool
  status : Nat
  failva : Nat
  deriving DecidableEq, Repr

/-- A record a storer is writing (R301): the sender, destination, descriptor, barrier, the pieces left. -/
structure StorerJob where
  sender : Nat
  senderCore : Nat
  va : Nat
  tdesc : Word
  bar : Option (Nat × Nat)
  pieces : List Piece
  cursor : Nat
  deriving DecidableEq, Repr

/-- A channel of a pipeline (R291, R297-R301). `recs` are the records in the buffer, oldest first, with their senders (task and core);
`taken` lists loader slots held by receivers. -/
structure Chan where
  n : Nat
  prod : Nat
  cons : Nat
  allow : Nat
  buf : Nat
  cluster : Nat
  sent : Nat
  recvd : Nat
  opened : Nat
  gone : Bool
  taken : List (Nat × Nat)
  senders : List (Nat × (Nat × Nat))
  loader : Option Loader
  storing : Option StorerJob
  deriving DecidableEq, Repr

/-- A stage of a pipeline (R297, R299). -/
structure Stage where
  s : Nat
  entry : Nat
  budget : Nat
  rect : Word
  phases : Nat
  prio : Nat
  arg : Word
  live : List Nat
  released : Bool
  deriving DecidableEq, Repr

/-- A launched pipeline (R297-R299). `closing` lists closings of channels by killed tasks with the stores they follow
(R295). -/
structure Pipeline where
  id : Nat
  ctx : Nat
  table : Nat
  done : Word
  nchan : Nat
  placed : Bool
  killed : Nat
  stages : List Stage
  chans : List Chan
  closing : List (Nat × List Nat)
  deriving DecidableEq, Repr

/-- A bank attention record (R400). -/
structure AqRec where
  m : W32
  s : W32
  empty : Bool
  err : Bool
  merged : Bool
  dim : Nat
  stack : Nat
  page : Nat
  bank : Nat
  errmask : Word
  errpos : Nat
  npos : Nat
  num : Word
  a : List W32
  deriving DecidableEq, Repr

/-- A posted query (R399, R403, R415), with the result bytes written before its completion (R409). Each page carries its physical address and stack bank, the number of its rows scanned
and its record; `vas` are the pages' virtual addresses; `handed` marks a query inside the stack's controller. -/
structure Query where
  id : Nat
  tid : Nat
  ctx : Nat
  core : Nat
  stack : Nat
  num : Word
  desc : AqDesc
  handed : Bool
  early : List Nat
  pages : List ((Nat × Nat) × (Nat × AqRec))
  vas : List Nat
  after : List Nat
  deriving DecidableEq, Repr

/-- An HBM stack and its base die (R371-R391). `wbuf` is the posted-write buffer, lines in order of entry;
`mapOut` names the DRAM die being mapped out (R394). -/
structure Stack where
  n : Nat
  dies : BitVec 16
  igran : Nat
  state : Nat
  localsa : Nat
  alim : Nat
  alimMax : Nat
  selfRefresh : Option Nat
  stalled : Bool
  mapOut : Option Nat
  wbuf : List Nat
  deriving DecidableEq, Repr

/-- One step of the budget controller, kept to be undone (R318): the activate limits before it, or a duty step. -/
inductive PowerStep where
  | alim (before : List (Nat × Nat))
  | duty
  deriving DecidableEq, Repr

/-- An event for a function's ring (R425, R426): CLASS, CTXID or 0xFFFF, FUNC, and the 32 bytes of RECORD. -/
structure Event where
  cls : Nat
  ctx : Nat
  func : Nat
  record : Nat
  deriving DecidableEq, Repr

/-- A BAR2 access that waits, with the job it was aimed at when it arrived (R422, R423), or a doorbell behind it. -/
inductive Bar2Req where
  | read (ctx va size : Nat)
  | write (ctx va size val : Nat)
  | fetchAdd (ctx va val : Nat)
  | doorbell (ctx q : Nat) (v : Word)
  deriving DecidableEq, Repr

/-- A PCIe function (R421-R426). `lastRead` is the data of the last completed BAR2 read or FetchAdd; `msixTable` holds the
MSI-X table's bytes, `msix` the vectors signalled. -/
structure Func where
  n : Nat
  aperture : Option (Nat × Nat)
  doorbells : List (Nat × (Nat × Nat))
  rbase : Word
  log2n : BitVec 5
  en : Bool
  write : Word
  read : Word
  held : List Event
  bar2 : List Bar2Req
  lastRead : Option Nat
  msixTable : Mem
  msix : List Nat
  deriving DecidableEq, Repr

/-- A fabric message body (R430). -/
inductive FabMsg where
  | resolve (handle value : Word) (cause kind : Nat) (want : Bool) (token : Word)
  | resolveReply (handle token : Word) (won : Bool) (status : Nat)
  | touch (handle proxy : Word)
  | touchReply (handle proxy : Word) (state cause : Nat) (value : Word)
  | tail (desc value : Word)
  | put (dst : Nat) (number total plen : Nat) (note : Word) (data : Nat)
  | putAck (number bytes status failva : Nat)
  deriving DecidableEq, Repr

/-- A message sent and not yet acknowledged (R431), with the ACK it carries (R429). -/
structure SentMsg where
  seq : Nat
  ack : Nat
  sctx : Nat
  dctx : Nat
  body : FabMsg
  resent : Nat
  at_ : Nat
  deriving DecidableEq, Repr

/-- A peer package and the streams with it (R428, R431): `denied` is a put piece whose page fault was answered with DENY or POISON
(SEQ, status, page), `port` the Ethernet port of the stream to it. -/
structure Peer where
  chip : Nat
  addr : BitVec 128
  up : Bool
  port : Nat
  sendSeq : Nat
  recvSeq : Nat
  denied : Option (Nat × (Nat × Nat))
  unacked : List SentMsg
  deriving DecidableEq, Repr

/-- An open encoder stream (R434-R438); `sinceKey` counts the frames from the last keyframe on. -/
structure Stream where
  n : Nat
  ctx : Nat
  codec : Nat
  width : Nat
  height : Nat
  rate : Nat
  keyint : Nat
  etl : Word
  eissued : Word
  frames : List Frame
  nextKey : Bool
  sinceKey : Nat
  deriving DecidableEq, Repr

/-- A firmware core (R439-R442): its scratchpad pool, trap vectors and region guards. -/
structure FwCore where
  die : Nat
  n : Nat
  spad : Mem
  spadUE : List Nat
  tagFull : List Nat
  barriers : List (Nat × Barrier)
  sregs : List SWrite
  ftbase0 : Word
  ftbase1 : Word
  guards : Vector Word 16
  halted : Bool
  deriving DecidableEq, Repr

/-- An update activation in progress (R454): the command's SEQ, the functions paused and those that have answered. -/
structure Quiesce where
  seq : Nat
  acks : List Nat
  need : List Nat
  timeoutAt : Nat
  deriving DecidableEq, Repr

/-- A firmware image (R450, R451): security version, the save-frame layouts it reads, and its SM3 digest. -/
structure Image where
  svn : Nat
  layouts : List Nat
  digest : Nat
  deriving DecidableEq, Repr

/-- A page migration in progress (R392, R393): the job, the leaf's place in its table, the leaf and level, the page's first virtual
address, and the new page. -/
structure Migration where
  ctx : Nat
  addr : Nat
  leaf : Word
  level : Nat
  va : Nat
  newPa : Nat
  deriving DecidableEq, Repr

/-- A cached translation (R197): where, the job, the level its entry stands at, the first virtual address it covers, and
the entry. -/
structure TlbEnt where
  place : TlbPlace
  ctx : Nat
  level : Nat
  base : Nat
  entry : Word
  deriving DecidableEq, Repr

/-- What the environment makes happen next (log 3). -/
inductive Choice where
  /-- one of the asynchronous steps or outside acts of the opcode table -/
  | event (i : Instr)
  /-- the slot of thread `tid` arrives -/
  | issue (tid : Nat)
  /-- `n` cycles pass in which nothing issues -/
  | advance (n : Nat)
  /-- a local byte of a transfer is read or written before its piece (R173), a destination byte of a row operation or of a drain before
  its chunk or row (R381, R338), a result byte of a query before its completion (R409) -/
  | earlyXfer (core id byte : Nat)
  | earlyRow (core id byte : Nat)
  | earlyQuery (id byte : Nat)
  | earlyDrain (cluster idx acc byte : Nat)
  /-- a word of an array becomes uncorrectable (R185, R389, R455) -/
  | upsetHbm (pa : Nat)
  | upsetSpad (core addr : Nat)
  | upsetTile (cluster addr : Nat)
  | upsetEngine (cluster idx tile word : Nat)
  | upsetReg (tid reg word : Nat)
  /-- a single-bit error of a core's pool or a cluster's tile store is corrected and counted (R185) -/
  | corrected (tile : Bool) (place : Nat)
  /-- an instruction cache gives up a line, or a word of one becomes uncorrectable (R116) -/
  | dropFetched (unit line : Nat)
  | upsetFetch (unit word : Nat)
  /-- firmware passes an outstanding fault record to the host (R203, R425), or ends a job that is asleep (R147, R426) -/
  | passFault (ctx page : Nat)
  | endAsleep (ctx : Nat)
  /-- firmware sets the package's power limit (R317), a stack's ALIMMAX (R385), the corrected-error threshold (R391), the critical and exit
  temperatures (R388) -/
  | setPower (watts : Nat)
  | setAlimMax (stack value : Nat)
  | setCeThresh (count : Nat)
  | setTemps (crit exit : Nat)
  deriving DecidableEq, Repr

/-- The machine. -/
structure State where
  /-- CYCLE, cycles since package reset (R94) -/
  cycle : Word
  /-- the thread whose slot it is -/
  cur : Nat
  /-- what happens next, in order; when empty, what comes next by itself (log 3) -/
  agenda : List Choice
  /-- the model's own counter behind free values -/
  freeCtr : Nat
  /-- numbers for tasks, stores, transfers, queries and row operations -/
  nextTid : Nat
  nextId : Nat
  /-- the last task number given (R231) -/
  lastNum : BitVec 24
  threads : List Thread
  jobs : List Job
  cores : List Core
  clusters : List Cluster
  fwcores : List FwCore
  hbm : List Stack
  /-- HBM contents by physical address, and poisoned 8-byte words (R389) -/
  mem : Mem
  poison : List Nat
  /-- cached translations (R197) -/
  tlb : List TlbEnt
  /-- lines in the instruction caches, by core (a firmware core is numbered 2,048 + 8·die + n), and their words that are
  uncorrectable (R116) -/
  icache : List (Nat × Nat)
  icacheUE : List (Nat × Nat)
  stores : List Store
  race : List RaceEnt
  /-- dies whose full race spill area has been reported since it last had room (R233) -/
  spillTold : List Nat
  /-- the last clearing window that cleared, plus one (R228) -/
  cleared : Nat
  noteOps : List NoteOp
  tails : List TailOp
  faults : List FaultRec
  qwaits : List QWait
  pipelines : List Pipeline
  queries : List Query
  streams : List Stream
  funcs : List Func
  hostMem : Mem
  /-- CHIP, the package number (R6), the fabric's UDP port, peers and grants (DCTX, SRC, SCTX) (R428, R452) -/
  chip : BitVec 12
  udpPort : BitVec 16
  peers : List Peer
  grants : List (Nat × (Nat × Nat))
  /-- Ethernet ports that have failed (R431) -/
  portsDown : List Nat
  /-- bytes performed here of each remote put: (source chip, put number) (R433) -/
  putsIn : List ((Nat × Nat) × Nat)
  /-- the package power limit in watts and the controller's steps (R317, R318) -/
  powerLimit : Nat
  /-- the issue duty D of task phases, in sixteenths (R318, R319) -/
  duty : Nat
  powerSteps : List PowerStep
  /-- start-up stage (R449), the active image and the staged bytes (R450, R452, R454) -/
  stage : Nat
  booted : Bool
  image : Image
  staged : Mem
  stagedLen : Nat
  quiesce : Option Quiesce
  /-- the mailbox's last answer: SEQ, STATUS, the stage it names, body (R452) -/
  mboxSeq : Nat
  mboxStatus : Nat
  mboxStage : Nat
  mboxBody : List Byte
  /-- the 1,024 bytes the host writes a command to (R452) -/
  mboxBuf : Mem
  /-- the first image failed its verification; stacks that failed their training (R449) -/
  bootFail : Bool
  stacksFailed : List Nat
  /-- page migrations in progress (R392) -/
  migrations : List Migration
  /-- corrected single-bit errors of each core's pool (a firmware core is numbered 2,048 + 8·die + n) and of each cluster's tile store,
  counted for firmware (R185) -/
  ceCores : List (Nat × Nat)
  ceTiles : List (Nat × Nat)
  /-- the key CSRs (R443) -/
  keydig : Vector Word 4
  minsvn : W32
  actsvn : W32
  attaddr : Word
  attbusy : Bool
  /-- firmware thresholds: corrected errors per second (R391), critical and exit temperatures (R388) -/
  ceThresh : Nat
  critTemp : Nat
  exitTemp : Nat
  deriving DecidableEq, Repr
/-- Why the machine stops. -/
inductive Fault where
  /-- Raised by an access of a firmware core to a physical address behind which no memory stands (R439): the manual gives
  it no effect. Safe: the machine stops where the hardware may go on. -/
  | absentPhysical (pa : Nat)
  deriving DecidableEq, Repr

/-- Why a step has no meaning. -/
inductive Refusal where
  /-- An instruction not modelled yet; raised by the arms of exec that have no meaning. Safe: the machine stops. -/
  | notModelled (mnemonic : String)
  /-- An instruction word with no thread holding a phase to issue it; raised by every instruction's meaning. Safe: the
  hardware issues nothing then (R113). -/
  | noThread
  /-- An asynchronous step or outside act that cannot happen in this state; raised by every event's meaning. Safe: the
  agenda asked for something the hardware does not do now. -/
  | notEnabled
  deriving DecidableEq, Repr

/-- A barrier after ownership is granted (R182). -/
def Barrier.zero : Barrier := ⟨0, 0, 0, false, false⟩

/-- An HBM stack after package reset (R371, R375, R449): absent until it is trained (log 4). -/
def Stack.reset (n : Nat) : Stack :=
  { n := n, dies := 0#16, igran := 0, state := 0, localsa := 0, alim := 49152, alimMax := 49152, selfRefresh := none,
    stalled := false, mapOut := none, wbuf := [] }

/-- A firmware core after package reset (R439-R442); its s registers, for which no rule gives a value, are zero and full (log 5, 7). -/
def FwCore.reset (die n : Nat) : FwCore :=
  { die := die, n := n, spad := [], spadUE := [], tagFull := [], barriers := [], sregs := [],
    ftbase0 := Config.romEntry, ftbase1 := 0#64, guards := Vector.replicate 16 12#64, halted := false }

/-- The package right after reset (R449): stage 0, no job, no thread, every core and cluster unowned, memory with nothing
listed. Firmware core 0 of die 0 starts at the ROM entry with the reset release (PACKAGE_RESET) (log 1, 2, 4, 6). -/
def State.reset : State :=
  { cycle := 0#64, cur := 0, agenda := [], freeCtr := 0, nextTid := 1, nextId := 0, lastNum := 0#24, threads := [], jobs := [], cores := [],
    clusters := [],
    fwcores := [FwCore.reset 0 0, FwCore.reset 0 1, FwCore.reset 0 2, FwCore.reset 0 3, FwCore.reset 0 4,
      FwCore.reset 0 5, FwCore.reset 0 6, FwCore.reset 0 7, FwCore.reset 1 0, FwCore.reset 1 1, FwCore.reset 1 2,
      FwCore.reset 1 3, FwCore.reset 1 4, FwCore.reset 1 5, FwCore.reset 1 6, FwCore.reset 1 7],
    hbm := [Stack.reset 0, Stack.reset 1, Stack.reset 2, Stack.reset 3, Stack.reset 4, Stack.reset 5, Stack.reset 6,
      Stack.reset 7, Stack.reset 8, Stack.reset 9, Stack.reset 10, Stack.reset 11],
    mem := [], poison := [], tlb := [], icache := [], icacheUE := [], stores := [], race := [], spillTold := [], cleared := 0, noteOps := [], tails := [], faults := [],
    qwaits := [], pipelines := [], queries := [], streams := [], funcs := [], hostMem := [], chip := 0#12,
    udpPort := 47000#16, peers := [], grants := [], portsDown := [], putsIn := [], powerLimit := 2400, duty := 16, powerSteps := [], stage := 0,
    booted := false, image := ⟨0, [], 0⟩, staged := [], stagedLen := 0, quiesce := none, mboxSeq := 0, mboxStatus := 0, mboxStage := 0,
    mboxBody := [], mboxBuf := [], bootFail := false, stacksFailed := [], migrations := [], ceCores := [], ceTiles := [], keydig := #v[Config.keyDigest 0, Config.keyDigest 1, Config.keyDigest 2, Config.keyDigest 3],
    minsvn := Config.fusedSvn, actsvn := 0#32, attaddr := 0#64, attbusy := false, ceThresh := 4096, critTemp := 105,
    exitTemp := 95 }

end Sys2Proof.Machine
end

