-- ==== Sys2Proof/Machine/Memory.lean ====
section
/-! DEFINITION. Byte memories (R7): a list of cells at strictly rising addresses with no zero byte listed, so that equal
memories are equal lists. Every byte that nothing has written reads zero (log 1). -/

namespace Sys2Proof.Machine

/-- The canonical form above an address bound: addresses strictly rise and no listed byte is zero. -/
def Memory.sorted : Nat → Mem → Bool
  | _, [] => true
  | lo, c :: m => decide (lo ≤ c.1) && c.2 != 0#8 && Memory.sorted (c.1 + 1) m

/-- The canonical form of a memory (log 1). -/
def Memory.wf (m : Mem) : Bool := Memory.sorted 0 m

/-- The byte at an address (log 1). -/
def Memory.get : Mem → Nat → Byte
  | [], _ => 0#8
  | c :: m, a => if c.1 = a then c.2 else Memory.get m a

/-- Write a nonzero byte, keeping the addresses rising. -/
def Memory.put : Mem → Nat → Byte → Mem
  | [], a, v => [(a, v)]
  | c :: m, a, v => if a < c.1 then (a, v) :: c :: m else if a = c.1 then (a, v) :: m else c :: Memory.put m a v

/-- Remove a byte from the list. -/
def Memory.drop (m : Mem) (a : Nat) : Mem := m.filter fun c => c.1 != a

/-- Write a byte; writing zero removes the entry (log 1). -/
def Memory.set (m : Mem) (a : Nat) (v : Byte) : Mem := if v = 0#8 then Memory.drop m a else Memory.put m a v

/-- The little-endian number in `n` bytes from `a` (R7). -/
def Memory.read (m : Mem) (a : Nat) : Nat → Nat
  | 0 => 0
  | n + 1 => (Memory.get m a).toNat + 256 * Memory.read m (a + 1) n

/-- Write the low `n` bytes of a number from `a`, least significant first (R7). -/
def Memory.write (m : Mem) (a : Nat) : Nat → Nat → Mem
  | 0, _ => m
  | n + 1, v => Memory.write (Memory.set m a (BitVec.ofNat 8 v)) (a + 1) n (v / 256)

/-- Make `n` bytes from `a` zero. -/
def Memory.clear (m : Mem) (a n : Nat) : Mem := m.filter fun c => decide (c.1 < a) || decide (a + n ≤ c.1)

/-- A dword and a word read as bit vectors. -/
def Memory.read64 (m : Mem) (a : Nat) : Word := BitVec.ofNat 64 (Memory.read m a 8)
def Memory.read32 (m : Mem) (a : Nat) : W32 := BitVec.ofNat 32 (Memory.read m a 4)

/-- The bytes of a number, least significant first. -/
def bytesOf : Nat → Nat → List Byte
  | 0, _ => []
  | n + 1, v => BitVec.ofNat 8 v :: bytesOf n (v / 256)

/-- The number of a list of bytes, least significant first. -/
def ofBytes : List Byte → Nat
  | [] => 0
  | b :: bs => b.toNat + 256 * ofBytes bs

/-- Bytes `lo` to `lo + n - 1` of a number. -/
def slice (v lo n : Nat) : Nat := v / 256 ^ lo % 256 ^ n

/-- Aligned 8-byte words that lists of uncorrectable words name: those that hold a byte of [a, a + n). -/
def touchedWords (unit a n : Nat) : List Nat :=
  if n = 0 then [] else (List.range ((a + n - 1) / unit - a / unit + 1)).map fun i => (a / unit + i) * unit

/-- The first byte of [a, a + n) that lies in a listed uncorrectable word of `unit` bytes. -/
def firstBad (bad : List Nat) (unit a n : Nat) : Option Nat :=
  match (touchedWords unit a n).find? fun w => bad.contains w with
  | some w => some (max w a)
  | none => none

/-- Uncorrectable words after a write of [a, a + n): a word wholly covered becomes good (R186, R389). -/
def healed (bad : List Nat) (unit a n : Nat) : List Nat :=
  bad.filter fun w => !(decide (a ≤ w) && decide (w + unit ≤ a + n))

/-- The lanes of a vector register as one number, lane 0 lowest (R105). -/
def VReg.toNat (v : VReg) : Nat := v.toList.foldr (fun x acc => x.toNat + 2 ^ 32 * acc) 0

/-- A vector register from the low 1,024 bits of a number. -/
def VReg.ofNat (x : Nat) : VReg := Vector.ofFn fun i => BitVec.ofNat 32 (x / 2 ^ (32 * i.val))

end Sys2Proof.Machine
end

