-- ==== Sys2Proof/Machine/Access.lean ====
section
/-! DEFINITION. Reading and replacing the things a state lists, by their names: threads, jobs, cores, clusters, firmware
cores, stacks. And the geometry of R3-R5. -/

namespace Sys2Proof.Machine

/-- Geometry (R3, R4). A core is numbered 64·Y + X; a cluster 64·die + cluster number. -/
def coreX (c : Nat) : Nat := c % 64
def coreY (c : Nat) : Nat := c / 64
def coreDie (c : Nat) : Nat := coreX c / 32
def coreCluster (c : Nat) : Nat := 64 * coreDie c + 8 * (coreY c / 4) + (coreX c % 32) / 4
/-- 4·ky + kx. -/
def coreInCluster (c : Nat) : Nat := 4 * (coreY c % 4) + coreX c % 4
/-- Core 4·ky + kx of a cluster. -/
def clusterCore (cl k : Nat) : Nat :=
  64 * (4 * (cl % 64 / 8) + k / 4) + (32 * (cl / 64) + 4 * (cl % 8) + k % 4)
/-- The cluster's package coordinate (R251). -/
def clusterCX (cl : Nat) : Nat := 8 * (cl / 64) + cl % 8
def clusterCY (cl : Nat) : Nat := cl % 64 / 8
def clusterAt (cx cy : Nat) : Nat := 64 * (cx / 8) + 8 * cy + cx % 8
/-- Hop distance (R251). -/
def hops (a b : Nat) : Nat :=
  (max (clusterCX a) (clusterCX b) - min (clusterCX a) (clusterCX b))
    + (max (clusterCY a) (clusterCY b) - min (clusterCY a) (clusterCY b))
/-- COORD (R94). -/
def coordOf (chip : BitVec 12) (c : Nat) : Word :=
  BitVec.ofNat 64 (chip.toNat * 2 ^ 28 + coreDie c * 2 ^ 27 + (coreCluster c % 64) * 2 ^ 16 + coreY c * 2 ^ 8 + coreX c)
/-- A core number from X and Y. -/
def coreAt (x y : Nat) : Nat := 64 * y + x

/-- Look up in a list of numbered values, with a default. -/
def lookupD (l : List (Nat × Nat)) (k d : Nat) : Nat := ((l.find? fun e => e.1 == k).map (·.2)).getD d
/-- Set a numbered value. -/
def assign (l : List (Nat × α)) (k : Nat) (v : α) : List (Nat × α) := (k, v) :: l.filter fun e => e.1 != k

/-- The thread with a task number. -/
def State.thread? (s : State) (tid : Nat) : Option Thread := s.threads.find? fun t => t.tid == tid
/-- Replace a thread by its task number; a thread that is not there stays absent. -/
def State.setThread (s : State) (t : Thread) : State :=
  { s with threads := s.threads.map fun u => if u.tid = t.tid then t else u }
/-- Change a thread. -/
def State.modThread (s : State) (tid : Nat) (f : Thread → Thread) : State :=
  { s with threads := s.threads.map fun u => if u.tid = tid then f u else u }
/-- Remove a thread. -/
def State.dropThread (s : State) (tid : Nat) : State := { s with threads := s.threads.filter fun u => u.tid != tid }

def State.job? (s : State) (ctx : Nat) : Option Job := s.jobs.find? fun j => j.ctx == ctx
def State.modJob (s : State) (ctx : Nat) (f : Job → Job) : State :=
  { s with jobs := s.jobs.map fun j => if j.ctx = ctx then f j else j }

/-- An unowned core (R75, R76). -/
def Core.blank (id : Nat) : Core :=
  { id := id, owner := none, poolReg := 0, poolSpad := 0, poolL1 := 0, tagged := 0, spad := [], spadUE := [],
    tagFull := [], barriers := [], sregs := [], inbox := [], outb := [], inb := [], xq := [], rowq := [], l1 := [] }
/-- A core; one that is not listed is unowned. -/
def State.core (s : State) (id : Nat) : Core := (s.cores.find? fun c => c.id == id).getD (Core.blank id)
def State.setCore (s : State) (c : Core) : State := { s with cores := c :: s.cores.filter fun d => d.id != c.id }
def State.modCore (s : State) (id : Nat) (f : Core → Core) : State := s.setCore (f (s.core id))

/-- A cluster that firmware has not released and no job holds (R449). -/
def Cluster.blank (id : Nat) : Cluster :=
  { id := id, released := false, failed := false, owner := none, tile := [], tileUE := [], ltags := [], engines := [], dslots := [],
    notes := [], gens := [], records := [], contracts := [], ending := [], slots := [], vault := 0 }
def State.cluster (s : State) (id : Nat) : Cluster := (s.clusters.find? fun c => c.id == id).getD (Cluster.blank id)
def State.setCluster (s : State) (c : Cluster) : State :=
  { s with clusters := c :: s.clusters.filter fun d => d.id != c.id }
def State.modCluster (s : State) (id : Nat) (f : Cluster → Cluster) : State := s.setCluster (f (s.cluster id))

def State.fwcore (s : State) (die n : Nat) : FwCore :=
  (s.fwcores.find? fun c => c.die == die && c.n == n).getD (FwCore.reset die n)
def State.setFw (s : State) (c : FwCore) : State :=
  { s with fwcores := c :: s.fwcores.filter fun d => !(d.die == c.die && d.n == c.n) }

def State.stack (s : State) (n : Nat) : Stack := (s.hbm.find? fun k => k.n == n).getD (Stack.reset n)
def State.setStack (s : State) (k : Stack) : State :=
  { s with hbm := s.hbm.map fun d => if d.n = k.n then k else d }

/-- A PCIe function with nothing bound (R421-R426). -/
def Func.blank (n : Nat) : Func :=
  { n := n, aperture := none, doorbells := [], rbase := 0#64, log2n := 0#5, en := false, write := 0#64, read := 0#64,
    held := [], bar2 := [], lastRead := none, msixTable := [], msix := [] }
def State.func (s : State) (n : Nat) : Func := (s.funcs.find? fun f => f.n == n).getD (Func.blank n)
def State.setFunc (s : State) (f : Func) : State := { s with funcs := f :: s.funcs.filter fun g => g.n != f.n }

/-- CYCLE as a number (log 8). -/
def State.now (s : State) : Nat := s.cycle.toNat

/-- Where a thread runs: its task core, whether or not it holds a phase; the core a framed task was evicted from. -/
def Thread.core? (t : Thread) : Option Nat :=
  match t.loc with
  | .phase c _ => some c
  | .slot c _ => some c
  | .frame _ c _ _ => some c
  | .fw _ _ _ => none
/-- The core number, 0 for a firmware thread. -/
def Thread.coreId (t : Thread) : Nat := t.core?.getD 0
/-- The phase a thread holds. -/
def Thread.phase? (t : Thread) : Option Nat :=
  match t.loc with
  | .phase _ p => some p
  | .fw _ _ p => some p
  | _ => none
/-- The phase a task holds or last held: the phase whose inboxes are its own (R88, R137). -/
def Thread.lastPhase (t : Thread) : Nat :=
  match t.loc with
  | .phase _ p => p
  | .slot _ p => p
  | .frame _ _ p _ => p
  | .fw _ _ p => p
/-- The unit whose store buffer a thread uses: its core, or 2,048 + 8·die + n for a firmware core. -/
def Thread.unit (t : Thread) : Nat :=
  match t.loc with
  | .fw d n _ => 2048 + 8 * d + n
  | _ => t.coreId
def Thread.isFw (t : Thread) : Bool :=
  match t.loc with
  | .fw _ _ _ => true
  | _ => false
/-- Whether a thread is evicted to a save frame (R138). -/
def Thread.evicted (t : Thread) : Bool :=
  match t.loc with
  | .frame _ _ _ _ => true
  | _ => false
/-- The cluster of a task thread. -/
def Thread.cluster (t : Thread) : Nat := coreCluster t.coreId

/-- Whether a job owns a core. -/
def State.owns (s : State) (ctx core : Nat) : Bool := (s.core core).owner == some ctx
/-- Whether a job holds a cluster's resources (R445). -/
def State.holds (s : State) (ctx cl : Nat) : Bool := (s.cluster cl).owner == some ctx

/-- The stores next to a thread, on a task core or a firmware core (R151, R439): scratchpad, its uncorrectable words, its
length, the tagged region's length and full words, the barriers and the history of the core-shared registers. -/
structure LocalStore where
  spad : Mem
  bad : List Nat
  size : Nat
  tagged : Nat
  tagFull : List Nat
  barriers : List (Nat × Barrier)
  sregs : List SWrite
  deriving DecidableEq, Repr

/-- The stores next to a core. -/
def Core.localStore (c : Core) : LocalStore :=
  { spad := c.spad, bad := c.spadUE, size := c.poolSpad * 4096, tagged := c.tagged * 4096, tagFull := c.tagFull,
    barriers := c.barriers, sregs := c.sregs }

/-- The stores next to a firmware core, whose 256 KiB pool is all scratchpad (R439). -/
def FwCore.localStore (f : FwCore) : LocalStore :=
  { spad := f.spad, bad := f.spadUE, size := 262144, tagged := 0, tagFull := f.tagFull, barriers := f.barriers,
    sregs := f.sregs }

def State.near (s : State) (t : Thread) : LocalStore :=
  match t.loc with
  | .fw d n _ => (s.fwcore d n).localStore
  | _ => (s.core t.coreId).localStore

/-- Put a core's stores back. -/
def Core.withStore (c : Core) (l : LocalStore) : Core :=
  { c with spad := l.spad, spadUE := l.bad, tagFull := l.tagFull, barriers := l.barriers, sregs := l.sregs }
def FwCore.withStore (f : FwCore) (l : LocalStore) : FwCore :=
  { f with spad := l.spad, spadUE := l.bad, tagFull := l.tagFull, barriers := l.barriers, sregs := l.sregs }

def State.setNear (s : State) (t : Thread) (l : LocalStore) : State :=
  match t.loc with
  | .fw d n _ => s.setFw ((s.fwcore d n).withStore l)
  | _ => s.modCore t.coreId fun c => c.withStore l

/-- An event's free number and the advance of the counter behind free values (log 2). -/
def State.tickFree (s : State) : State := { s with freeCtr := s.freeCtr + 1 }

/-- Outstanding stores of a thread (R211) and of a core, its store buffer (R208). -/
def State.storesOf (s : State) (tid : Nat) : List Store := s.stores.filter fun x => x.tid == tid
def State.bufferOf (s : State) (core : Nat) : List Store := s.stores.filter fun x => x.core == core
/-- Whether every store of a list has been performed. -/
def State.performed (s : State) (ids : List Nat) : Bool := ids.all fun i => s.stores.all fun x => x.id != i
/-- The outstanding stores of a thread, by number: what a release waits for (R223). -/
def State.earlier (s : State) (tid : Nat) : List Nat := (s.storesOf tid).map (·.id)

end Sys2Proof.Machine
end

