-- ==== Sys2Proof/Machine/Operands.lean ====
section
/-! DEFINITION. Register operands (R45, R77-R88, R100, R105): reading a field, waiting on full/empty bits, the
core-shared registers' two views, the neighbour ports, and writing a destination. -/

namespace Sys2Proof.Machine

/-- Why an instruction does not complete at its issue: a trap, or a wait at a blocking point (R134). -/
inductive Stop where
  | trap (c : Cause) (v : Word)
  | park (w : Wake)
  deriving DecidableEq, Repr

/-- What an instruction's meaning answers: the thread as it is afterwards and the rest of the state, or a stop. -/
abbrev Done := Except Stop (Thread × State)

def wake (k : WakeKind) (detail : Nat) (operand : Word) : Wake := ⟨k, BitVec.ofNat 32 detail, operand, 0#2, false, false⟩
/-- The wait for a reply by a word with window `w`, in which its destination is named (R46, R135) (log 46). -/
def memWake (w : BitVec 2) (operand : Word) : Wake := { wake .memory 0 operand with win := w }

/-- The core-shared register a value 46 or 47 names in a window (R46). -/
def sReg (w : BitVec 2) (r : Reg) : Nat := 2 * w.toNat + (r.toNat - 46)

def isPort (r : Reg) : Bool := decide (42 ≤ r.toNat) && decide (r.toNat ≤ 45)
def isShared (r : Reg) : Bool := r == 46#6 || r == 47#6
def isVec (r : Reg) : Bool := decide (48 ≤ r.toNat)

/-- The direction of a port register (R45). -/
def portDir (r : Reg) : Dir :=
  if r = 42#6 then .east else if r = 43#6 then .north else if r = 44#6 then .west else .south
def Dir.opposite : Dir → Dir
  | .east => .west
  | .west => .east
  | .north => .south
  | .south => .north

/-- The neighbour of a core in a direction, unless the direction leaves the mesh or crosses between the dies (R86, R87). -/
def neighbour (core : Nat) (d : Dir) : Option Nat :=
  let x := coreX core
  let y := coreY core
  match d with
  | .east => if x = 63 ∨ x = 31 then none else some (coreAt (x + 1) y)
  | .west => if x = 0 ∨ x = 32 then none else some (coreAt (x - 1) y)
  | .north => if y = 31 then none else some (coreAt x (y + 1))
  | .south => if y = 0 then none else some (coreAt x (y - 1))

/-- The neighbour a thread's port reaches, if the access is allowed (R87) (log 18). -/
def State.portTarget (s : State) (t : Thread) (r : Reg) : Option Nat :=
  match t.core? with
  | some c =>
    if t.lastPhase = 7 then none else
    match neighbour c (portDir r) with
    | some n => if s.owns t.ctx n then some n else none
    | none => none
  | none => none

/-- A value held in an inbox register (R86). -/
def Core.inboxVal (c : Core) (phase : Nat) (d : Dir) : Option Word :=
  (c.inbox.find? fun e => e.1 == (phase, d)).map (·.2)
def Core.fillInbox (c : Core) (phase : Nat) (d : Dir) (v : Word) : Core :=
  { c with inbox := ((phase, d), v) :: c.inbox.filter fun e => e.1 != (phase, d) }
def Core.emptyInbox (c : Core) (phase : Nat) (d : Dir) : Core :=
  { c with inbox := c.inbox.filter fun e => e.1 != (phase, d) }

/-- A core-shared register's current view and delayed view at a cycle (R84); one never written is zero and full (R76) (log 7). -/
def sCurrent (h : List SWrite) (n : Nat) : Word × Bool :=
  match h.find? fun e => e.reg == n with
  | some e => (e.val, e.full)
  | none => (0#64, true)
def sDelayed (h : List SWrite) (n now : Nat) : Word × Bool :=
  match h.find? fun e => e.reg == n && decide (e.cycle + 3 ≤ now) with
  | some e => (e.val, e.full)
  | none => (0#64, true)
/-- Change a core-shared register at the end of a cycle; of the earlier changes those are kept that a delayed view can still
need: all of the last three cycles and the latest one before them. -/
def sChange (h : List SWrite) (now n : Nat) (v : Word) (full : Bool) : List SWrite :=
  let mine := h.filter fun e => e.reg == n
  ⟨now, n, v, full⟩ :: (mine.filter (fun e => decide (now < e.cycle + 3)) ++ (mine.filter fun e => decide (e.cycle + 3 ≤ now)).take 1
    ++ h.filter fun e => e.reg != n)

/-- The value of register values 0-41 (R45). -/
def Ctx.reg (c : Ctx) (r : Reg) : Word :=
  if r = 0#6 then 0#64 else if r = 40#6 then c.q0 else if r = 41#6 then c.q1 else c.x.toList.getD r.toNat 0#64
/-- The full bit of a register of the thread (R77): g0 and the last-result file are always full. -/
def Ctx.isFull (c : Ctx) (r : Reg) : Bool :=
  r == 0#6 || r == 40#6 || r == 41#6 || c.full.getLsbD r.toNat
/-- Write a register value 1-39 and set it full; 0 discards (R45, R81). A write replaces an uncorrectable word. -/
def Ctx.setReg (c : Ctx) (r : Reg) (v : Word) : Ctx :=
  if r = 0#6 then c
  else { c with x := c.x.setIfInBounds r.toNat v, full := c.full ||| (1#64 <<< r.toNat), ue := c.ue.filter (·.1 != r.toNat) }
/-- Mark a register of the thread empty (R81). -/
def Ctx.setEmpty (c : Ctx) (r : Reg) : Ctx := { c with full := c.full &&& ~~~(1#64 <<< r.toNat) }
/-- A vector register by its register value 48-63. -/
def Ctx.vec (c : Ctx) (r : Reg) : VReg := c.v.toList.getD (r.toNat - 48) (Vector.replicate 32 0#32)
/-- Write a vector register and set it full (R105). -/
def Ctx.setVec (c : Ctx) (r : Reg) (v : VReg) : Ctx :=
  { c with v := c.v.setIfInBounds (r.toNat - 48) v, full := c.full ||| (1#64 <<< r.toNat), ue := c.ue.filter (·.1 != r.toNat) }
/-- A mask register: k0 reads all ones (R77). -/
def Ctx.mask (c : Ctx) (k : Nat) : W32 := if k = 0 then BitVec.allOnes 32 else c.k.toList.getD k 0#32
/-- Write a mask; k0 discards (R77). -/
def Ctx.setMask (c : Ctx) (k : Nat) (v : W32) : Ctx := if k = 0 then c else { c with k := c.k.setIfInBounds k v }
/-- A predicate: p0 reads true (R77). -/
def Ctx.pred (c : Ctx) (n : Nat) : Bool := if n = 0 then true else c.p.toList.getD n false
/-- Write a predicate; p0 discards (R77). -/
def Ctx.setPred (c : Ctx) (n : Nat) (b : Bool) : Ctx := if n = 0 then c else { c with p := c.p.setIfInBounds n b }
/-- Enter a scalar result into the last-result file (R78). -/
def Ctx.pushQ (c : Ctx) (v : Word) : Ctx := { c with q1 := c.q0, q0 := v }

/-- The value an ordinary read of a scalar source sees (R45, R84, R86). -/
def srcVal (t : Thread) (s : State) (w : BitVec 2) (r : Reg) : Word :=
  if isPort r then (((s.core t.coreId).inboxVal t.lastPhase (portDir r)).getD 0#64)
  else if isShared r then (sDelayed (s.near t).sregs (sReg w r) s.now).1
  else t.c.reg r
/-- Whether an ordinary read finds the register full. -/
def srcFull (t : Thread) (s : State) (w : BitVec 2) (r : Reg) : Bool :=
  if isPort r then !t.isFw && ((s.core t.coreId).inboxVal t.lastPhase (portDir r)).isSome
  else if isShared r then (sDelayed (s.near t).sregs (sReg w r) s.now).2
  else t.c.isFull r

/-- The first port among fields whose access R87 forbids (log 18). -/
def badPort (t : Thread) (s : State) (rs : List Reg) : Option Reg :=
  rs.find? fun r => isPort r && (s.portTarget t r).isNone

/-- The wake word of empty registers (R135): up to three register values (log 13, 14, 31). -/
def regWake (w : BitVec 2) (rs : List Reg) : Wake :=
  { kind := .reg, detail := BitVec.ofNat 32 (rs.foldr (fun r acc => r.toNat + 64 * acc) 0), operand := 0#64, win := w, wantEmpty := false, cur := false }

/-- Whether the inbox a port destination writes is full (R86). -/
def destBusy (t : Thread) (s : State) (d : Reg) : Bool :=
  isPort d && match s.portTarget t d with
    | some n => ((s.core n).inboxVal t.lastPhase (portDir d).opposite).isSome
    | none => false

/-- The waits and traps that reading `srcs` and writing `dst` can meet, before anything changes (R81, R82, R86, R87): a
forbidden port first, then an uncorrectable register word (R455), then empty sources, then a full inbox. `full` is the
view in which a source is full. -/
def readyBy (full : Reg → Bool) (t : Thread) (s : State) (w : BitVec 2) (srcs dst : List Reg) : Option Stop :=
  match badPort t s (srcs ++ dst) with
  | some r => some (.trap .access (BitVec.ofNat 64 r.toNat))
  | none =>
  if srcs.any fun r => t.c.ue.any fun u => u.1 == r.toNat then some (.trap .ue (Config.registerTval s.freeCtr))
  else match (srcs.filter fun r => !full r).eraseDups with
  | [] => match dst.find? fun d => destBusy t s d with
    | some d => some (.park { kind := .portw, detail := BitVec.ofNat 32 d.toNat, operand := 0#64, win := w, wantEmpty := false, cur := false })
    | none => none
  | es => some (.park (regWake w es))

/-- A wait of a consuming instruction, in the current view (R84). -/
def Stop.current : Stop → Stop
  | .park w => .park { w with cur := true }
  | x => x
/-- `readyBy` for ordinary reads (log 14). -/
def ready (t : Thread) (s : State) (w : BitVec 2) (srcs dst : List Reg) : Option Stop :=
  readyBy (srcFull t s w) t s w srcs dst

/-- The current view of a register's full bit and value, in which the consuming instructions act (R84, R100) (log 32). -/
def nowFull (t : Thread) (s : State) (w : BitVec 2) (r : Reg) : Bool :=
  if isShared r then (sCurrent (s.near t).sregs (sReg w r)).2 else srcFull t s w r
def nowVal (t : Thread) (s : State) (w : BitVec 2) (r : Reg) : Word :=
  if isShared r then (sCurrent (s.near t).sregs (sReg w r)).1 else srcVal t s w r

/-- Mark a register, core-shared register or inbox empty (R81, R100); a firmware core has no inboxes (R439). -/
def markEmpty (t : Thread) (s : State) (w : BitVec 2) (r : Reg) : Thread × State :=
  if isPort r then (t, if t.isFw then s else s.modCore t.coreId fun c => c.emptyInbox t.lastPhase (portDir r))
  else if isShared r then
    let l := s.near t
    (t, s.setNear t { l with sregs := sChange l.sregs s.now (sReg w r) (sCurrent l.sregs (sReg w r)).1 false })
  else ({ t with c := t.c.setEmpty r }, s)

/-- Reading a port empties the inbox (R86) (log 13). -/
def consume (t : Thread) (s : State) (srcs : List Reg) : State :=
  srcs.foldl (fun s r =>
    if isPort r then s.modCore t.coreId fun c => c.emptyInbox t.lastPhase (portDir r) else s) s

/-- Write a scalar destination: a register of the thread, a core-shared register at the end of this cycle, or at once the
neighbour's inbox, which a slot of the neighbour that comes later in this cycle sees (R45, R84, R86) (log 51). -/
def writeReg (t : Thread) (s : State) (w : BitVec 2) (d : Reg) (v : Word) : Thread × State :=
  if isPort d then
    match s.portTarget t d with
    | some n => (t, s.modCore n fun c => c.fillInbox t.lastPhase (portDir d).opposite v)
    | none => (t, s)
  else if isShared d then
    let l := s.near t
    (t, s.setNear t { l with sregs := sChange l.sregs s.now (sReg w d) v true })
  else ({ t with c := t.c.setReg d v }, s)

/-- Write a destination and enter the value into the last-result file (R78). -/
def writeResult (t : Thread) (s : State) (w : BitVec 2) (d : Reg) (v : Word) : Thread × State :=
  let (t, s) := writeReg t s w d v
  ({ t with c := t.c.pushQ v }, s)

/-- The next instruction in order. -/
def Thread.advance (t : Thread) : Thread := { t with pc := t.pc + 4#64, wait := none, taken := [] }

/-- A thread out of the rotation whose operation has read `srcs`: the ports among them are emptied when it completes, and not
where it traps or parks (R82, R86, R129). -/
def Thread.holding (t : Thread) (srcs : List Reg) : Thread := { t with taken := srcs.filter isPort }

/-- Finish a fixed-latency instruction that read `srcs` and gives the scalar result `v` in `d`. -/
def finish (t : Thread) (s : State) (w : BitVec 2) (srcs : List Reg) (d : Reg) (v : Word) : Thread × State :=
  let (t, s) := writeResult t (consume t s srcs) w d v
  (t.advance, s)

/-- Finish an instruction that read `srcs` and changes only the thread, by `f`. -/
def finishWith (t : Thread) (s : State) (srcs : List Reg) (f : Thread → Thread) : Thread × State :=
  ((f t).advance, consume t s srcs)

/-- An instruction that reads scalar sources and gives one scalar result (R98). -/
def scalarOp (w : BitVec 2) (srcs : List Reg) (d : Reg) (f : (Reg → Word) → Word) (t : Thread) (s : State) : Done :=
  match ready t s w srcs [d] with
  | some stop => .error stop
  | none => .ok (finish t s w srcs d (f (srcVal t s w)))

end Sys2Proof.Machine
end

