-- ==== Sys2Proof/Machine/Flags.lean ====
section
/-! DEFINITION. The format prefix (R52-R58, R106): the formats an instruction uses, which formats its family accepts; and
the comparisons that set predicates, masks and 0-or-1 results (R98, R107, R108, R124). -/

namespace Sys2Proof.Machine

/-- Operand and result formats, rounding code and sat bit of one instruction (R54). -/
structure Fmts where
  fa : Nat
  fb : Nat
  fr : Nat
  rc : Nat
  sat : Bool
  deriving DecidableEq, Repr

/-- The latch's fields (R53). -/
def latchFmts (l : BitVec 15) : Fmts :=
  ⟨(l.extractLsb' 11 4).toNat, (l.extractLsb' 7 4).toNat, (l.extractLsb' 3 4).toNat, (l.extractLsb' 1 2).toNat, l.getLsbD 0⟩

/-- The formats in force: the latch with a prefix pending, else the opcode's default (R106). -/
def Thread.fmts (t : Thread) (dflt : Nat) : Fmts := if t.csr.pfx then latchFmts t.csr.latch else ⟨dflt, dflt, dflt, 0, false⟩

/-- Format sets of R107, R108, R109, R111, R329. -/
def intSet (f : Nat) : Bool := decide (f ≤ 3)
def floatSet (f : Nat) : Bool := decide (5 ≤ f) && decide (f ≤ 9)
def laneSet (f : Nat) : Bool := intSet f || floatSet f
def tileInt (f : Nat) : Bool := decide (f ≤ 2)
def tileFloat (f : Nat) : Bool := decide (5 ≤ f) && decide (f ≤ 8)

/-- Whether an instruction rejects the latched formats at decode (R55, R106-R111, R329). -/
def rejectsFmts (i : Instr) (l : BitVec 15) : Bool :=
  let f := latchFmts l
  match i.major with
  | 0x08 => !(intSet f.fa && intSet f.fb) || (match i with
    | .vclt _ => false
    | .vceq _ => false
    | _ => !intSet f.fr)
  | 0x09 => !(floatSet f.fa && floatSet f.fb) || (match i with
    | .vfclt _ => false
    | .vfceq _ => false
    | _ => !floatSet f.fr)
  | 0x0A => match i with
    | .vredadd _ => !(laneSet f.fa && f.fr == f.fa)
    | .vredmax _ => !(laneSet f.fa && f.fr == f.fa)
    | _ => false
  | 0x0B => match i with
    | .vcvt _ => !(laneSet f.fa && laneSet f.fr)
    | _ => !(floatSet f.fa && floatSet f.fr)
  | 0x23 => match i with
    | .mdrain _ => false
    | _ => !((tileInt f.fa && tileInt f.fb) || (tileFloat f.fa && tileFloat f.fb))
  | _ => false

/-- Clear the pending prefix once its consumer completes (R54). -/
def Thread.dropPrefix (t : Thread) : Thread := { t with csr := { t.csr with pfx := false } }

/-- slt-style results are 0 or 1 (R98). -/
def bit64 (b : Bool) : Word := if b then 1#64 else 0#64

/-- A predicate instruction's comparison written to p-register `d` (R124). -/
def predOp (w : BitVec 2) (srcs : List Reg) (d : Reg) (f : Thread → (Reg → Word) → Bool) (t : Thread) (s : State) : Done :=
  match ready t s w srcs [] with
  | some stop => .error stop
  | none => .ok (finishWith t s srcs fun u => { u with c := u.c.setPred d.toNat (f t (srcVal t s w)) })

end Sys2Proof.Machine
end

