-- ==== Sys2Proof/Machine/Translate.lean ====
section
/-! DEFINITION. Physical memory (R371-R375, R377, R389), home slices (R207), the page walk and the checks on an access
(R188-R197, R374), the guards of firmware (R442), and the device's own accesses through a job's tables. -/

namespace Sys2Proof.Machine

/-- Where a physical address lies: stack, stack bank number, row, byte in the row, and whether its window is bank-local. -/
structure Place where
  stack : Nat
  bank : Nat
  row : Nat
  byte : Nat
  bankLocal : Bool
  deriving DecidableEq, Repr

/-- The present channels of a stack in ascending order (R370, R372). -/
def Stack.channels (k : Stack) : List Nat :=
  (List.range 16).flatMap fun z => if k.dies.getLsbD z then [2 * z, 2 * z + 1] else []
/-- Rows per bank that the interleaved window owns (R371). -/
def Stack.ir (k : Stack) : Nat := (32 - k.localsa) * 1024
/-- IGRAN as R372 computes it. -/
def Stack.granules (k : Stack) : Nat := k.channels.length * k.ir / 16384
/-- Whether a stack contributes present addresses (R375). -/
def Stack.online (k : Stack) : Bool := decide (2 ≤ k.state)

/-- The stack and stack-local address of an interleaved address (R372). -/
def interleaved (p : Nat) : Option (Nat × Nat) :=
  let d := p / 2 ^ 39
  let g := p % 2 ^ 39 / 2 ^ 30
  if d < 2 ∧ g < 384 then some (6 * d + g % 6, g / 6 * 2 ^ 30 + p % 2 ^ 30) else none

/-- The stack and offset of a bank-local address (R373). -/
def bankWindow (p : Nat) : Option (Nat × Nat) :=
  if 2 ^ 47 ≤ p ∧ p < 2 ^ 47 + 12 * 2 ^ 36 then some ((p - 2 ^ 47) / 2 ^ 36, p % 2 ^ 36) else none

/-- The place of a present physical address (R372, R373); none where no present HBM stands. -/
def State.place (s : State) (p : Nat) : Option Place :=
  match interleaved p with
  | some (n, a) =>
    let k := s.stack n
    let chs := k.channels
    if k.online && decide (a < k.igran * 2 ^ 30) && !chs.isEmpty then
      let l := a / 128
      let ch := chs.getD (l % chs.length) 0
      let q := l / chs.length
      let bk := q / 16 % 32
      some { stack := n, bank := 128 * (ch / 2) + 64 * (ch % 2) + 32 * (q % 2) + bk, row := q / 512,
             byte := 128 * (q / 2 % 8) + a % 128, bankLocal := false }
    else none
  | none =>
    match bankWindow p with
    | some (n, a) =>
      let k := s.stack n
      let bank := a / 2 ^ 25
      let row := a / 1024 % 32768
      if k.online && k.dies.getLsbD (bank / 128) && decide (k.ir ≤ row) then
        some { stack := n, bank := bank, row := row, byte := a % 1024, bankLocal := true }
      else none
    | none => none

def State.present (s : State) (p : Nat) : Bool := (s.place p).isSome

/-- Whether a whole page is present in the window its PLACE names (R374). -/
def State.pagePresent (s : State) (pa size : Nat) (bankLocal : Bool) : Bool :=
  (List.range (max 1 (size / 2 ^ 30))).all fun i =>
    match s.place (pa + i * 2 ^ 30) with
    | some pl => pl.bankLocal == bankLocal
    | none => false

/-- The stack an address belongs to, present or not. -/
def stackOf (p : Nat) : Nat :=
  match interleaved p with
  | some (n, _) => n
  | none => match bankWindow p with
    | some (n, _) => n
    | none => 0

/-- The home cluster of a physical address (R207). -/
def homeOf (p : Nat) : Nat :=
  64 * (stackOf p / 6) + ((p / 2 ^ 7 % 64) ^^^ (p / 2 ^ 13 % 64) ^^^ (p / 2 ^ 19 % 64))

/-- Read memory at its home: a little-endian number. -/
def State.peek (s : State) (pa n : Nat) : Nat := Memory.read s.mem pa n
/-- Whether the stack of an address answers: it is not in self-refresh (R388) (log 88). -/
def State.awake (s : State) (pa : Nat) : Bool := (s.stack (stackOf pa)).selfRefresh.isNone
/-- Whether every stack of a range answers (R388). -/
def State.rangeAwake (s : State) (pa n : Nat) : Bool :=
  s.hbm.all (fun k => k.selfRefresh.isNone) || (List.range ((n + 127) / 128)).all fun i => s.awake (pa + 128 * i)
/-- Whether a base die takes one more write: its buffer has room (R377), and it performs writes (R388) (log 88). -/
def State.bufferRoom (s : State) (pa : Nat) : Bool :=
  decide ((s.stack (stackOf pa)).wbuf.length < Config.writeBuffer) && s.awake pa
/-- Whether the buffers take a write of each of some lines (R377). -/
def State.roomFor (s : State) (pas : List Nat) : Bool :=
  pas.all fun pa => decide ((s.stack (stackOf pa)).wbuf.length + (pas.filter fun q => stackOf q == stackOf pa).length ≤ Config.writeBuffer)
/-- Enter a line write in its base die's list of writes: the first 512 stand in its buffer, later ones are held by the home slices
(R377). -/
def State.buffered (s : State) (pa : Nat) : State :=
  s.setStack { s.stack (stackOf pa) with wbuf := (s.stack (stackOf pa)).wbuf ++ [pa / 128 * 128] }
/-- Write memory at its home: the bytes named are written, and a poisoned word that is wholly covered becomes good (R212,
R389). -/
def State.poke (s : State) (pa n v : Nat) : State :=
  ({ s with mem := Memory.write s.mem pa n v, poison := healed s.poison 8 pa n } : State).buffered pa
/-- The first byte of a range whose word is poisoned (R389). -/
def State.poisonAt (s : State) (pa n : Nat) : Option Nat := firstBad s.poison 8 pa n

/-- The kind a fault record names (R202, R203): an atomic counts as a write. -/
def Need.code : Need → Nat
  | .fetch => 0
  | .read => 1
  | .write => 2
  | .atomic => 2

/-- Page-table geometry (R190). -/
def levelShift : Nat → Nat
  | 0 => 35
  | 1 => 29
  | 2 => 21
  | _ => 16
def levelEntries : Nat → Nat
  | 0 => 131072
  | 1 => 64
  | 2 => 256
  | _ => 32
/-- Table alignment of a level (R190). -/
def tableAlign : Nat → Nat
  | 0 => 1048576
  | 1 => 512
  | 2 => 2048
  | _ => 256

/-- Why a walk stops (R193, R203): reason 1 NOTPRESENT, 2 MALFORMED, 3 NOMEM, and the level (log 125). -/
structure WalkStop where
  reason : Nat
  level : Nat
  deriving DecidableEq, Repr

def entryField (e : Word) (lo n : Nat) : Nat := e.toNat / 2 ^ lo % 2 ^ n

/-- Whether a leaf entry at a level is well formed (R192, R193). -/
def leafOk (e : Word) (level : Nat) : Bool :=
  let place := entryField e 60 2
  let pa := entryField e 16 32 * 65536
  entryField e 48 12 == 0 && entryField e 5 3 == 0 && decide (place < 2) && !(place == 1 && level != 3)
    && pa % 2 ^ levelShift level == 0 && !(e.getLsbD 3 && !e.getLsbD 2)

/-- Whether a table pointer at a level is well formed (R191, R193). -/
def pointerOk (e : Word) (level : Nat) : Bool :=
  entryField e 48 16 == 0 && entryField e 2 6 == 0 && decide (level < 3)
    && entryField e 8 40 * 256 % tableAlign (level + 1) == 0

/-- A cached entry for an address (R197). -/
def State.cachedAt (s : State) (places : List TlbPlace) (ctx va : Nat) : Option TlbEnt :=
  s.tlb.find? fun e => places.contains e.place && e.ctx == ctx && va / 2 ^ levelShift e.level * 2 ^ levelShift e.level == e.base

/-- The walk from a table down (R190-R194): each entry is one 8-byte read at its home, or a cached table pointer (log 125). -/
def State.walkFrom (s : State) (cl ctx va : Nat) : Nat → Nat → Nat → Except WalkStop (Word × Nat)
  | 0, level, _ => .error ⟨2, level⟩
  | fuel + 1, level, table =>
    let addr := table + 8 * (va / 2 ^ levelShift level % levelEntries level)
    match s.cachedAt [.walk cl level] ctx va with
    | some c => s.walkFrom cl ctx va fuel (level + 1) (entryField c.entry 8 40 * 256)
    | none =>
      if !s.present addr then .error ⟨3, level⟩
      else
        let e := BitVec.ofNat 64 (s.peek addr 8)
        if !e.getLsbD 0 then .error ⟨1, level⟩
        else if e.getLsbD 1 then
          if !leafOk e level then .error ⟨2, level⟩
          else if !s.pagePresent (entryField e 16 32 * 65536) (2 ^ levelShift level) (entryField e 60 2 == 1) then
            .error ⟨3, level⟩
          else .ok (e, level)
        else if !pointerOk e level then .error ⟨2, level⟩
        else s.walkFrom cl ctx va fuel (level + 1) (entryField e 8 40 * 256)

/-- The leaf of a virtual address for a job, from the caches named or by a walk (R197, R199). -/
def State.leaf (s : State) (places : List TlbPlace) (cl ctx va : Nat) : Except WalkStop (Word × Nat) :=
  match s.cachedAt places ctx va with
  | some c => .ok (c.entry, c.level)
  | none => match s.job? ctx with
    | some j => s.walkFrom cl ctx va 4 0 j.root
    | none => .error ⟨1, 0⟩

/-- The caches an access from a core looks in (R197). -/
def cachesOf (core : Nat) (fetch : Bool) : List TlbPlace :=
  [if fetch then .itlb core else .dtlb core, .l2 (coreCluster core)]

/-- Whether a core's caches hold the leaf of an address (R197, R198). -/
def State.hasLeaf (s : State) (core ctx va : Nat) (fetch : Bool) : Bool := (s.cachedAt (cachesOf core fetch) ctx va).isSome

/-- The physical address under a leaf (R189, R192). -/
def underLeaf (e : Word) (level va : Nat) : Nat := entryField e 16 32 * 65536 + va % 2 ^ levelShift level

/-- Leaf attributes (R192). -/
def leafPoi (e : Word) : Bool := e.getLsbD 63
def leafChk (e : Word) : Bool := e.getLsbD 62
def leafLocal (e : Word) : Bool := entryField e 60 2 == 1
def leafAllows (e : Word) : Need → Bool
  | .fetch => e.getLsbD 4
  | .read => e.getLsbD 2
  | .write => e.getLsbD 3
  | .atomic => e.getLsbD 2 && e.getLsbD 3

/-- Whether the walk of an address must wait: it reads an entry of a stack in self-refresh (R388) (log 88). -/
def State.walkAsleep (s : State) (va : Nat) : Nat → Nat → Nat → Bool
  | 0, _, _ => false
  | fuel + 1, level, table =>
    let addr := table + 8 * (va / 2 ^ levelShift level % levelEntries level)
    let e := BitVec.ofNat 64 (s.peek addr 8)
    s.present addr && (!s.awake addr || (e.getLsbD 0 && !e.getLsbD 1 && s.walkAsleep va fuel (level + 1) (entryField e 8 40 * 256)))
/-- The same for an access of a job that looks in the caches named. -/
def State.translationWaits (s : State) (places : List TlbPlace) (ctx va : Nat) : Bool :=
  match s.cachedAt places ctx va, s.job? ctx with
  | none, some j => s.walkAsleep va 4 0 j.root
  | _, _ => false

/-- The answer of R195 steps 2-5; `asleep` waits for an entry of the tables (R388). -/
inductive Xlate where
  | ok (pa : Nat) (leaf : Word)
  | page (stop : WalkStop)
  | access
  | ue
  | asleep
  deriving DecidableEq, Repr

/-- R195 steps 2-5 for a job's access from a core's caches; an access of no core (BAR2, loader, storer, encoder, remote put) looks in no
TLB and walks with the walk cache of cluster 0, of which R197 says nothing (log 129). -/
def State.xlate (s : State) (ctx : Nat) (core : Option Nat) (need : Need) (va : Nat) : Xlate :=
  if 2 ^ 52 ≤ va then .access
  else
    let places := match core with
      | some c => cachesOf c (need == .fetch)
      | none => []
    if s.translationWaits places ctx va then .asleep else
    match s.leaf places (coreCluster (core.getD 0)) ctx va with
    | .error w => .page w
    | .ok (e, level) =>
      if !leafAllows e need then .access
      else if leafPoi e then .ue
      else .ok (underLeaf e level va) e

/-- A guard of firmware (R442) that grants an access of `n` bytes. -/
def guardAllows (g : Word) (need : Need) (pa n : Nat) : Bool :=
  let base := entryField g 12 36 * 4096
  let size := 2 ^ entryField g 0 6
  g.getLsbD 63 && decide (base ≤ pa) && decide (pa + n ≤ base + size)
    && match need with
      | .fetch => g.getLsbD 62
      | .read => g.getLsbD 60
      | .write => g.getLsbD 61
      | .atomic => g.getLsbD 60 && g.getLsbD 61

/-- R195 steps 2-5 for a thread: through its job's tables, or on a firmware core at the physical address, confined at
plug-in level by the guards (R439, R442). A firmware access carries no page attributes. -/
def State.access (s : State) (t : Thread) (need : Need) (va n : Nat) : Xlate :=
  match t.loc with
  | .fw d k _ =>
    if 2 ^ 48 ≤ va then .access
    else if t.lev == 2#2 && !((s.fwcore d k).guards.toList.any fun g => guardAllows g need va n) then .access
    else .ok va 0#64
  | _ => s.xlate t.ctx (some t.coreId) need va

/-- The physical address of one of the device's own accesses through a job's tables (R148, R203, R138). While a page migrates such an
access goes to the old page, until it is copied (R392) (log 90). -/
def State.jobPhys (s : State) (ctx va : Nat) : Option Nat :=
  match s.leaf [] 128 ctx va with
  | .ok (e, level) => some (underLeaf e level va)
  | .error _ => (s.migrations.find? fun m => m.ctx == ctx && va / 2 ^ levelShift m.level * 2 ^ levelShift m.level == m.va).map
      fun m => underLeaf m.leaf m.level va
/-- The device's own reads and writes through a job's tables, at most 128 bytes in one page. -/
def State.jobRead (s : State) (ctx va n : Nat) : Nat :=
  match s.jobPhys ctx va with
  | some pa => s.peek pa n
  | none => 0
def State.jobWrite (s : State) (ctx va n v : Nat) : State :=
  match s.jobPhys ctx va with
  | some pa => s.poke pa n v
  | none => s

end Sys2Proof.Machine
end

