-- ==== Sys2Proof/Machine/Links.lean ====
section
/-! DEFINITION. What the package sends out: events to the host's rings (R425, R426) and messages to other packages
(R428-R431). -/

namespace Sys2Proof.Machine

/-- The 64 bytes of an event's slot (R426). -/
def Event.image (e : Event) (k : Nat) : Nat :=
  e.cls + 2 ^ 16 * e.ctx + 2 ^ 32 * e.func + 2 ^ 64 * k + 2 ^ 128 * e.record

/-- Write the held events that the ring has room for, in order, each with MSI-X vector 0 (R425, R426). -/
def pumpRing (f : Func) (mem : Mem) : List Event → Func × Mem
  | [] => ({ f with held := [] }, mem)
  | e :: es =>
    let n := 2 ^ f.log2n.toNat
    if f.en && decide (f.write.toNat - f.read.toNat < n) then
      pumpRing { f with write := f.write + 1#64, msix := f.msix ++ [0] }
        (Memory.write mem (f.rbase.toNat + 64 * (f.write.toNat % n)) 64 (e.image f.write.toNat)) es
    else ({ f with held := e :: es }, mem)

/-- Write what a function's ring has room for. -/
def State.pumpEvents (s : State) (n : Nat) : State :=
  let f := s.func n
  let (f', mem) := pumpRing f s.hostMem f.held
  { s.setFunc f' with hostMem := mem }

/-- Raise an event of a function (R425). -/
def State.postEvent (s : State) (func cls ctx record : Nat) : State :=
  let f := s.func func
  (s.setFunc { f with held := f.held ++ [⟨cls, ctx, func, record⟩] }).pumpEvents func

/-- The function a job belongs to. -/
def State.funcOf (s : State) (ctx : Nat) : Nat := ((s.job? ctx).map (·.func)).getD 0

/-- The peer with a chip number (R428). -/
def State.peer? (s : State) (chip : Nat) : Option Peer := s.peers.find? fun p => p.chip == chip
def State.setPeer (s : State) (p : Peer) : State :=
  { s with peers := s.peers.map fun q => if q.chip = p.chip then p else q }
/-- Whether a chip is reached (R428). -/
def State.reached (s : State) (chip : Nat) : Bool := (s.peer? chip).any (·.up)

/-- Send a message on the stream to a package (R431); one toward a package that is not reached is discarded (log 73). -/
def State.sendFab (s : State) (chip sctx dctx : Nat) (body : FabMsg) : State :=
  match s.peer? chip with
  | some p =>
    if p.up then
      s.setPeer { p with sendSeq := p.sendSeq + 1, unacked := p.unacked ++ [⟨p.sendSeq + 1, p.recvSeq, sctx, dctx, body, 0, s.now⟩] }
    else s
  | none => s

end Sys2Proof.Machine
end

