-- ==== Sys2Proof/Machine/Ops.lean ====
section
/-! DEFINITION. The shared operations of the thread machine: charging an issue, the report area and the fault ring,
taking a trap and returning from one, killing, parking, leaving the rotation, and issuing an instruction through the
checks of R51. -/

namespace Sys2Proof.Machine

/-- The codes of R133. -/
def Cause.code : Cause → BitVec 8
  | .illegal => 0x01#8
  | .misaligned => 0x02#8
  | .access => 0x03#8
  | .page => 0x04#8
  | .ue => 0x05#8
  | .race => 0x06#8
  | .waitLimit => 0x07#8
  | .futurePoisoned => 0x08#8
  | .futureCancelled => 0x09#8
  | .notAHandle => 0x0A#8
  | .budget => 0x0B#8
  | .allAsleep => 0x0C#8
  | .layoutMismatch => 0x0D#8
  | .drainFault => 0x0E#8
  | .prefixMisuse => 0x0F#8
  | .privilege => 0x10#8
  | .engineUnbound => 0x11#8
  | .scope => 0x12#8
  | .brk => 0x13#8
  | .ecall => 0x14#8

/-- The KIND codes of R135. -/
def WakeKind.code : WakeKind → Nat
  | .reg => 0x01
  | .portw => 0x02
  | .future => 0x03
  | .barrier => 0x04
  | .feword => 0x05
  | .tags => 0x06
  | .timeline => 0x07
  | .queue => 0x08
  | .memory => 0x09
  | .page => 0x0A
  | .budget => 0x0B
  | .yield => 0x0C
  | .exit => 0x0D

/-- Kinds that count against WLIMIT (R135). -/
def WakeKind.counts (k : WakeKind) : Bool := decide (k.code ≤ 8)

/-- The wake word (R135). -/
def Wake.word (w : Wake) : Word := BitVec.ofNat 64 (w.kind.code * 2 ^ 32 + w.detail.toNat)

/-- STATUS (R90). -/
def Thread.status (t : Thread) : Word :=
  BitVec.ofNat 64 (t.csr.prio.toNat * 2 ^ 8 + t.csr.migoff.toNat * 2 ^ 7 + t.csr.creq.toNat * 2 ^ 6
    + t.csr.pin.toNat * 2 ^ 5 + t.csr.pfx.toNat * 2 ^ 4 + t.csr.trap.toNat * 2 ^ 3 + t.lastPhase % 8)

/-- The pending prefix in the form of TPFX (R57), 0 with no prefix pending (log 126). -/
def Thread.prefixImage (t : Thread) : Word :=
  if t.csr.pfx then BitVec.ofNat 64 (2 ^ 32 + 0x2A * 2 ^ 26 + t.csr.latch.toNat * 2 ^ 11) else 0#64

/-- Add picojoules to a purse, saturating (R316). -/
def addPurse (p : Word) (pj : Nat) : Word := BitVec.ofNat 64 (min (p.toNat + pj) (2 ^ 64 - 1))
def Thread.pay (t : Thread) (pj : Nat) : Thread := { t with csr := { t.csr with purse := addPurse t.csr.purse pj } }
/-- Charge work to a context (the PURSE image of its save frame too, if it is evicted), or to its job's total where the
context has ended (R316). -/
def State.bill (s : State) (tid ctx pj : Nat) : State :=
  match s.thread? tid with
  | some t =>
    let u := t.pay pj
    let s := s.setThread u
    match t.loc with
    | .frame va _ _ _ => s.jobWrite t.ctx (va.toNat + 584) 8 u.csr.purse.toNat
    | _ => s
  | none => s.modJob ctx fun j => { j with energy := j.energy + pj }

/-- The operation a thread out of the rotation awaits, wherever its context is. -/
def Run.pending : Run → Option Pending
  | .out _ p => some p
  | .saving _ p _ _ _ => p
  | .restoring _ p _ => p
  | _ => none
def Run.setPending : Run → Pending → Run
  | .out w _, p => .out w p
  | .saving w (some _) f va m, p => .saving w (some p) f va m
  | .restoring w (some _) f, p => .restoring w (some p) f
  | r, _ => r
/-- The wake condition of a thread at a blocking point. -/
def Run.wake? : Run → Option Wake
  | .runnable => none
  | .parked w _ => some w
  | .out w _ => some w
  | .saving w _ _ _ _ => some w
  | .restoring w _ _ => some w
/-- A task becomes ready (R304, R305): its ready time is now and its priority starts again from its record's (log 68). -/
def Thread.becomeReady (t : Thread) (now : Nat) : Thread :=
  { t with readyAt := now, agedAt := now, csr := { t.csr with prio := t.recPrio } }
/-- Record that a parked thread's condition has fired (R136, R137) (log 68). -/
def Run.fire : Run → Run
  | .parked w _ => .parked w true
  | .saving w none _ va m => .saving w none true va m
  | .restoring w none _ => .restoring w none true
  | r => r

/-! ### The report area (R148) -/

/-- Write the four dwords of one entry. -/
def State.reportEntry (s : State) (ctx va : Nat) : List Word → State
  | [] => s
  | w :: ws => (s.jobWrite ctx va 8 w.toNat).reportEntry ctx (va + 8) ws

/-- Free slots of a report area (R148). -/
def reportFree (cap w r : Nat) : Nat := if r ≤ w then (if w - r ≤ cap then cap - (w - r) else 0) else cap

/-- Entries of a report from number `k` on, each in slot k mod CAP (log 123). -/
def State.reportEntries (s : State) (ctx base cap k : Nat) : List (List Word) → State
  | [] => s
  | e :: es => (s.reportEntry ctx (base + 64 + 32 * (k % cap)) e).reportEntries ctx base cap (k + 1) es

/-- Write a report, or count it as lost; a sleep report is cut to the room there is (R148) (log 76). -/
def State.report (s : State) (ctx kind cause : Nat) (info0 info1 : Word) (body : List (List Word)) : State :=
  match s.job? ctx with
  | none => s
  | some j =>
    let cap := (j.reportBytes - 64) / 32
    let w := s.jobRead ctx j.reportVA 8
    let r := s.jobRead ctx (j.reportVA + 8) 8
    let free := reportFree cap w r
    let cut := kind == 1 && decide (free < 1 + body.length)
    let body := if cut then body.take (free - 1) else body
    if cap = 0 ∨ free < 1 + body.length then
      let lost := s.jobRead ctx (j.reportVA + 16) 8
      s.jobWrite ctx (j.reportVA + 16) 8 (min (lost + 1) (2 ^ 64 - 1))
    else
      let head := BitVec.ofNat 64
        (kind + cause * 2 ^ 8 + body.length * 2 ^ 16 + ctx % 4096 * 2 ^ 32 + cut.toNat * 2 ^ 48)
      let s := s.reportEntries ctx j.reportVA cap w ([head, s.cycle, info0, info1] :: body)
      s.jobWrite ctx j.reportVA 8 (w + 1 + body.length)

/-! ### Translation faults (R202-R204, R456) -/

/-- The 32 bytes of a fault record (R203). -/
def FaultRec.image (f : FaultRec) : Nat :=
  f.page * 65536 + 2 ^ 64 * (f.ctx % 4096 + 2 ^ 16 * f.kind + 2 ^ 24 * f.reason + 2 ^ 32 * f.level
    + 2 ^ 40 * min f.waiters.length 0xFFFFFF) + 2 ^ 128 * f.coord.toNat + 2 ^ 192 * f.cycle

/-- The ring address of a job's record k (R453, R456). -/
def Job.faultSlot (j : Job) (k : Nat) : Nat := j.faultVA + 32 * (k % 2 ^ (j.faultLog2 + 4))

/-- Write the held records of a job whose slots are free, in order (R456) (log 122, 123). -/
def State.pumpFaults (s : State) (ctx : Nat) : State :=
  match s.job? ctx with
  | none => s
  | some j =>
    let mine := s.faults.filter fun f => f.ctx == ctx
    let n := 2 ^ (j.faultLog2 + 4)
    match (mine.filter fun f => !f.written).find? fun f => mine.all fun g => decide (f.k ≤ g.k) || g.written with
    | none => s
    | some f =>
      if (mine.any fun g => g.written && g.k % n == f.k % n) then s
      else
        let f' := { f with written := true, cycle := s.now }
        ({ s with faults := s.faults.map fun g => if g.ctx == ctx && g.k == f.k then f' else g } : State).jobWrite ctx
          (j.faultSlot f.k) 32 f'.image

/-- Raise a translation fault or join the outstanding record of its page (R203). -/
def State.raiseFault (s : State) (ctx va : Nat) (need : Need) (w : WalkStop) (who : FaultWaiter) (coord : Word) : State :=
  match s.faults.find? fun f => f.ctx == ctx && f.page == va / 65536, s.job? ctx with
  | some f, some j =>
    let f' := { f with waiters := f.waiters ++ [who], kind := max f.kind need.code }
    let s := { s with faults := s.faults.map fun g => if g.ctx == ctx && g.k == f.k then f' else g }
    if f.written then s.jobWrite ctx (j.faultSlot f.k) 32 f'.image else s
  | none, some j =>
    let f : FaultRec := ⟨ctx, va / 65536, need.code, w.reason, w.level, [who], coord, s.now, j.faultK, false⟩
    (({ s with faults := s.faults ++ [f] } : State).modJob ctx fun j => { j with faultK := j.faultK + 1 }).pumpFaults ctx
  | _, none => s

/-! ### The end of a task (R127, R132) -/

/-- Free the engine contexts a task holds and its holds on drain slots; a context that is not listed is free and zero
(R127, R132, R343, R346). -/
def DSlot.release (d : DSlot) (tid : Nat) : DSlot := { d with holds := d.holds.filter fun h => h.1 != tid }
def Cluster.freeEngines (c : Cluster) (tid : Nat) : Cluster :=
  { c with engines := c.engines.filter fun e => e.holder != tid, dslots := c.dslots.map (·.release tid) }
def State.freeEngines (s : State) (tid : Nat) : State :=
  { s with clusters := s.clusters.map (·.freeEngines tid) }

/-- Free the save frame of an evicted task; frames are zeroed when freed (R138) (log 66). -/
def State.freeFrame (s : State) (ctx : Nat) (va : Nat) : State :=
  match s.job? ctx with
  | none => s
  | some j =>
    let units := lookupD j.frames va 0
    let s := s.modJob ctx fun j => { j with frames := j.frames.filter fun f => f.1 != va }
    (List.range (units * 32)).foldl (fun s i => s.jobWrite ctx (va + 128 * i) 128 0) s

/-- Close the channels whose closings' stores have been performed (R295) (log 82). -/
def State.flushClosings (s : State) : State :=
  { s with pipelines := s.pipelines.map fun p =>
      let due := p.closing.filter fun c => s.performed c.2
      { p with chans := p.chans.map fun ch => { ch with opened := ch.opened - (due.filter fun c => c.1 == ch.n).length },
               closing := p.closing.filter fun c => !s.performed c.2 } }

/-- A contract and a pipeline without one of their tasks (R295, R299, R310). -/
def Contract.without (k : Contract) (tid : Nat) : Contract :=
  if k.live.contains tid then
    { k with live := k.live.filter (· != tid), reserved := if k.live.all (· == tid) then [] else k.reserved }
  else k
def Pipeline.without (p : Pipeline) (t : Thread) (killed : Bool) (after : List Nat) : Pipeline :=
  let open' := p.chans.filter fun ch => ch.prod == t.csr.stage.toNat && !t.closed.contains ch.n
  { p with
    killed := p.killed + killed.toNat,
    stages := p.stages.map fun g => { g with live := g.live.filter (· != t.tid) },
    chans := p.chans.map fun ch => { ch with taken := ch.taken.filter fun k => k.2 != t.tid },
    closing := p.closing ++ open'.map fun ch => (ch.n, after) }

/-- Take a task off its contract release and its pipeline stage, closing the channels it sends on (R295, R299, R310). -/
def State.leaveGroups (s : State) (t : Thread) (killed : Bool) : State :=
  ({ s with
      clusters := s.clusters.map (fun c => { c with
        contracts := c.contracts.map (·.without t.tid),
        ending := (c.ending.map (·.without t.tid)).filter fun k => !k.live.isEmpty }),
      pipelines := s.pipelines.map (fun p => if t.pipeline = some p.id then p.without t killed (s.earlier t.tid) else p) } :
    State).flushClosings

/-- Spill entries in use on a die, four tags each (R233). -/
def State.spillUsed (s : State) (die : Nat) : Nat :=
  s.race.foldl (fun n e => if homeOf e.granule / 64 = die then n + (e.readers.length - 4 + 3) / 4 else n) 0
/-- Forget the reports of the dies whose spill area has room (log 121). -/
def State.spillEased (s : State) : State :=
  { s with spillTold := s.spillTold.filter fun die => decide (Config.spillEntries ≤ s.spillUsed die) }

/-- Remove a task's region tags from every granule (R235) (log 17). -/
def State.forgetRaces (s : State) (task : BitVec 24) : State :=
  let without := s.race.map fun e =>
    { e with writer := e.writer.filter (·.task != task), readers := e.readers.filter (·.task != task) }
  ({ s with race := without.filter fun e => e.writer.isSome || !e.readers.isEmpty } : State).spillEased

/-- Send a note operation on its way to its home (R247, R261) (log 73). -/
def State.sendNote (s : State) (o : NoteOp) : State := { s with noteOps := s.noteOps ++ [o] }

/-- Take away a task that has ended: its phase, slot or frame, its engine contexts, its places among waiters (log 10). -/
def State.removeTask (s : State) (t : Thread) (killed : Bool) : State :=
  let s := match t.loc, t.run with
    | .frame va _ _ _, _ => s.freeFrame t.ctx va.toNat
    | _, .saving _ _ _ va _ => s.freeFrame t.ctx va
    | _, _ => s
  let s := ((s.dropThread t.tid).freeEngines t.tid).leaveGroups t killed
  let s := s.forgetRaces t.num
  { s with qwaits := s.qwaits.filter fun w => w.tid != t.tid }

/-- Kill one task (R132): its note becomes POISONED after its stores have been performed, but for a kill by a cancel request, whose note
stays CANCELLED (R262) (log 17). -/
def State.killOne (s : State) (t : Thread) (cause : Cause) (v : Word) (poisons : Bool) : State :=
  let after := s.earlier t.tid
  let s := s.removeTask t true
  match (if poisons then t.note else none) with
  | some h => s.sendNote ⟨.poison, h, v, cause.code, t.tid, t.ctx, t.coreId, false, after, false, none⟩
  | none => s

/-- Kill a task, and with a note-less inline child its caller (R132, R259). The fuel bounds the chain of callers. -/
def State.killChain (s : State) (cause : Cause) (v : Word) (poisons : Bool) : Nat → Thread → State
  | 0, t => s.killOne t cause v poisons
  | n + 1, t =>
    let s := s.killOne t cause v poisons
    match t.caller with
    | some (c, _) => match s.thread? c with
      | some u => s.killChain cause v true n u
      | none => s
    | none => s

/-- R132 (log 17). -/
def State.kill (s : State) (t : Thread) (cause : Cause) (v : Word) : State := s.killChain cause v true s.threads.length t
/-- The kill of a task whose cancel request meets it at a blocking point (R262). -/
def State.killCancelled (s : State) (t : Thread) : State := s.killChain .futureCancelled 0#64 false s.threads.length t

/-! ### Taking a trap and returning from one (R128-R132, R168, R441) -/

/-- The trap registers as R130 writes them; `base` is the handler's address. -/
def Thread.enterTrap (t : Thread) (cause : Cause) (v epc base : Word) : Thread :=
  { t with
    pc := base, wait := none, due := none, taken := [], synced := none, run := .runnable,
    csr := { t.csr with
      tcause := cause.code, tval := v, tepc := epc &&& ~~~3#64, tstatus := t.status, tq0 := t.c.q0, tq1 := t.c.q1,
      tpfx := t.prefixImage, pfx := false, trap := true } }

/-- The end of a phase-7 handler by a trap (R168): an awaiting sender takes the handler's cause; otherwise the fault is
reported. -/
def State.handlerFault (s : State) (t : Thread) (h : Handler) (cause : Cause) (v : Word) : State :=
  let s := s.dropThread t.tid
  if h.wantReply then
    s.modThread h.sender fun u => match u.run.pending with
      | some (.amsg d _) => { u with run := u.run.setPending (.amsg d (some (.inr ⟨cause, v⟩))) }
      | _ => u
  else s.report t.ctx 3 cause.code.toNat v h.senderCoord []

/-- Firmware trap entry (R441): from plug-in level to the scheduler level, by `ecall` from the scheduler level to the
monitor level, otherwise at its own level; a zero FTBASE halts the core (log 18). -/
def State.fwTrap (s : State) (t : Thread) (die n : Nat) (cause : Cause) (v epc : Word) : State :=
  let f := s.fwcore die n
  let lev : BitVec 2 := if t.lev = 2#2 then 1#2 else if t.lev = 1#2 ∧ cause = .ecall then 0#2 else t.lev
  let base := if lev = 1#2 then f.ftbase1 else f.ftbase0
  if base = 0#64 then
    (s.setFw { f with halted := true }).postEvent 0 0x0B 0xFFFF
      (die + 2 ^ 8 * n + 2 ^ 16 * t.lastPhase + 2 ^ 24 * cause.code.toNat + 2 ^ 64 * epc.toNat + 2 ^ 128 * s.now)
  else s.setThread { t.enterTrap cause v epc base with plev := t.lev, lev := lev }

/-- R130: deliver a trap to a thread, or kill its task. -/
def takeTrap (t : Thread) (cause : Cause) (v epc : Word) (s : State) : State :=
  match t.loc with
  | .fw d n _ => s.fwTrap t d n cause v epc
  | _ =>
    match t.handler with
    | some h => s.handlerFault t h cause v
    | none =>
      if t.csr.tbase = 0#64 ∨ (t.csr.trap = true ∧ epc = t.csr.tbase) then s.kill t cause v
      else s.setThread (t.enterTrap cause v epc t.csr.tbase)

/-- Whether a word is a valid P-format word (R52) (log 126). -/
def validFmt (w : W32) : Bool :=
  bits w 26 6 == 0x2A#6 && WellFormed.fmtOk (fieldsF w)

/-- The return from a trap handler (R128), once its checks have passed; a firmware return never raises privilege (R441), and level 3 is never held (R440) (log 126). -/
def Thread.leaveTrap (t : Thread) : Thread :=
  let v := t.csr.tpfx.getLsbD 32
  { t with
    pc := t.csr.tepc, wait := none,
    c := { t.c with q0 := t.csr.tq0, q1 := t.csr.tq1 },
    lev := if t.isFw then (if t.plev ≤ t.lev then t.lev else if t.plev = 3#2 then 2#2 else t.plev) else t.lev,
    csr := { t.csr with
      migoff := t.csr.tstatus.getLsbD 7, trap := false, pfx := v,
      latch := if v then t.csr.tpfx.extractLsb' 11 15 else t.csr.latch } }

/-! ### Blocking points -/

/-- Whether a thread is at a blocking point (R134). -/
def Thread.blocked (t : Thread) : Bool := t.run.wake?.isSome

/-- Place a thread back, or kill it where a cancel request meets it at a blocking point of any kind but EXIT (R262). -/
def State.settle (s : State) (t : Thread) : State :=
  match t.run.wake? with
  | some w =>
    if t.csr.creq && !t.creqAck && w.kind != .exit then s.killCancelled t else s.setThread t
  | none => s.setThread t

/-- Park at a blocking point (R134, R143): the wait of one blocking instruction keeps its start and limit (log 81). -/
def Thread.park (t : Thread) (now : Nat) (w : Wake) : Thread :=
  let rec' : WaitRec := match t.wait with
    | some r => if r.pc = t.pc then r else ⟨t.pc, now, t.csr.wlimit.toNat, false⟩
    | none => ⟨t.pc, now, t.csr.wlimit.toNat, false⟩
  { t with run := .parked w false, wait := some rec', taken := [] }

/-- Leave the rotation for a reply (R115, R136). -/
def Thread.leave (t : Thread) (now : Nat) (w : Wake) (p : Pending) : Thread :=
  { t.park now w with run := .out w p }

/-- Apply a stop: a trap at the instruction, or a wait; a handler's wait is ACCESS at the instruction (R168). -/
def State.stop (s : State) (t : Thread) : Stop → State
  | .trap c v => takeTrap t c v t.pc s
  | .park w => if t.handler.isSome then takeTrap t .access t.pc t.pc s else s.settle (t.park s.now w)

/-! ### Issue (R51, R141, R168, R316) -/

/-- Whether a register costs no more than h, q or g0 (R316). -/
def cheap (r : Reg) : Bool := r == 0#6 || (decide (32 ≤ r.toNat) && decide (r.toNat ≤ 41))
/-- The register operands of an R-format or I-format word, as the purse counts them (log 13). -/
def costRegs (i : Instr) : List Reg :=
  let w := i.encode
  let d : Reg := bits w 20 6
  let a : Reg := bits w 14 6
  let b : Reg := bits w 8 6
  match i.major with
  | 0x01 => [d, a, b]
  | 0x06 => [d, a, b]
  | 0x02 => [d, a]
  | 0x03 => [d, a]
  | 0x04 => [d]
  | 0x05 => [d]
  | 0x07 => [d, a]
  | 0x0C => [d, a]
  | 0x0D => [d, a]
  | 0x0E => [d, a]
  | 0x0F => [d, a]
  | 0x10 => [d, a]
  | 0x11 => []
  | 0x12 => [d]
  | 0x13 => [d, a]
  | 0x14 => match i with
    | .pnez o => [o.a]
    | .peq o => [o.a, o.b]
    | .plt o => [o.a, o.b]
    | .pltz o => [o.a, o.b]
    | .pget o => [o.d]
    | .exit_ o => [o.a]
    | .ecall o => [o.a]
    | _ => []
  | 0x15 => [d, a]
  | 0x16 => [d, a]
  | 0x17 => [d, a]
  | 0x18 => [d, a]
  | 0x1D => [d, a]
  | 0x1E => [d, a]
  | 0x1B => [bits w 18 6, bits w 12 6, bits w 6 6]
  | 0x21 => match i with
    | .ftaskQ o => [o.d]
    | _ => [d, a, b]
  | 0x23 => [bits w 3 6]
  | 0x24 => [bits w 3 6]
  | 0x2A => []
  | _ => match i with
    | .amoCas _ => [d, d + 1#6, a, b]
    | _ => [d, a, b]

/-- The issue charge in picojoules (R316). -/
def issueCost (i : Instr) : Nat :=
  if !i.wf then 12
  else match i.major with
    | 0x08 => 80
    | 0x09 => 80
    | 0x0A => 80
    | 0x0B => 140
    | _ => if (costRegs i).all cheap then 6 else 12

/-- The reload of TBUDGET (R141, R309, R310): 0 means no budget. A task numerically above the smallest BAND of its cluster's
contracts is capped by BCAP. -/
def State.bcap (s : State) (cl : Nat) : Option Nat :=
  (s.cluster cl).contracts.foldl (fun acc k =>
    let x := k.deadline - k.budget - 352
    match acc with
    | none => some x
    | some y => some (min x y)) none
def State.minBand (s : State) (cl : Nat) : Nat := (s.cluster cl).contracts.foldl (fun acc k => min acc k.band) 256
/-- Effective priority: while the cluster holds a contract, other tasks below 64 count as 64 (R309). -/
def State.level (s : State) (t : Thread) : Nat :=
  if !(s.cluster t.cluster).contracts.isEmpty && t.contract.isNone then max t.csr.prio.toNat 64 else t.csr.prio.toNat
def State.reload (s : State) (t : Thread) : Nat :=
  let own := if t.budget ≠ 0 then t.budget else ((s.job? t.ctx).map (·.budget)).getD 0
  match s.bcap t.cluster with
  | some cap => if s.minBand t.cluster < s.level t then (if own = 0 then cap else min own cap) else own
  | none => own

/-- What an issue costs the thread: 8 cycles of its budget and of its contract, and the issue charge (R141, R311, R316)
(log 9). -/
def Thread.charge (t : Thread) (now : Nat) (limited : Bool) (pj : Nat) : Thread :=
  { t with
    lastIssue := now,
    charged := if t.contract.isSome then t.charged + 8 else t.charged,
    handler := t.handler.map fun h => { h with issues := h.issues + 1 },
    csr := { t.csr with
      remain := if limited && t.handler.isNone then t.csr.remain - 8#32 else t.csr.remain,
      purse := if t.handler.isSome then t.csr.purse else addPurse t.csr.purse pj } }

/-- The rest of the state after an issue charge: a handler's work is charged to its sender's context (R316) (log 9). -/
def State.chargeFor (s : State) (t : Thread) (pj : Nat) : State :=
  match t.handler with
  | some h => s.bill h.charge t.ctx pj
  | none => s

/-- CSR numbers a task may name (R89). -/
def taskCsr (n : Nat) : Bool :=
  decide (n ≤ 8) || (decide (0x10 ≤ n) && decide (n ≤ 0x13)) || (decide (0x20 ≤ n) && decide (n ≤ 0x27))
    || (decide (0x30 ≤ n) && decide (n ≤ 0x37)) || (decide (0x40 ≤ n) && decide (n ≤ 0x42))
/-- CSR numbers of the firmware levels (R440, R442, R443, R375). -/
def fwCsr (n : Nat) : Bool :=
  (decide (0x800 ≤ n) && decide (n ≤ 0x802)) || (decide (0x880 ≤ n) && decide (n ≤ 0x88F))
    || (decide (0x8C0 ≤ n) && decide (n ≤ 0x8C7)) || (decide (0x900 ≤ n) && decide (n ≤ 0x90B))
/-- CSRs read-only to tasks (R89). -/
def readOnlyCsr (n : Nat) : Bool :=
  n == 0x11 || n == 0x12 || (decide (0x20 ≤ n) && decide (n ≤ 0x26)) || (decide (0x40 ≤ n) && decide (n ≤ 0x42))
/-- Guards and key CSRs, read-only at scheduler level (R440). -/
def monitorCsr (n : Nat) : Bool := decide (0x880 ≤ n) && decide (n ≤ 0x8C7)

/-- The CSR an instruction names, and whether it would write it (R104). -/
def csrUse : Instr → Option (Nat × Bool)
  | .csrr o => some (o.csr.toNat, false)
  | .csrx o => some (o.csr.toNat, true)
  | .csrs o => some (o.csr.toNat, o.a != 0#6)
  | .csrc o => some (o.csr.toNat, o.a != 0#6)
  | _ => none

/-- Step 1 of R51 beyond the word's own fields: a CSR number that does not exist (R89; from 0x800 on a task core and the plug-in level
may name none, R440), `amret` outside phase 7 (R165), and what a firmware core does not have (R439). -/
def illegalHere (i : Instr) (t : Thread) : Bool :=
  (match csrUse i with
    | some (n, _) => decide (n < 0x800) && !taskCsr n || (t.isFw && t.lev != 2#2 && decide (0x800 ≤ n) && !fwCsr n)
    | none => false)
  || (match i with
    | .amret _ => t.handler.isNone
    | .fenceTlb _ => t.isFw
    | _ => false)
  || (t.isFw && (i.major == 0x1B || (decide (0x21 ≤ i.major) && decide (i.major ≤ 0x28))))

/-- What R168 bars a handler from issuing at all (log 12). -/
def barred (i : Instr) : Bool :=
  let m := i.major
  m == 0x17 || m == 0x18 || m == 0x1B || (decide (0x1D ≤ m) && decide (m ≤ 0x29))
  || match i with
    | .amsg _ => true
    | .tagWany _ => true
    | .tagWall _ => true
    | .tagFfr _ => true
    | .barWait _ => true
    | .barSync _ => true
    | .yield_ _ => true
    | .exit_ _ => true
    | _ => false

/-- PRIVILEGE (R75, R89, R440). -/
def unprivileged (i : Instr) (t : Thread) : Bool :=
  let user := !t.isFw || t.lev == 2#2
  (i.major == 0x29 && user)
  || match csrUse i with
    | some (n, wr) => (decide (0x800 ≤ n) && user) || (wr && readOnlyCsr n) || (wr && monitorCsr n && t.lev == 1#2)
    | none => false

/-- The families that consume a prefix (R54). -/
def takesPrefix (i : Instr) : Bool := (decide (8 ≤ i.major) && decide (i.major ≤ 11)) || i.major == 0x23

/-- The first decode-time cause of a word (R51 steps 1-4), then the 257th issue of a handler (R168). -/
def decodeStop (i : Instr) (t : Thread) : Option Stop :=
  let word := i.encode.zeroExtend 64
  if !i.wf || illegalHere i t then some (.trap .illegal word)
  else if t.handler.isSome && barred i then some (.trap .access t.pc)
  else if unprivileged i t then some (.trap .privilege word)
  else if t.csr.pfx && (!takesPrefix i || rejectsFmts i t.csr.latch) then some (.trap .prefixMisuse word)
  else if (t.handler.map (·.issues)).getD 0 > 256 then some (.trap .access t.pc)
  else none

/-- The thread whose slot it is, if it holds a phase and may issue (R113, R115). -/
def State.current (s : State) : Option Thread :=
  match s.thread? s.cur with
  | some t => if t.run = .runnable ∧ t.phase?.isSome then some t else none
  | none => none

/-- Issue a word for the current thread: the charges, the first decode-time cause of R51, then `body` at operand time (log 9, 120). -/
def issueChecked (pj : Nat) (check : Thread → Option Stop) (body : Thread → State → Done) (s : State) :
    Host.Outcome State Fault Refusal :=
  match s.current with
  | none => .refused .noThread
  | some t =>
    let t' := t.charge s.now (!t.isFw && s.reload t != 0) pj
    let s' := s.chargeFor t pj
    match check t' with
    | some stop => .next (s'.stop t' stop)
    | none =>
      match body t' s' with
      | .ok (u, s'') => .next (s''.settle u)
      | .error stop => .next (s'.stop t' stop)

/-- Issue an instruction word through the checks of R51. -/
def issue (i : Instr) (body : Thread → State → Done) (s : State) : Host.Outcome State Fault Refusal :=
  issueChecked (issueCost i) (decodeStop i) body s

/-- `decodeStop` of a word with major opcode 0x28, 0x29 or 0x2A, from the word and whether its fields are accepted. These
words go without their constructor of Instr, which Lean's runtime cannot build. -/
def lateStop (w : W32) (ok : Bool) (t : Thread) : Option Stop :=
  let m := (bits w 26 6).toNat
  if !ok || (t.isFw && m == 0x28) then some (.trap .illegal (w.zeroExtend 64))
  else if t.handler.isSome && (m == 0x28 || m == 0x29) then some (.trap .access t.pc)
  else if m == 0x29 && (!t.isFw || t.lev == 2#2) then some (.trap .privilege (w.zeroExtend 64))
  else if t.csr.pfx then some (.trap .prefixMisuse (w.zeroExtend 64))
  else if (t.handler.map (·.issues)).getD 0 > 256 then some (.trap .access t.pc)
  else none

/-- `issueCost` of such a word (R316). -/
def lateCost (w : W32) (ok : Bool) : Nat :=
  if !ok then 12
  else if bits w 26 6 == 0x2A#6 then 6
  else if [bits w 20 6, bits w 14 6, bits w 8 6].all cheap then 6 else 12

/-- `issue` of such a word. -/
def issueLate (w : W32) (ok : Bool) (body : Thread → State → Done) (s : State) : Host.Outcome State Fault Refusal :=
  issueChecked (lateCost w ok) (lateStop w ok) body s

end Sys2Proof.Machine
end

