-- ==== Sys2Proof/Machine/Csr.lean ====
section
/-! DEFINITION. Control and status registers (R57, R89-R97, R104, R180, R375, R440-R443). -/

namespace Sys2Proof.Machine

/-- TSHAPE fields (R95). -/
def shapeFmt (x : Word) : Nat := (x.extractLsb' 16 4).toNat
def shapeRows (x : Word) : Nat := (x.extractLsb' 8 7).toNat
def shapeCols (x : Word) : Nat := (x.extractLsb' 0 7).toNat
def shapeSwz (x : Word) : Nat := (x.extractLsb' 20 2).toNat
def shapeStrict (x : Word) : Bool := x.getLsbD 23
/-- Whether a value is a valid shape (R96). -/
def validShape (x : Word) : Bool :=
  let f := shapeFmt x
  (f == 0 || f == 1 || f == 2 || f == 5 || f == 6 || f == 7 || f == 8)
    && decide (1 ≤ shapeRows x) && decide (shapeRows x ≤ 64) && decide (1 ≤ shapeCols x) && decide (shapeCols x ≤ 64)
    && decide (shapeRows x * shapeCols x * fmtBits f ≤ 32768)

/-- STKCAP of a stack (R375). -/
def Stack.cap (k : Stack) : Word :=
  BitVec.ofNat 64 (k.dies.toNat * 2 ^ 32 + k.igran * 2 ^ 16 + k.state * 2 ^ 14 + k.localsa)

/-- FSTATUS (R440). -/
def Thread.fstatus (t : Thread) : Word := BitVec.ofNat 64 (t.plev.toNat * 4 + t.lev.toNat)

/-- Bits 51:16, which CBASE and DBASE show (R94). -/
def baseMask : Word := 0x000FFFFFFFFF0000#64

/-- The value of a CSR as a thread reads it (log 18, 30, 131). -/
def csrRead (t : Thread) (s : State) (n : Nat) : Word :=
  let c := t.csr
  if 0x30 ≤ n ∧ n ≤ 0x37 then c.tshape.toList.getD (n - 0x30) 0#64
  else if 0x880 ≤ n ∧ n ≤ 0x88F then
    match t.loc with
    | .fw d k _ => (s.fwcore d k).guards.toList.getD (n - 0x880) 0#64
    | _ => 0#64
  else if 0x900 ≤ n ∧ n ≤ 0x90B then (s.stack (n - 0x900)).cap
  else match n with
  | 0x000 => t.status
  | 0x001 => c.tcause.zeroExtend 64
  | 0x002 => c.tval
  | 0x003 => c.tepc
  | 0x004 => c.tstatus
  | 0x005 => c.tpfx
  | 0x006 => c.tbase
  | 0x007 => c.tq0
  | 0x008 => c.tq1
  | 0x010 => c.wlimit.zeroExtend 64
  | 0x011 => c.remain.zeroExtend 64
  | 0x012 => c.purse
  | 0x013 => c.migCount.zeroExtend 64 <<< 16 ||| c.migThresh.zeroExtend 64
  | 0x020 => BitVec.ofNat 64 (((s.job? t.ctx).map (·.cbase)).getD 0) &&& baseMask
  | 0x021 => BitVec.ofNat 64 (((s.job? t.ctx).map (·.dbase)).getD 0) &&& baseMask
  | 0x022 => if t.isFw then Config.fwCoord t.unit else coordOf s.chip t.coreId
  | 0x023 => c.stage.zeroExtend 64
  | 0x024 => BitVec.ofNat 64 (t.ctx % 4096)
  | 0x025 => s.cycle
  | 0x026 => c.tile.zeroExtend 64
  | 0x027 => c.done
  | 0x040 => BitVec.ofNat 64 (if t.isFw then 0 else (s.core t.coreId).poolReg)
  | 0x041 => BitVec.ofNat 64 (if t.isFw then 64 else (s.core t.coreId).tagged * 256 + (s.core t.coreId).poolSpad)
  | 0x042 => BitVec.ofNat 64 (if t.isFw then 0 else (s.core t.coreId).poolL1)
  | 0x800 => t.fstatus
  | 0x801 => match t.loc with
    | .fw d k _ => (s.fwcore d k).ftbase1
    | _ => 0#64
  | 0x802 => match t.loc with
    | .fw d k _ => (s.fwcore d k).ftbase0
    | _ => 0#64
  | 0x8C0 => s.keydig[0]
  | 0x8C1 => s.keydig[1]
  | 0x8C2 => s.keydig[2]
  | 0x8C3 => s.keydig[3]
  | 0x8C4 => s.minsvn.zeroExtend 64
  | 0x8C5 => s.actsvn.zeroExtend 64
  | 0x8C6 => s.attaddr
  | 0x8C7 => if s.attbusy then 2#64 else 0#64
  | _ => 0#64

/-- The tags whose count of in-flight transfers is not zero (R180). -/
def Thread.busyTags (t : Thread) : Word :=
  t.tagCount.foldl (fun m e => if e.2 = 0 then m else m ||| (1#64 <<< e.1)) 0#64

/-- RW bits of TSHAPE and of a guard (R95, R442). -/
def shapeMask : Word := 0x00BF7F7F#64
def guardMask : Word := 0xF000FFFFFFFFF03F#64
/-- Whether a guard value is one the CSR can hold (R442). -/
def guardOk (g : Word) : Bool :=
  let l := entryField g 0 6
  decide (12 ≤ l) && decide (l ≤ 48) && entryField g 12 36 * 4096 % 2 ^ l == 0

/-- Write a CSR: RO fields keep their values (R9); a refused TSHAPE or guard value gives none (R96, R442) (log 126). -/
def csrWrite (t : Thread) (s : State) (n : Nat) (v : Word) : Option (Thread × State) :=
  let c := t.csr
  let put (c : Csrs) : Option (Thread × State) := some ({ t with csr := c }, s)
  if 0x30 ≤ n ∧ n ≤ 0x37 then
    let x := v &&& shapeMask
    if validShape x then put { c with tshape := c.tshape.setIfInBounds (n - 0x30) x } else none
  else if 0x880 ≤ n ∧ n ≤ 0x88F then
    match t.loc with
    | .fw d k _ =>
      let f := s.fwcore d k
      let g := v &&& guardMask
      if guardOk g then some (t, s.setFw { f with guards := f.guards.setIfInBounds (n - 0x880) g }) else none
    | _ => put c
  else match n with
  | 0x000 => put { c with migoff := v.getLsbD 7 }
  | 0x001 => put { c with tcause := v.extractLsb' 0 8 }
  | 0x002 => put { c with tval := v }
  | 0x003 => put { c with tepc := v &&& ~~~3#64 }
  | 0x004 => put { c with tstatus := v &&& 0xFFFF#64 }
  | 0x005 => put { c with tpfx := v &&& 0x1FFFFFFFF#64 }
  | 0x006 => put { c with tbase := v &&& ~~~3#64 }
  | 0x007 => put { c with tq0 := v }
  | 0x008 => put { c with tq1 := v }
  | 0x010 => put { c with wlimit := v.extractLsb' 0 32 }
  | 0x013 => put { c with migThresh := v.extractLsb' 0 16 }
  | 0x027 => put { c with done := v &&& ~~~t.busyTags }
  | 0x800 => some ({ t with plev := v.extractLsb' 2 2 }, s)
  | 0x801 => match t.loc with
    | .fw d k _ => some (t, s.setFw { s.fwcore d k with ftbase1 := v &&& ~~~3#64 })
    | _ => put c
  | 0x802 => match t.loc with
    | .fw d k _ => some (t, s.setFw { s.fwcore d k with ftbase0 := v &&& ~~~3#64 })
    | _ => put c
  | 0x8C4 => some (t, if s.minsvn.ult (v.extractLsb' 0 32) then { s with minsvn := v.extractLsb' 0 32 } else s)
  | 0x8C6 => some (t, { s with attaddr := v &&& 0x0000FFFFFFFFFF80#64 })
  | 0x8C7 => some (t, if v.getLsbD 0 then { s with attbusy := true } else s)
  | _ => put c

/-- What a CSR instruction does once its source is ready: the old value to d, and the write (R104). `new` is none where
nothing is written. -/
def csrBody (i : Instr) (o : OpC) (srcs : List Reg) (new : Word → Word → Option Word) (t : Thread) (s : State) : Done :=
  match ready t s 0#2 srcs [o.d] with
  | some stop => .error stop
  | none =>
    let old := csrRead t s o.csr.toNat
    match new old (srcVal t s 0#2 o.a) with
    | none => .ok (finish t s 0#2 srcs o.d old)
    | some v => match csrWrite t (consume t s srcs) o.csr.toNat v with
      | some (u, s') => .ok (finish u s' 0#2 [] o.d old)
      | none => .error (.trap .illegal (i.encode.zeroExtend 64))

/-- `csrr` (R104). -/
def execCsrr (o : OpC) (s : State) : Host.Outcome State Fault Refusal :=
  issue (.csrr o) (csrBody (.csrr o) o [] fun _ _ => none) s
/-- `csrx` (R104): with field a = 0 it writes zero. -/
def execCsrx (o : OpC) (s : State) : Host.Outcome State Fault Refusal :=
  issue (.csrx o) (csrBody (.csrx o) o [o.a] fun _ v => some v) s
/-- `csrs` (R104): no write when field a is 0. -/
def execCsrs (o : OpC) (s : State) : Host.Outcome State Fault Refusal :=
  issue (.csrs o) (csrBody (.csrs o) o [o.a] fun old v => if o.a = 0#6 then none else some (old ||| v)) s
/-- `csrc` (R104): no write when field a is 0. -/
def execCsrc (o : OpC) (s : State) : Host.Outcome State Fault Refusal :=
  issue (.csrc o) (csrBody (.csrc o) o [o.a] fun old v => if o.a = 0#6 then none else some (old &&& ~~~v)) s

/-- The 128 bytes that the signer covers, as a number (R443). -/
def State.attestInput (s : State) : Nat := s.peek s.attaddr.toNat 128
/-- ATTEST_SIGNATURE_DONE (R443): the signer writes (r, s), a free value, to bytes 128-191 and clears BUSY (log 22). -/
def execAttestSignatureDone (s : State) : Host.Outcome State Fault Refusal :=
  if s.attbusy then
    .next { (s.poke (s.attaddr.toNat + 128) 64 (Config.signature s.freeCtr s.attestInput)).tickFree with attbusy := false }
  else .refused .notEnabled

end Sys2Proof.Machine
end

