-- ==== Sys2Proof/Machine/Frames.lean ====
section
/-! DEFINITION. The save frame's layout (R139) and the writes that reach an evicted task's frame (R136, R176, R179). -/

namespace Sys2Proof.Machine

/-- Byte offsets of the frame's fields (R139). -/
def frameTagimg : Nat := 64
def frameXpend : Nat := 72
def frameFe : Nat := 456
def frameReply : Nat := 672
/-- Where a register value 1-39 or 48-63 lies in a frame. -/
def frameReg (r : Reg) : Nat :=
  if isVec r then 896 + 128 * (r.toNat - 48) else if r.toNat < 32 then 128 + 8 * (r.toNat - 1) else 376 + 8 * (r.toNat - 32)
/-- The FE field: full bits of g1-g31, h0-h7, v0-v15. -/
def feBit (r : Reg) : Nat := if isVec r then 39 + (r.toNat - 48) else r.toNat - 1
def Ctx.feImage (c : Ctx) : Nat :=
  (c.full.extractLsb' 1 39).toNat + 2 ^ 39 * (c.full.extractLsb' 48 16).toNat
/-- Full bits of register values from an FE field; the other values are always full. -/
def fullOf (fe : Nat) : BitVec 64 :=
  BitVec.ofNat 64 (1 + 2 * (fe % 2 ^ 39) + 2 ^ 40 * 255 + 2 ^ 48 * (fe / 2 ^ 39 % 2 ^ 16))

/-- The frame of an evicted task. -/
def Thread.frameVa (t : Thread) : Option Nat :=
  match t.loc with
  | .frame va _ _ _ => some va.toNat
  | _ => none
/-- Write a field of an evicted task's frame. -/
def State.frameWrite (s : State) (t : Thread) (off n v : Nat) : State :=
  match t.frameVa with
  | some va => s.jobWrite t.ctx (va + off) n v
  | none => s
def State.frameRead (s : State) (t : Thread) (off n : Nat) : Nat :=
  match t.frameVa with
  | some va => s.jobRead t.ctx (va + off) n
  | none => 0

/-- Park a thread whose operation turns out to wait: what it awaited is given up, and its instruction is issued again once the
condition fires (R136). The wake of an evicted task stands in its frame. -/
def State.repark (s : State) (t : Thread) (w : Wake) : State :=
  let run : Run := match t.run with
    | .saving _ _ _ va m => .saving w none false va m
    | .restoring _ _ _ => .restoring w none false
    | _ => .parked w false
  let t := { t with run := run, taken := [] }
  ((s.setThread t).frameWrite t 16 8 w.word.toNat).frameWrite t 24 8 w.operand.toNat

/-- The XPEND field of a task: its entries in transfer queues (R139). -/
def State.xpend (s : State) (tid : Nat) : Nat :=
  (s.cores.flatMap fun c => c.xq.filter fun x => x.tid == tid).foldl (fun m x => m ||| 2 ^ (x.entry % 32)) 0

end Sys2Proof.Machine
end

