-- ==== Sys2Proof/Machine/Regions.lean ====
section
/-! DEFINITION. Synchronisation regions (R230, R231, R235): what a synchronising instruction does to its thread's region, and
the waits of a thread that is out of the rotation for its regions or for a unit of a resource. -/

namespace Sys2Proof.Machine

/-- The transfers in flight that a thread issued, wherever it issued them (R178). -/
def State.xfersOf (s : State) (tid : Nat) : List Xfer := s.cores.flatMap fun c => c.xq.filter fun x => x.tid == tid

/-- One address of each 64 KiB page that bytes [va, va + n) lie in. -/
def pagesOf (va n : Nat) : List Nat :=
  if n = 0 then [] else va :: (List.range ((va + n - 1) / 65536 - va / 65536)).map fun i => (va / 65536 + 1 + i) * 65536
/-- The addresses that the pieces left of a transfer can touch, one of each page: those of the pieces, or for EXB8 blocks, of at
most 46 bytes each, those from the next block on (R175, R177). -/
def Xfer.pagesLeft (x : Xfer) : List Nat :=
  if x.codec then pagesOf x.cursor (46 * x.pieces.length) else x.pieces.flatMap fun p => pagesOf p.va p.len
/-- Whether a page of a job is checked; one whose translation stops may be (R196, R235). -/
def State.pageChecked (s : State) (ctx core va : Nat) : Bool :=
  match s.xlate ctx (some core) .read va with
  | .ok _ leaf => leafChk leaf
  | .page _ => true
  | _ => false
/-- Whether a transfer of a region still has a piece on a checked page (R235). -/
def State.checkedPieces (s : State) (tid : Nat) (seq : BitVec 2) : Bool :=
  (s.xfersOf tid).any fun x => x.region == seq && x.pagesLeft.any fun va => s.pageChecked x.ctx x.core va

/-- Whether a region has anything to retire: checked accesses at a home slice, or pieces on checked pages not yet performed
(R227, R235). -/
def State.regionHolds (s : State) (t : Thread) (r : Region) : Bool := !r.homes.isEmpty || s.checkedPieces t.tid r.seq

/-- Whether a thread's region may end: at most three earlier ones are unretired then, and the next sequence number is free,
that is, the oldest has retired (R231) (log 46). -/
def Thread.canEnd (t : Thread) (s : State) : Bool :=
  !s.regionHolds t t.region || t.unretired.all fun r => r.seq != t.region.seq + 1#2

/-- End the current region and begin the next (R230); an empty region has nothing to retire. -/
def Thread.endRegion (t : Thread) (s : State) : Thread :=
  if s.regionHolds t t.region then
    { t with unretired := t.unretired ++ [t.region], region := ⟨t.region.seq + 1#2, []⟩ }
  else t

/-- Leave the rotation for an operation that has read `srcs` (R115, R136). Its number in the order of issue is taken. -/
def waitFor (w : BitVec 2) (operand : Word) (srcs : List Reg) (p : Pending) (t : Thread) (s : State) : Done :=
  .ok ((t.leave s.now (memWake w operand) p).holding srcs, { s with nextId := s.nextId + 1 })

/-- The resource and core at which an operation waits. -/
def Pending.waitsUnit : Pending → Option (Res × Nat)
  | .unit r c _ => some (r, c)
  | _ => none
/-- Whether another thread waits for a unit of a resource already (R165, R169). -/
def State.othersBefore (s : State) (t : Thread) (r : Res) (core : Nat) : Bool :=
  s.threads.any fun u => u.tid != t.tid && (u.run.pending.bind (·.waitsUnit)) == some (r, core)

/-- Take a unit of a resource if one is free for this thread, else leave the rotation with the operation `p` until one is (R115,
R169) (log 120). -/
def taking (r : Res) (core : Nat) (free : Bool) (w : BitVec 2) (operand : Word) (srcs : List Reg) (p : Pending)
    (effect : Thread → State → Done) (t : Thread) (s : State) : Done :=
  if free && !s.othersBefore t r core then effect t s else waitFor w operand srcs (.unit r core p) t s

/-- A synchronising instruction (R230, R231, R235): its checks have passed; it ends a region and has its effect, or leaves the
rotation with the operation `p` until the region can end and, where another thread can observe the effect, until the earlier
ones have retired (log 46). -/
def atSync (observable : Bool) (w : BitVec 2) (operand : Word) (srcs : List Reg) (p : Pending)
    (effect : Thread → State → Done) (t : Thread) (s : State) : Done :=
  let u := t.endRegion s
  if !t.canEnd s then waitFor w operand srcs (.sync false observable p) t s
  else if observable && !u.unretired.isEmpty then waitFor w operand srcs (.sync true observable p) u s
  else effect u s

/-- What a thread's wait for its regions comes to (R231, R235): the region ends when it can, and the operation goes on when the
earlier ones have retired, where it must. -/
def Thread.syncOn (t : Thread) (s : State) : Thread :=
  match t.run.pending with
  | some (.sync false all p) =>
    if t.canEnd s then
      let u := t.endRegion s
      { u with run := u.run.setPending (if all && !u.unretired.isEmpty then .sync true all p else p) }
    else t
  | some (.sync true _ p) => if t.unretired.isEmpty then { t with run := t.run.setPending p } else t
  | _ => if t.exiting.isSome && t.canEnd s then t.endRegion s else t

/-- Whether a context still works on something but a stopped drain (R335, R339). -/
def Engine.busy (e : Engine) : Bool :=
  e.ops.any (fun o => !o.finished) || (e.drains.toList.filterMap id).any (fun d => !d.stop) || !e.landing.isEmpty
/-- The engine context a thread holds in its cluster (R321). -/
def State.engineOf (s : State) (t : Thread) : Option Engine :=
  (s.cluster t.cluster).engines.find? fun e => e.holder == t.tid

end Sys2Proof.Machine
end

