-- ==== Sys2Proof/Machine/Control.lean ====
section
/-! DEFINITION. Giving way and ending (R126, R127), and the words and fetches that name no instruction (R49, R50, R116). -/

namespace Sys2Proof.Machine

/-- `yield` (R126): a blocking point whose condition is met at once; the task goes on at the next instruction. -/
def execYield (o : OpR) (s : State) : Host.Outcome State Fault Refusal :=
  issue (.yield_ o) (fun t s =>
    .ok ((t.advance.park s.now (wake .yield 0 0#64)).becomeReady s.now, s)) s

/-- The report of a halted drain that `exit` abandons (R339). -/
def State.reportDrain (s : State) (ctx : Nat) (d : DrainRec) : State :=
  if d.stop then s.report ctx 6 0x0E d.fault d.opnum [] else s
def State.abandonDrains (s : State) (t : Thread) : State :=
  match s.engineOf t with
  | some e => e.drains.toList.foldl (fun s d => match d with
    | some d => s.reportDrain t.ctx d
    | none => s) s
  | none => s

/-- What `exit` still waits for (R127, R231, R335): transfers, receipts, regions, and the operations of an engine context
that no halted drain stops (log 52). -/
def State.exitWaits (s : State) (t : Thread) : Bool :=
  !(s.xfersOf t.tid).isEmpty || !(s.storesOf t.tid).isEmpty || !t.unretired.isEmpty
    || match s.engineOf t with
      | some e => e.busy
      | none => false

/-- Write a value into a task's scalar destination and set it full, wherever its context is: in its save frame too (R176, R259). -/
def State.fillDest (s : State) (t : Thread) (d : Reg) (v : Word) : State :=
  let (u, s) := writeReg t s 0#2 d v
  let s := s.setThread u
  if d = 0#6 || isPort d || isShared d then s
  else
    let fe := s.frameRead t frameFe 8 ||| 2 ^ feBit d
    (s.frameWrite t (frameReg d) 8 v.toNat).frameWrite t frameFe 8 fe

/-- The end of a task with its value (R127 steps 2-4, R259, R268) (log 52) (log 71). -/
def State.endTask (s : State) (t : Thread) (v : Word) : State :=
  let s := (s.abandonDrains t).removeTask t false
  let s := match t.note with
    | some h => s.sendNote ⟨.resolve, h, v, 0#8, t.tid, t.ctx, t.coreId, false, [], false, none⟩
    | none => s
  match t.caller.bind fun c => (s.thread? c.1).map fun u => (u, c.2) with
  | some (u, d) => s.fillDest u d v
  | none => s

/-- `exit` (R127): the value is read before the wait begins. -/
def execExit (o : OpR) (s : State) : Host.Outcome State Fault Refusal :=
  issue (.exit_ o) (fun t s =>
    match (if t.exiting.isSome then none else ready t s o.w [o.a] []) with
    | some stop => .error stop
    | none =>
      let v := t.exiting.getD (srcVal t s o.w o.a)
      let s' := if t.exiting.isSome then s else consume t s [o.a]
      let u := { (if t.canEnd s then t.endRegion s else t) with exiting := some v }
      if s'.exitWaits u then .ok (u.park s.now (wake .exit 0 0#64), s')
      else .ok (u, s'.endTask u v)) s

/-- The trap of a word that names no instruction (R49, R50): it is issued and charged as any other word outside the vector
families (R316). -/
def execIllegal (w : W32) (s : State) : Host.Outcome State Fault Refusal :=
  issueChecked 12 (fun _ => some (.trap .illegal (w.zeroExtend 64))) (fun t s => .ok (t, s)) s

/-- The trap of a fetch (R116): nothing of the word is executed or charged; TVAL and TEPC are the fetch address. -/
def execFetchFault (ue : Bool) (va : Word) (s : State) : Host.Outcome State Fault Refusal :=
  match s.current with
  | none => .refused .noThread
  | some t => if t.pc = va then .next (takeTrap t (if ue then .ue else .access) va va s) else .refused .notEnabled

end Sys2Proof.Machine
end

