-- ==== Sys2Proof/Machine/Exb8.lean ====
section
/-! DEFINITION. The EXB8 block format (R33-R36). A block is a bit string held in a natural number, bit n of the block being
bit n of the number. -/

namespace Sys2Proof.Machine

/-- The length and the bits of an offset's code word, first bit lowest (R33, R34). -/
def offsetCode : Nat → Nat × Nat
  | 0 => (2, 0b00)
  | 1 => (2, 0b10)
  | 2 => (3, 0b001)
  | 3 => (3, 0b101)
  | 4 => (4, 0b0011)
  | 5 => (4, 0b1011)
  | 6 => (5, 0b00111)
  | 7 => (5, 0b10111)
  | 8 => (7, 0b0001111)
  | 9 => (7, 0b1001111)
  | 10 => (7, 0b0101111)
  | 11 => (7, 0b1101111)
  | 12 => (7, 0b0011111)
  | 13 => (7, 0b1011111)
  | 14 => (7, 0b0111111)
  | _ => (7, 0b1111111)

/-- The offset and length of the code word at the front of a bit string (R34). -/
def readOffset (x : Nat) : Nat × Nat :=
  match (List.range 16).find? fun o => x % 2 ^ (offsetCode o).1 == (offsetCode o).2 with
  | some o => (o, (offsetCode o).1)
  | none => (15, 7)

/-- Exponent and RAW fields of an F8A code (R33). -/
def f8aExp (x : Nat) : Nat := x / 8 % 16
def f8aRaw (x : Nat) : Nat := x / 128 % 2 * 8 + x % 8

/-- Append code words: the string so far and its length. -/
def codeBits (base : Nat) : List Nat → Nat → Nat → Nat × Nat
  | [], acc, n => (acc, n)
  | e :: es, acc, n => codeBits base es (acc + (offsetCode (base - f8aExp e)).2 * 2 ^ n) (n + (offsetCode (base - f8aExp e)).1)

/-- The RAW fields as one number. -/
def rawBits : List Nat → Nat
  | [] => 0
  | e :: es => f8aRaw e + 16 * rawBits es

/-- Encode 32 F8A codes: the block as a number and its length in bytes (R33, R35). -/
def exb8Encode (es : List Nat) : Nat × Nat :=
  let base := es.foldl (fun b e => max b (f8aExp e)) 0
  let (codes, n) := codeBits base es base 8
  let len := (n + 128 + 6 + 7) / 8
  (codes + rawBits es * 2 ^ n + len * 2 ^ (n + 128), len)

/-- Read the offsets of a block: the offsets and the position after them. -/
def readOffsets (x : Nat) : Nat → Nat → List Nat × Nat
  | 0, pos => ([], pos)
  | k + 1, pos =>
    let (o, n) := readOffset (x / 2 ^ pos)
    let (os, p) := readOffsets x k (pos + n)
    (o :: os, p)

/-- Decode the block at the front of a bit string of at least 46 bytes (R36): the 32 codes, the bytes to the next block,
and whether the block is malformed. -/
def exb8Decode (x : Nat) : List Nat × Nat × Bool :=
  let base := x % 256
  let (os, n) := readOffsets x 32 8
  let blen := x / 2 ^ (n + 128) % 64
  let len := (n + 128 + 6 + 7) / 8
  let pad := x / 2 ^ (n + 134) % 2 ^ (8 * len - (n + 134))
  let bad := decide (15 < base) || os.any (fun o => decide (base < o)) || blen != len || pad != 0
  let raws := (List.range 32).map fun i => x / 2 ^ (n + 4 * i) % 16
  let codes := (os.zip raws).map fun e => e.2 / 8 * 128 + (base - e.1) * 8 + e.2 % 8
  (if bad then List.replicate 32 0x80 else codes, max 26 (min 46 blen), bad)

end Sys2Proof.Machine
end

