-- ==== Sys2Proof/Machine/Local.lean ====
section
/-! DEFINITION. The stores next to a core: scratchpad and tile-store accesses, tagged words, tag waits and barriers
(R151-R163, R180-R186). -/

namespace Sys2Proof.Machine

/-- An effective address: a + sext(imm11) · size (R154). -/
def effAddr (base : Word) (imm : BitVec 11) (size : Nat) : Word := base + imm.signExtend 64 * BitVec.ofNat 64 size

/-- A load's bytes as a scalar (R154). -/
def extendTo (ext : Ext) (size v : Nat) : Word :=
  match ext with
  | .signed => if 2 ^ (8 * size - 1) ≤ v then BitVec.ofInt 64 ((v : Int) - 2 ^ (8 * size)) else BitVec.ofNat 64 v
  | _ => BitVec.ofNat 64 v

/-- Give a load's bytes to its destination: a scalar result, or a whole vector register (R105, R155). -/
def deliver (t : Thread) (s : State) (d : Reg) (ext : Ext) (size v : Nat) : Thread × State :=
  match ext with
  | .vec => ({ t with c := t.c.setVec d (VReg.ofNat v) }, s)
  | _ => writeResult t s 0#2 d (extendTo ext size v)

/-- What a store writes (R155). -/
def storeVal (t : Thread) (s : State) (b : Reg) (size : Nat) : Nat :=
  if isVec b then (t.c.vec b).toNat else (srcVal t s 0#2 b).toNat % 256 ^ size

/-- Charge work beyond the issue to the context that did it; a handler's goes to its sender's context (R316) (log 11). -/
def payFor (t : Thread) (s : State) (pj : Nat) : Thread × State :=
  match t.handler with
  | some h => (t, s.bill h.charge t.ctx pj)
  | none => (t.pay pj, s)

/-- Energy of a scratchpad and a tile-store access (R316) (log 11). -/
def spadCost (n : Nat) : Nat := 6 * ((n + 7) / 8)
def tileCost (n : Nat) : Nat := 10 * ((n + 15) / 16)

/-- The traps of an access to the scratchpad, in order (R151, R155). -/
def nearStop (l : LocalStore) (ea : Word) (size : Nat) : Option Stop :=
  if ea.toNat % size ≠ 0 then some (.trap .misaligned ea)
  else if l.size < ea.toNat + size then some (.trap .access ea)
  else none

/-- The first byte of a scratchpad range in an uncorrectable word (R186). -/
def LocalStore.badAt (l : LocalStore) (a n : Nat) : Option Nat := firstBad l.bad 8 a n
/-- Write bytes next to the core; a word wholly covered becomes good (R186). -/
def LocalStore.write (l : LocalStore) (a n v : Nat) : LocalStore :=
  { l with spad := Memory.write l.spad a n v, bad := healed l.bad 8 a n }

/-- A scratchpad load (R155): UE names the first failing byte (R186). -/
def loadNear (o : OpI) (size : Nat) (ext : Ext) (t : Thread) (s : State) : Done :=
  match ready t s 0#2 [o.a] [o.d] with
  | some stop => .error stop
  | none =>
    let ea := effAddr (srcVal t s 0#2 o.a) o.imm size
    let l := s.near t
    match nearStop l ea size with
    | some stop => .error stop
    | none => match l.badAt ea.toNat size with
      | some b => .error (.trap .ue (BitVec.ofNat 64 b))
      | none =>
        let (t, s) := payFor t s (spadCost size)
        let (t, s) := deliver t s o.d ext size (Memory.read l.spad ea.toNat size)
        .ok (t.advance, s)

/-- A scratchpad store (R155). -/
def storeNear (o : OpS) (size : Nat) (t : Thread) (s : State) : Done :=
  match ready t s 0#2 [o.a, o.b] [] with
  | some stop => .error stop
  | none =>
    let ea := effAddr (srcVal t s 0#2 o.a) o.imm size
    let l := s.near t
    match nearStop l ea size with
    | some stop => .error stop
    | none =>
      let (u, s') := payFor t (consume t s [o.a, o.b]) (spadCost size)
      .ok (u.advance, s'.setNear t (l.write ea.toNat size (storeVal t s o.b size)))

/-- The traps of a tile-store access (R155, R156): a firmware core has no tile store (R439). -/
def tileStop (t : Thread) (s : State) (ea : Word) (size : Nat) : Option Stop :=
  if ea.toNat % size ≠ 0 then some (.trap .misaligned ea)
  else if t.isFw || !s.holds t.ctx t.cluster || decide (4194304 < ea.toNat + size) then some (.trap .access ea)
  else none

/-- A tile-store load leaves the rotation until the bank replies (R155) (log 119). -/
def loadTile (o : OpI) (size : Nat) (ext : Ext) (t : Thread) (s : State) : Done :=
  match ready t s 0#2 [o.a] [o.d] with
  | some stop => .error stop
  | none =>
    let ea := effAddr (srcVal t s 0#2 o.a) o.imm size
    match tileStop t s ea size with
    | some stop => .error stop
    | none => waitFor 0#2 ea [o.a] (.loadTile ea.toNat size ext o.d) t s

/-- A tile-store store leaves the rotation until its bytes are written (R158) (log 119). -/
def storeTile (o : OpS) (size : Nat) (t : Thread) (s : State) : Done :=
  match ready t s 0#2 [o.a, o.b] [] with
  | some stop => .error stop
  | none =>
    let ea := effAddr (srcVal t s 0#2 o.a) o.imm size
    match tileStop t s ea size with
    | some stop => .error stop
    | none =>
      waitFor 0#2 ea [o.a, o.b] (.storeTile ea.toNat size (storeVal t s o.b size)) t s

/-- `ldl.b` (R154): a scratchpad load of 1 byte. -/
def execLdlB (o : OpI) (s : State) : Host.Outcome State Fault Refusal := issue (.ldlB o) (loadNear o 1 .signed) s
/-- `ldl.h` (R154): a scratchpad load of 2 bytes. -/
def execLdlH (o : OpI) (s : State) : Host.Outcome State Fault Refusal := issue (.ldlH o) (loadNear o 2 .signed) s
/-- `ldl.w` (R154): a scratchpad load of 4 bytes. -/
def execLdlW (o : OpI) (s : State) : Host.Outcome State Fault Refusal := issue (.ldlW o) (loadNear o 4 .signed) s
/-- `ldl.d` (R154): a scratchpad load of 8 bytes. -/
def execLdlD (o : OpI) (s : State) : Host.Outcome State Fault Refusal := issue (.ldlD o) (loadNear o 8 .zero) s
/-- `ldl.bz` (R154): a scratchpad load of 1 byte. -/
def execLdlBz (o : OpI) (s : State) : Host.Outcome State Fault Refusal := issue (.ldlBz o) (loadNear o 1 .zero) s
/-- `ldl.hz` (R154): a scratchpad load of 2 bytes. -/
def execLdlHz (o : OpI) (s : State) : Host.Outcome State Fault Refusal := issue (.ldlHz o) (loadNear o 2 .zero) s
/-- `ldl.wz` (R154): a scratchpad load of 4 bytes. -/
def execLdlWz (o : OpI) (s : State) : Host.Outcome State Fault Refusal := issue (.ldlWz o) (loadNear o 4 .zero) s
/-- `ldl.v` (R154): a scratchpad load of 128 bytes. -/
def execLdlV (o : OpI) (s : State) : Host.Outcome State Fault Refusal := issue (.ldlV o) (loadNear o 128 .vec) s
/-- `ldc.b` (R154): a tile-store load of 1 byte. -/
def execLdcB (o : OpI) (s : State) : Host.Outcome State Fault Refusal := issue (.ldcB o) (loadTile o 1 .signed) s
/-- `ldc.h` (R154): a tile-store load of 2 bytes. -/
def execLdcH (o : OpI) (s : State) : Host.Outcome State Fault Refusal := issue (.ldcH o) (loadTile o 2 .signed) s
/-- `ldc.w` (R154): a tile-store load of 4 bytes. -/
def execLdcW (o : OpI) (s : State) : Host.Outcome State Fault Refusal := issue (.ldcW o) (loadTile o 4 .signed) s
/-- `ldc.d` (R154): a tile-store load of 8 bytes. -/
def execLdcD (o : OpI) (s : State) : Host.Outcome State Fault Refusal := issue (.ldcD o) (loadTile o 8 .zero) s
/-- `ldc.bz` (R154): a tile-store load of 1 byte. -/
def execLdcBz (o : OpI) (s : State) : Host.Outcome State Fault Refusal := issue (.ldcBz o) (loadTile o 1 .zero) s
/-- `ldc.hz` (R154): a tile-store load of 2 bytes. -/
def execLdcHz (o : OpI) (s : State) : Host.Outcome State Fault Refusal := issue (.ldcHz o) (loadTile o 2 .zero) s
/-- `ldc.wz` (R154): a tile-store load of 4 bytes. -/
def execLdcWz (o : OpI) (s : State) : Host.Outcome State Fault Refusal := issue (.ldcWz o) (loadTile o 4 .zero) s
/-- `ldc.v` (R154): a tile-store load of 128 bytes. -/
def execLdcV (o : OpI) (s : State) : Host.Outcome State Fault Refusal := issue (.ldcV o) (loadTile o 128 .vec) s
/-- `stl.b` (R154): a scratchpad store of 1 byte. -/
def execStlB (o : OpS) (s : State) : Host.Outcome State Fault Refusal := issue (.stlB o) (storeNear o 1) s
/-- `stl.h` (R154): a scratchpad store of 2 bytes. -/
def execStlH (o : OpS) (s : State) : Host.Outcome State Fault Refusal := issue (.stlH o) (storeNear o 2) s
/-- `stl.w` (R154): a scratchpad store of 4 bytes. -/
def execStlW (o : OpS) (s : State) : Host.Outcome State Fault Refusal := issue (.stlW o) (storeNear o 4) s
/-- `stl.d` (R154): a scratchpad store of 8 bytes. -/
def execStlD (o : OpS) (s : State) : Host.Outcome State Fault Refusal := issue (.stlD o) (storeNear o 8) s
/-- `stl.v` (R154): a scratchpad store of 128 bytes. -/
def execStlV (o : OpS) (s : State) : Host.Outcome State Fault Refusal := issue (.stlV o) (storeNear o 128) s
/-- `stc.b` (R154): a tile-store store of 1 byte. -/
def execStcB (o : OpS) (s : State) : Host.Outcome State Fault Refusal := issue (.stcB o) (storeTile o 1) s
/-- `stc.h` (R154): a tile-store store of 2 bytes. -/
def execStcH (o : OpS) (s : State) : Host.Outcome State Fault Refusal := issue (.stcH o) (storeTile o 2) s
/-- `stc.w` (R154): a tile-store store of 4 bytes. -/
def execStcW (o : OpS) (s : State) : Host.Outcome State Fault Refusal := issue (.stcW o) (storeTile o 4) s
/-- `stc.d` (R154): a tile-store store of 8 bytes. -/
def execStcD (o : OpS) (s : State) : Host.Outcome State Fault Refusal := issue (.stcD o) (storeTile o 8) s
/-- `stc.v` (R154): a tile-store store of 128 bytes. -/
def execStcV (o : OpS) (s : State) : Host.Outcome State Fault Refusal := issue (.stcV o) (storeTile o 128) s

/-! ### Tagged words (R162, R163) -/

/-- The state of the word a row waits for (R163). -/
def FeOp.want : FeOp → Option Bool
  | .fr => some true
  | .fe => some true
  | .ef => some false
  | _ => none
/-- The rows that read the word. -/
def FeOp.reads (op : FeOp) : Bool := op == .fr || op == .fe
/-- The rows whose effect another thread can observe (R235). -/
def FeOp.observable (op : FeOp) : Bool := op != .fr && op != .q
/-- A row's effect on a word's value and state, with the value of b (R163): the value it writes, the state it leaves, and the
scalar result. -/
def FeOp.effect (op : FeOp) (v : Nat) (full : Bool) (b : Word) : Option Nat × Bool × Option Word :=
  match op with
  | .fr => (none, true, some (BitVec.ofNat 64 v))
  | .fe => (none, false, some (BitVec.ofNat 64 v))
  | .ef => (some b.toNat, true, none)
  | .xf => (some b.toNat, true, none)
  | .clr => (none, false, none)
  | .q => (none, full, some (bit64 full))
  | .tf => (if full then none else some b.toNat, true, some (bit64 (!full)))

/-- Why a row is not performed now (R163): the word is not in the state awaited, or is uncorrectable. -/
def FeOp.stop (op : FeOp) (ea : Word) (t : Thread) (s : State) : Option Stop :=
  let l := s.near t
  let full := l.tagFull.contains ea.toNat
  if op.want = some (!full) then some (.park (wake .feword (!full).toNat ea))
  else match (if op.reads then l.badAt ea.toNat 8 else none) with
    | some b => some (.trap .ue (BitVec.ofNat 64 b))
    | none => none
/-- A row performed on the scratchpad next to its thread, and its scalar result (R163). -/
def FeOp.perform (op : FeOp) (ea b : Word) (t : Thread) (s : State) : State × Option Word :=
  let l := s.near t
  let r := op.effect (Memory.read l.spad ea.toNat 8) (l.tagFull.contains ea.toNat) b
  let l' := match r.1 with
    | some v => l.write ea.toNat 8 v
    | none => l
  (s.setNear t { l' with tagFull :=
    if r.2.1 then ea.toNat :: l.tagFull.filter (· != ea.toNat) else l.tagFull.filter (· != ea.toNat) }, r.2.2)

/-- An operation on a tagged word (R163). -/
def feOp (o : OpR) (srcs dst : List Reg) (op : FeOp) (t : Thread) (s : State) : Done :=
  match ready t s o.w (o.a :: srcs) dst with
  | some stop => .error stop
  | none =>
    let ea := srcVal t s o.w o.a
    let b := srcVal t s o.w o.b
    if ea.toNat % 8 ≠ 0 then .error (.trap .misaligned ea)
    else if (s.near t).tagged ≤ ea.toNat then .error (.trap .access ea)
    else match op.stop ea t s with
      | some stop => .error stop
      | none => atSync op.observable o.w ea srcs (.feWord op o.d ea b) (fun t s =>
          let (s', r) := op.perform ea b t s
          let (t, s') := payFor t (consume t s' srcs) (spadCost 8)
          let (t, s') := match r with
            | some x => writeResult t s' o.w o.d x
            | none => (t, s')
          .ok (t.advance, s')) t s

/-- `ldl.fr` (R163): waits for full; stays full. -/
def execLdlFr (o : OpR) (s : State) : Host.Outcome State Fault Refusal := issue (.ldlFr o) (feOp o [] [o.d] .fr) s
/-- `ldl.fe` (R163): waits for full; sets empty. -/
def execLdlFe (o : OpR) (s : State) : Host.Outcome State Fault Refusal := issue (.ldlFe o) (feOp o [] [o.d] .fe) s
/-- `stl.ef` (R163): waits for empty; writes and sets full. -/
def execStlEf (o : OpR) (s : State) : Host.Outcome State Fault Refusal := issue (.stlEf o) (feOp o [o.b] [] .ef) s
/-- `stl.xf` (R163): writes and sets full. -/
def execStlXf (o : OpR) (s : State) : Host.Outcome State Fault Refusal := issue (.stlXf o) (feOp o [o.b] [] .xf) s
/-- `fel.clr` (R163): sets empty; the value is kept. -/
def execFelClr (o : OpR) (s : State) : Host.Outcome State Fault Refusal := issue (.felClr o) (feOp o [] [] .clr) s
/-- `fel.q` (R163): 1 if full. -/
def execFelQ (o : OpR) (s : State) : Host.Outcome State Fault Refusal := issue (.felQ o) (feOp o [] [o.d] .q) s
/-- `stl.tf` (R163): fills an empty word and says whether it did. -/
def execStlTf (o : OpR) (s : State) : Host.Outcome State Fault Refusal := issue (.stlTf o) (feOp o [o.b] [o.d] .tf) s

/-! ### Tag waits (R181) -/

/-- Whether a row waits for all the tags of its mask. -/
def TagOp.all (op : TagOp) : Bool := op == .wall
/-- Whether DONE meets a row's wait on a mask (R181). -/
def TagOp.met (op : TagOp) (done a : Word) : Bool :=
  if op.all then done &&& a == a else done &&& a != 0#64 || a == 0#64
/-- The scalar result of a row that finds `m` of its mask done, and the bits of DONE it clears (R181): `tag.ffr` takes the
lowest bit, 64 where there is none. -/
def TagOp.result (op : TagOp) (m : Word) : Word × Word :=
  match op with
  | .ffr => match (List.range 64).find? fun i => m.getLsbD i with
    | some i => (BitVec.ofNat 64 i, 1#64 <<< i)
    | none => (64#64, 0#64)
  | _ => (m, 0#64)
/-- Clear bits of a thread's DONE. -/
def Thread.clearDone (t : Thread) (bits : Word) : Thread := { t with csr := { t.csr with done := t.csr.done &&& ~~~bits } }

/-- A wait on completion tags (R181). -/
def tagWait (o : OpR) (op : TagOp) (t : Thread) (s : State) : Done :=
  match ready t s o.w [o.a] [o.d] with
  | some stop => .error stop
  | none =>
    let a := srcVal t s o.w o.a
    if op.met t.csr.done a then
      atSync false o.w a [o.a] (.tagWait op o.d a) (fun t s =>
        let r := op.result (t.csr.done &&& a)
        .ok (finish (t.clearDone r.2) s o.w [o.a] o.d r.1)) t s
    else .error (.park (wake .tags op.all.toNat a))

/-- `tag.wany` (R181). -/
def execTagWany (o : OpR) (s : State) : Host.Outcome State Fault Refusal := issue (.tagWany o) (tagWait o .wany) s
/-- `tag.wall` (R181). -/
def execTagWall (o : OpR) (s : State) : Host.Outcome State Fault Refusal := issue (.tagWall o) (tagWait o .wall) s
/-- `tag.ffr` (R181): the lowest set bit, which it clears; 64 if a = 0. -/
def execTagFfr (o : OpR) (s : State) : Host.Outcome State Fault Refusal := issue (.tagFfr o) (tagWait o .ffr) s

/-! ### Barriers (R182-R184) -/

/-- The completion test of R182. -/
def Barrier.test (b : Barrier) : Barrier :=
  if b.expect ≤ b.arr ∧ b.pend ≤ 0 then { b with arr := 0#16, ph := !b.ph } else b
/-- PEND saturates at 56 bits (R182). -/
def pendSat (x : Int) : Int := max (-(2 ^ 55 : Int)) (min (2 ^ 55 - 1) x)
/-- `bar.init` (R183): PH is kept. -/
def Barrier.init (b : Barrier) (v : Word) : Barrier :=
  ({ b with expect := v.extractLsb' 0 16, arr := 0#16, pend := 0, ovr := false } : Barrier).test
/-- An announcement (R183). -/
def Barrier.announce (b : Barrier) (v : Word) : Barrier := ({ b with pend := pendSat (b.pend + v.toInt) } : Barrier).test
/-- An arrival, saturating (R183). -/
def Barrier.arrive (b : Barrier) : Barrier :=
  ({ b with arr := if b.arr = BitVec.allOnes 16 then b.arr else b.arr + 1#16 } : Barrier).test
/-- A delivery of `n` bytes (R178, R182): one that leaves PEND below 0 sets OVER. -/
def Barrier.deliver (b : Barrier) (n : Nat) : Barrier :=
  let p := pendSat (b.pend - n)
  ({ b with pend := p, ovr := b.ovr || decide (p < 0) } : Barrier).test
/-- The state word of `bar.q` with b = 0 (R183). -/
def Barrier.word (b : Barrier) : Word :=
  BitVec.ofBool b.ovr ++ BitVec.ofBool b.ph ++ 0#6 ++ BitVec.ofInt 56 b.pend

/-- A barrier next to a thread, by number; one never touched is all zero (R182). -/
def LocalStore.barrier (l : LocalStore) (n : Nat) : Barrier :=
  ((l.barriers.find? fun e => e.1 == n).map (·.2)).getD Barrier.zero
def LocalStore.setBarrier (l : LocalStore) (n : Nat) (b : Barrier) : LocalStore := { l with barriers := assign l.barriers n b }

/-- A barrier instruction (R183): the register waits, the barrier number, then `body` with the number and barrier. -/
def barOp (o : OpR) (srcs dst : List Reg) (body : Nat → Barrier → LocalStore → Thread → State → Done)
    (t : Thread) (s : State) : Done :=
  match ready t s o.w (o.a :: srcs) dst with
  | some stop => .error stop
  | none =>
    let a := srcVal t s o.w o.a
    let l := s.near t
    if 255 < a.toNat then .error (.trap .access a) else body a.toNat (l.barrier a.toNat) l t s

/-- `bar.init` (R183). -/
def execBarInit (o : OpR) (s : State) : Host.Outcome State Fault Refusal :=
  issue (.barInit o) (barOp o [o.b] [] fun n b l t s =>
    let s' := (consume t s [o.a, o.b]).setNear t (l.setBarrier n (b.init (srcVal t s o.w o.b)))
    .ok (t.advance, s')) s
/-- `bar.exp` (R183): a signed announcement. -/
def execBarExp (o : OpR) (s : State) : Host.Outcome State Fault Refusal :=
  issue (.barExp o) (barOp o [o.b] [] fun n b l t s =>
    let s' := (consume t s [o.a, o.b]).setNear t (l.setBarrier n (b.announce (srcVal t s o.w o.b)))
    .ok (t.advance, s')) s
/-- `bar.arr` (R183): PH before the arrival. -/
def execBarArr (o : OpR) (s : State) : Host.Outcome State Fault Refusal :=
  issue (.barArr o) (barOp o [] [o.d] fun n b l t s => atSync true o.w (srcVal t s o.w o.a) [o.a] (.barArr o.d n) (fun t s =>
    .ok (finish t ((consume t s [o.a]).setNear t (l.setBarrier n b.arrive)) o.w [] o.d (bit64 b.ph))) t s) s
/-- `bar.wait` (R183). -/
def execBarWait (o : OpR) (s : State) : Host.Outcome State Fault Refusal :=
  issue (.barWait o) (barOp o [o.b] [] fun n b _ t s =>
    let old := (srcVal t s o.w o.b).getLsbD 0
    if b.ph != old then
      atSync false o.w (srcVal t s o.w o.a) [o.a, o.b] (.done false) (fun t s => .ok (t.advance, consume t s [o.a, o.b])) t s
    else .error (.park (wake .barrier (n + 256 * (!old).toNat) 0#64))) s
/-- `bar.q` (R183). -/
def execBarQ (o : OpR) (s : State) : Host.Outcome State Fault Refusal :=
  issue (.barQ o) (barOp o [o.b] [o.d] fun _ b _ t s =>
    let k := srcVal t s o.w o.b
    if k = 0#64 then .ok (finish t s o.w [o.a, o.b] o.d b.word)
    else if k = 1#64 then
      .ok (finish t s o.w [o.a, o.b] o.d (b.expect.zeroExtend 64 <<< 16 ||| b.arr.zeroExtend 64))
    else .error (.trap .access k)) s

/-- The wait of `bar.sync` until the phase bit differs from `old` (R183). -/
def syncWait (n : Nat) (old : Bool) (t : Thread) (s : State) : Done :=
  if ((s.near t).barrier n).ph != old then .ok ({ t with synced := none }.advance, s)
  else .ok ({ t with synced := some (t.pc, (n, old)) }.park s.now (wake .barrier (n + 256 * (!old).toNat) 0#64), s)
/-- `bar.sync` (R183): one arrival at its first issue, then the wait. -/
def execBarSync (o : OpR) (s : State) : Host.Outcome State Fault Refusal :=
  issue (.barSync o) (fun t s =>
    match t.synced with
    | some (_, n, old) => syncWait n old t s
    | none => barOp o [] [] (fun n b l t s => atSync true o.w (srcVal t s o.w o.a) [o.a] (.barSync n) (fun t s =>
        syncWait n b.ph t ((consume t s [o.a]).setNear t (l.setBarrier n b.arrive))) t s) t s) s

end Sys2Proof.Machine
end

