-- ==== Sys2Proof/Machine/Race.lean ====
section
/-! DEFINITION. Race metadata of checked pages (R232-R235). -/

namespace Sys2Proof.Machine

/-- The metadata of a granule; one that is not listed is empty. -/
def State.raceEnt (s : State) (g : Nat) : RaceEnt := (s.race.find? fun e => e.granule == g).getD ⟨g, none, []⟩
def State.setRace (s : State) (e : RaceEnt) : State :=
  let rest := s.race.filter fun f => f.granule != e.granule
  { s with race := if e.writer.isNone && e.readers.isEmpty then rest else e :: rest }

/-- Whether an access of a task conflicts at a granule (R232). -/
def RaceEnt.conflict (e : RaceEnt) (task : BitVec 24) (writes : Bool) : Bool :=
  (match e.writer with
    | some w => w.task != task
    | none => false)
  || (writes && e.readers.any fun r => r.task != task)

/-- The lowest granule of [pa, pa + n) at which an access conflicts (R232). -/
def State.raceConflict (s : State) (pa n : Nat) (task : BitVec 24) (writes : Bool) : Option Nat :=
  (touchedWords 8 pa n).find? fun g => (s.raceEnt g).conflict task writes

/-- Record a data access at every granule it touches (R232). -/
def State.raceRecord (s : State) (pa n : Nat) (tag : RaceTag) (writes : Bool) : State :=
  (touchedWords 8 pa n).foldl (fun s g =>
    let e := s.raceEnt g
    if writes then s.setRace { e with writer := some tag }
    else if e.readers.contains tag then s else s.setRace { e with readers := e.readers ++ [tag] }) s

/-- The virtual address of a conflicting granule. -/
def granuleVa (va : Word) (g : Nat) : Word := BitVec.ofNat 64 (va.toNat / 65536 * 65536 + g % 65536)

/-- Whether a recorded read finds room for its tag at every granule (R233). -/
def State.spillRoom (s : State) (pa n : Nat) (tag : RaceTag) : Bool :=
  let need := (touchedWords 8 pa n).filter fun g =>
    let e := s.raceEnt g
    !e.readers.contains tag && decide (4 ≤ e.readers.length) && e.readers.length % 4 == 0
  decide (s.spillUsed (homeOf pa / 64) + need.length ≤ Config.spillEntries)

/-- Note that a region has touched a home slice (R235). -/
def Region.touch (r : Region) (home : Nat) : Region :=
  if r.homes.contains home then r else { r with homes := home :: r.homes }
/-- The same for the region of a thread that has the sequence given. -/
def Thread.touchHome (t : Thread) (seq : BitVec 2) (home : Nat) : Thread :=
  if t.region.seq = seq then { t with region := t.region.touch home }
  else { t with unretired := t.unretired.map fun r => if r.seq = seq then r.touch home else r }

/-- The answer of a race check of a data access. -/
inductive Raced where
  | clear (s : State)
  | conflict (va : Word)
  | full
  deriving DecidableEq, Repr

/-- Check and record a data access of a task's region on a checked page (R232, R233); `tid` is the thread, `num` its task
number. -/
def State.raceAccess (s : State) (tid : Nat) (num : BitVec 24) (seq : BitVec 2) (va : Word) (pa n : Nat) (writes : Bool) : Raced :=
  match s.raceConflict pa n num writes with
  | some g => .conflict (granuleVa va g)
  | none =>
    if !writes && !s.spillRoom pa n ⟨num, seq⟩ then .full
    else .clear ((s.raceRecord pa n ⟨num, seq⟩ writes).modThread tid fun t => t.touchHome seq (homeOf pa))

/-- Report a full spill area (R233), once until it has room again: none where it has been reported (log 121). -/
def State.tellSpill (s : State) (pa : Nat) : Option State :=
  let die := homeOf pa / 64
  if s.spillTold.contains die then none
  else some (({ s with spillTold := die :: s.spillTold } : State).postEvent 0 0x0C 0xFFFF (die + 2 ^ 128 * s.now))

/-- Remove one region's tags from every granule (R235). -/
def State.forgetRegion (s : State) (tag : RaceTag) : State :=
  let without := s.race.map fun e =>
    { e with writer := if e.writer = some tag then none else e.writer, readers := e.readers.filter (· != tag) }
  ({ s with race := without.filter fun e => e.writer.isSome || !e.readers.isEmpty } : State).spillEased

end Sys2Proof.Machine
end

