-- ==== Sys2Proof/Machine/Global.lean ====
section
/-! DEFINITION. Global memory (R207-R229): loads and posted stores, the L1 and the store buffer, ordered accesses and
atomics, fences, receipts, the clearing window, and the translation fence (R200). -/

namespace Sys2Proof.Machine

/-! ### Bytes seen from a core (R208, R221) -/

/-- The byte a store writes at an address. -/
def Store.byteAt (x : Store) (a : Nat) : Option Nat :=
  if x.pa ≤ a ∧ a < x.pa + x.size then some (x.val / 256 ^ (a - x.pa) % 256) else none
/-- The byte of the latest of some stores, in issue order, at an address (log 43). -/
def latestByte (xs : List Store) (a : Nat) : Option Nat := xs.foldl (fun acc x => (x.byteAt a).orElse fun _ => acc) none
/-- The number made of `n` bytes from `a` (log 43). -/
def gather (f : Nat → Nat) (a : Nat) : Nat → Nat
  | 0 => 0
  | n + 1 => f a + 256 * gather f (a + 1) n
/-- Bytes of `under` from `a`, each replaced by the latest of some stores to it (R208) (log 43). -/
def overlay (xs : List Store) (under : Nat → Nat) (a n : Nat) : Nat :=
  gather (fun i => (latestByte xs i).getD (under i)) a n
/-- Bytes lo to lo + n - 1 of a number replaced. -/
def splice (v lo n x : Nat) : Nat := v - slice v lo n * 256 ^ lo + x % 256 ^ n * 256 ^ lo

/-- The copy of a line in a core's L1, if it is not older than 4,096 cycles (R208). -/
def State.copyOf (s : State) (core pa : Nat) : Option L1Line :=
  (s.core core).l1.find? fun l => l.pa == pa / 128 * 128 && decide (s.now ≤ l.filled + 4096)
def State.dropCopy (s : State) (core pa : Nat) : State :=
  s.modCore core fun c => { c with l1 := c.l1.filter fun l => l.pa != pa / 128 * 128 }
/-- A store of the core, once performed, updates the core's copy if one is present: it is again what the home slice holds at one
instant (R208, R221). Until then the store buffer stands before the copy (log 43). -/
def State.updateCopy (s : State) (core pa : Nat) : State :=
  s.modCore core fun c => { c with l1 := c.l1.map fun l =>
    if l.pa = pa / 128 * 128 then { l with data := s.peek l.pa 128, seen := s.now } else l }
/-- A load that misses fills a copy: the line as its home slice holds it (R208). A line that holds a poisoned word is not
copied. -/
def State.fillCopy (s : State) (core pa : Nat) : State :=
  let line := pa / 128 * 128
  if (s.poisonAt line 128).isSome then s
  else s.modCore core fun c => { c with l1 := ⟨line, s.peek line 128, s.now, s.now⟩ :: c.l1.filter fun l => l.pa != line }
/-- An acquire drops every copy of its core (R208, R224). -/
def State.dropCopies (s : State) (t : Thread) : State :=
  if t.isFw then s else s.modCore t.coreId fun c => { c with l1 := [] }

/-! ### Energy and migration (R149, R316) -/

/-- The die a unit stands on: a task core's, or a firmware core's (numbered from 2,048). -/
def unitDie (u : Nat) : Nat := if u < 2048 then coreDie u else (u - 2048) / 8
/-- Picojoules of one access or piece of a die at a home slice: its access, the crossing, the HBM where it is reached, and the row
where it is activated (R316) (log 55) (log 29). -/
def homeCost (die pa n : Nat) (hbm row : Bool) : Nat :=
  60 + (if die = homeOf pa / 64 then 0 else 154 * ((n + 127) / 128))
    + (if hbm then 800 * ((n + 127) / 128) + (if row then 900 else 0) else 0)
/-- The cost of such an access now; whether it reaches the HBM and activates a row are free values (log 29). -/
def State.homeCost (s : State) (die pa n : Nat) : Nat :=
  Machine.homeCost die pa n (Config.reachesHbm s.freeCtr) (Config.opensRow s.freeCtr)
/-- Charge an access at a home slice (log 55). -/
def State.homeCharge (s : State) (tid ctx unit pa n : Nat) : State :=
  (s.bill tid ctx (s.homeCost (unitDie unit) pa n)).tickFree

/-- Count an access homed on the other die, and mark the task when the count reaches the threshold (R149) (log 54). -/
def Thread.countAccess (t : Thread) (pa : Nat) : Thread :=
  if t.isFw || coreDie t.coreId == homeOf pa / 64 then t
  else
    let n := if t.csr.migCount = BitVec.allOnes 16 then t.csr.migCount else t.csr.migCount + 1#16
    let hit := decide (t.csr.migThresh ≤ n) && t.csr.migThresh != 0#16 && !t.csr.pin && !t.csr.migoff
    { t with
      csr := { t.csr with migCount := n },
      migTarget := if hit && t.migTarget.isNone then some (homeOf pa) else t.migTarget }

/-! ### Checks of an access (R195, R202) -/

/-- Park on a translation fault (R202). -/
def pageWait (need : Need) (va : Word) (w : WalkStop) (t : Thread) (s : State) : Done :=
  .ok (t.park s.now (wake .page need.code va),
    s.raiseFault t.ctx va.toNat need w (.thread t.tid) (coordOf s.chip t.coreId))

/-- Whether an access of a thread finds its leaf cached, or needs none (R197, R198). -/
def State.translated (s : State) (t : Thread) (need : Need) (va : Nat) : Bool :=
  t.isFw || decide (2 ^ 52 ≤ va) || s.hasLeaf t.coreId t.ctx va (need == .fetch)

/-- R195 steps 1-5 for an access of a thread that has read `srcs`; `body` gets the physical address and whether the page is
checked. An access that misses the translation caches leaves the rotation for a walk, with the operation `p` (R198) (log 127,
129). -/
def accessing (need : Need) (w : BitVec 2) (ea : Word) (size : Nat) (srcs : List Reg) (p : Pending)
    (body : Nat → Bool → Thread → State → Done) (t : Thread) (s : State) : Done :=
  if ea.toNat % size ≠ 0 then .error (.trap .misaligned ea)
  else if !s.translated t need ea.toNat then
    waitFor w ea srcs (.walk need ea size s.nextId p) t s
  else match s.access t need ea.toNat size with
    | .asleep => waitFor w ea srcs (.walk need ea size s.nextId p) t s
    | .access => .error (.trap .access ea)
    | .ue => .error (.trap .ue ea)
    | .page w => pageWait need ea w t s
    | .ok pa leaf => body pa (leafChk leaf) (t.countAccess pa) s

/-! ### Loads and stores (R209-R212) -/

/-- The line and number of a load that waits for its value from memory; the loads of one core from one line have their values in
the order of issue, so that no later one sees an older instant (R221). -/
def Pending.loadAt : Pending → Option (Nat × Nat)
  | .load _ pa _ _ _ _ num none => some (pa / 128, num)
  | _ => none
/-- Whether an earlier load of a unit from the same line still waits (R221) (log 43). -/
def State.loadBefore (s : State) (unit pa num : Nat) : Bool :=
  s.threads.any fun u => u.unit == unit && match u.run.pending.bind (·.loadAt) with
    | some (line, n) => line == pa / 128 && decide (n < num)
    | none => false

/-- The value of a load that hits in the store buffer or the L1 at its issue (R208, R221): the copy must be one that the thread
may see. -/
def State.loadHit (s : State) (t : Thread) (pa size : Nat) : Option Nat :=
  let mine := s.bufferOf t.unit
  if (List.range size).all fun i => (latestByte mine (pa + i)).isSome then some (overlay mine (fun _ => 0) pa size)
  else if s.loadBefore t.unit pa s.nextId then none
  else match s.copyOf t.coreId pa with
    | some l => if t.freshFrom ≤ l.seen then some (overlay mine (fun a => slice l.data (a % 128) 1) pa size) else none
    | none => none
/-- A load with its translation (R210, R221): it leaves the rotation; one that hits has its value now (log 43). -/
def loadFrom (ea : Word) (size : Nat) (ext : Ext) (d : Reg) (pa : Nat) (chk : Bool) (t : Thread) (s : State) : Pending :=
  .load ea pa size ext d chk s.nextId (if chk || t.isFw then none else s.loadHit t pa size)

/-- A global load (R210). -/
def loadGlobal (o : OpI) (size : Nat) (ext : Ext) (t : Thread) (s : State) : Done :=
  match ready t s 0#2 [o.a] [o.d] with
  | some stop => .error stop
  | none =>
    let ea := effAddr (srcVal t s 0#2 o.a) o.imm size
    accessing .read 0#2 ea size [o.a] (.load ea 0 size ext o.d false 0 none) (fun pa chk t s =>
      waitFor 0#2 ea [o.a] (loadFrom ea size ext o.d pa chk t s) t s) t s

/-- Take receipt NEXT: the store's scalar result (R211). -/
def Thread.takeReceipt (t : Thread) : Thread :=
  { t with c := t.c.pushQ (t.next.zeroExtend 64), next := t.next + 1#16 }
/-- Post store `num` (R211, R212): it is outstanding until it is performed. Stores stand in the order of their numbers, which is
that of issue. -/
def State.postAs (s : State) (t : Thread) (va : Word) (pa size v num : Nat) : State :=
  let x : Store := ⟨num, t.tid, t.ctx, t.unit, va.toNat, pa, size, v, t.next⟩
  { s with stores := s.stores.filter (fun y => decide (y.id < num)) ++ x :: s.stores.filter fun y => decide (num ≤ y.id) }
/-- Post a store at its issue, with the next number. -/
def State.post (s : State) (t : Thread) (va : Word) (pa size v : Nat) : State :=
  { s.postAs t va pa size v s.nextId with nextId := s.nextId + 1 }
/-- Whether a thread may have one more store outstanding (R211). -/
def State.storeRoom (s : State) (t : Thread) : Bool := decide ((s.storesOf t.tid).length < Config.maxStores)

/-- A global store (R210-R212): posted where its page is unchecked and the thread has room for one more; else it leaves the
rotation. -/
def storeGlobal (o : OpS) (size : Nat) (t : Thread) (s : State) : Done :=
  match ready t s 0#2 [o.a, o.b] [] with
  | some stop => .error stop
  | none =>
    let ea := effAddr (srcVal t s 0#2 o.a) o.imm size
    let v := storeVal t s o.b size
    accessing .write 0#2 ea size [o.a, o.b] (.post ea 0 size v 0) (fun pa chk t s =>
      if chk then waitFor 0#2 ea [o.a, o.b] (.storeChk ea pa size v s.nextId) t s
      else if !s.storeRoom t then waitFor 0#2 ea [o.a, o.b] (.post ea pa size v s.nextId) t s
      else .ok (t.takeReceipt.advance, (consume t s [o.a, o.b]).post t ea pa size v)) t s

/-- `ldg.b` (R209): a global load of 1 byte. -/
def execLdgB (o : OpI) (s : State) : Host.Outcome State Fault Refusal := issue (.ldgB o) (loadGlobal o 1 .signed) s
/-- `ldg.h` (R209): a global load of 2 bytes. -/
def execLdgH (o : OpI) (s : State) : Host.Outcome State Fault Refusal := issue (.ldgH o) (loadGlobal o 2 .signed) s
/-- `ldg.w` (R209): a global load of 4 bytes. -/
def execLdgW (o : OpI) (s : State) : Host.Outcome State Fault Refusal := issue (.ldgW o) (loadGlobal o 4 .signed) s
/-- `ldg.d` (R209): a global load of 8 bytes. -/
def execLdgD (o : OpI) (s : State) : Host.Outcome State Fault Refusal := issue (.ldgD o) (loadGlobal o 8 .zero) s
/-- `ldg.bz` (R209): a global load of 1 byte. -/
def execLdgBz (o : OpI) (s : State) : Host.Outcome State Fault Refusal := issue (.ldgBz o) (loadGlobal o 1 .zero) s
/-- `ldg.hz` (R209): a global load of 2 bytes. -/
def execLdgHz (o : OpI) (s : State) : Host.Outcome State Fault Refusal := issue (.ldgHz o) (loadGlobal o 2 .zero) s
/-- `ldg.wz` (R209): a global load of 4 bytes. -/
def execLdgWz (o : OpI) (s : State) : Host.Outcome State Fault Refusal := issue (.ldgWz o) (loadGlobal o 4 .zero) s
/-- `ldg.v` (R209): a global load of 128 bytes. -/
def execLdgV (o : OpI) (s : State) : Host.Outcome State Fault Refusal := issue (.ldgV o) (loadGlobal o 128 .vec) s
/-- `stg.b` (R209): a global store of 1 byte. -/
def execStgB (o : OpS) (s : State) : Host.Outcome State Fault Refusal := issue (.stgB o) (storeGlobal o 1) s
/-- `stg.h` (R209): a global store of 2 bytes. -/
def execStgH (o : OpS) (s : State) : Host.Outcome State Fault Refusal := issue (.stgH o) (storeGlobal o 2) s
/-- `stg.w` (R209): a global store of 4 bytes. -/
def execStgW (o : OpS) (s : State) : Host.Outcome State Fault Refusal := issue (.stgW o) (storeGlobal o 4) s
/-- `stg.d` (R209): a global store of 8 bytes. -/
def execStgD (o : OpS) (s : State) : Host.Outcome State Fault Refusal := issue (.stgD o) (storeGlobal o 8) s
/-- `stg.v` (R209): a global store of 128 bytes. -/
def execStgV (o : OpS) (s : State) : Host.Outcome State Fault Refusal := issue (.stgV o) (storeGlobal o 128) s

/-! ### Scopes (R213, R214) -/

/-- MODE of a scope. -/
def scopeMode (v : Word) : Nat := (v.extractLsb' 62 2).toNat
/-- Whether a scope is one that an instruction of this thread may name (R214). A firmware core stands in no rectangle (log 19). -/
def scopeOk (t : Thread) (v : Word) : Bool :=
  let b (lo : Nat) : Nat := (v.extractLsb' lo 8).toNat
  v.extractLsb' 32 30 == 0#30
    && match scopeMode v with
      | 0 => v.extractLsb' 0 32 == 0#32
      | 2 => v.extractLsb' 0 32 == 0#32
      | 1 => decide (b 0 ≤ coreX t.coreId) && decide (coreX t.coreId ≤ b 16) && decide (b 16 ≤ 63)
          && decide (b 8 ≤ coreY t.coreId) && decide (coreY t.coreId ≤ b 24) && decide (b 24 ≤ 31) && !t.isFw
      | _ => false
/-- Whether a scope orders anything beyond its own core (R222). -/
def scopeWide (v : Word) : Bool := scopeMode v != 0

/-! ### Ordered accesses and atomics (R215-R217) -/

def OrdOp.need : OrdOp → Need
  | .ld => .read
  | .st => .write
  | _ => .atomic
/-- The memory effect of an atomic: the new value (R215). -/
def OrdOp.apply (op : OrdOp) (old x y : Word) : Word :=
  match op with
  | .ld => old
  | .st => x
  | .swap => x
  | .cas => if old = x then y else old
  | .add => old + x
  | .and => old &&& x
  | .or => old ||| x
  | .xor => old ^^^ x
  | .min => if x.slt old then x else old
  | .max => if old.slt x then x else old
  | .minz => if x.ult old then x else old
  | .maxz => if old.ult x then x else old
def Ord.releases (r : Ord) (op : OrdOp) : Bool := r == .release || (r == .sc && op != .ld)
def Ord.acquires (r : Ord) : Bool := r == .acquire || r == .sc
/-- Whether another thread can observe an ordered access (R235): every form but an acquire load. -/
def OrdOp.observable (op : OrdOp) : Bool := op != .ld

/-- The window in which an sc operation is announced (R228). -/
def State.window (s : State) : Nat := s.now / 32

/-- An ordered access (R217): `srcs` are the registers it reads beside a and the scope. -/
def orderedOp (w : BitVec 2) (a b d : Reg) (op : OrdOp) (r : Ord) (srcs dst : List Reg) (t : Thread) (s : State) : Done :=
  let scopeRegs := if r = .relaxed then [] else [b]
  match ready t s w (a :: (scopeRegs ++ srcs)) dst with
  | some stop => .error stop
  | none =>
    let ea := srcVal t s w a
    let scope := if r = .relaxed then 0#64 else srcVal t s w b
    if ea.toNat % 8 ≠ 0 then .error (.trap .misaligned ea)
    else if r ≠ .relaxed && !scopeOk t scope then .error (.trap .scope scope)
    else
      let x := srcs.head?.elim 0#64 (srcVal t s w)
      let y := (srcs.drop 1).head?.elim 0#64 (srcVal t s w)
      let after := if r.releases op && scopeWide scope then s.earlier t.tid else []
      let named := a :: (scopeRegs ++ srcs)
      let first : Option Nat := if op = .ld ∧ r = .sc then some s.window else none
      let p (pa : Nat) (chk : Bool) (num : Nat) (win : Option Nat) : Pending := .ordered op r ea pa scope x y d chk after num win
      accessing op.need w ea 8 named (.sync false op.observable (p 0 false 0 first)) (fun pa chk t s =>
        atSync op.observable w ea named (p pa chk s.nextId first) (fun t s =>
          if op = .st ∧ r = .release ∧ chk = false ∧ after = [] ∧ s.storeRoom t = true then
            .ok (t.takeReceipt.advance, (consume t s named).post t ea pa 8 x.toNat)
          else
            let win := if r = .sc ∧ after = [] then some s.window else none
            waitFor w ea named (p pa chk s.nextId win) t s) t s) t s

/-- `ldg.acq` (R215). -/
def execLdgAcq (o : OpR) (s : State) : Host.Outcome State Fault Refusal :=
  issue (.ldgAcq o) (orderedOp o.w o.a o.b o.d .ld .acquire [] [o.d]) s
/-- `ldg.sc` (R215). -/
def execLdgSc (o : OpR) (s : State) : Host.Outcome State Fault Refusal :=
  issue (.ldgSc o) (orderedOp o.w o.a o.b o.d .ld .sc [] [o.d]) s
/-- `stg.rel` (R215). -/
def execStgRel (o : OpR) (s : State) : Host.Outcome State Fault Refusal :=
  issue (.stgRel o) (orderedOp o.w o.a o.b o.d .st .release [o.d] []) s
/-- `stg.sc` (R215). -/
def execStgSc (o : OpR) (s : State) : Host.Outcome State Fault Refusal :=
  issue (.stgSc o) (orderedOp o.w o.a o.b o.d .st .sc [o.d] []) s
/-- The ord field of an atomic (R215). -/
def ordOf (v : BitVec 2) : Ord :=
  match v.toNat with
  | 0 => .relaxed
  | 1 => .acquire
  | 2 => .release
  | _ => .sc
/-- An atomic that reads d and gives the old value to d (R215). -/
def amo (o : OpA) (op : OrdOp) (t : Thread) (s : State) : Done :=
  orderedOp o.w o.a o.b o.d op (ordOf o.ord) [o.d] [] t s

/-- `amo.swap` (R215): mem := d. -/
def execAmoSwap (o : OpA) (s : State) : Host.Outcome State Fault Refusal := issue (.amoSwap o) (amo o .swap) s
/-- `amo.add` (R215): mem := old + d. -/
def execAmoAdd (o : OpA) (s : State) : Host.Outcome State Fault Refusal := issue (.amoAdd o) (amo o .add) s
/-- `amo.and` (R215): mem := old & d. -/
def execAmoAnd (o : OpA) (s : State) : Host.Outcome State Fault Refusal := issue (.amoAnd o) (amo o .and) s
/-- `amo.or` (R215): mem := old | d. -/
def execAmoOr (o : OpA) (s : State) : Host.Outcome State Fault Refusal := issue (.amoOr o) (amo o .or) s
/-- `amo.xor` (R215): mem := old ^ d. -/
def execAmoXor (o : OpA) (s : State) : Host.Outcome State Fault Refusal := issue (.amoXor o) (amo o .xor) s
/-- `amo.min` (R215): signed minimum. -/
def execAmoMin (o : OpA) (s : State) : Host.Outcome State Fault Refusal := issue (.amoMin o) (amo o .min) s
/-- `amo.max` (R215): signed maximum. -/
def execAmoMax (o : OpA) (s : State) : Host.Outcome State Fault Refusal := issue (.amoMax o) (amo o .max) s
/-- `amo.minz` (R215): unsigned minimum. -/
def execAmoMinz (o : OpA) (s : State) : Host.Outcome State Fault Refusal := issue (.amoMinz o) (amo o .minz) s
/-- `amo.maxz` (R215): unsigned maximum. -/
def execAmoMaxz (o : OpA) (s : State) : Host.Outcome State Fault Refusal := issue (.amoMaxz o) (amo o .maxz) s
/-- `amo.cas` (R215): the expected value in d, the new one in d + 1. -/
def execAmoCas (o : OpA) (s : State) : Host.Outcome State Fault Refusal :=
  issue (.amoCas o) (orderedOp o.w o.a o.b o.d .cas (ordOf o.ord) [o.d, o.d + 1#6] []) s

/-! ### Fences and receipts (R218, R219, R200) -/

/-- A fence (R218): scope check, release, the clearing for `sc`, acquire (log 46). -/
def fenceOp (o : OpR) (acq rel sc : Bool) (t : Thread) (s : State) : Done :=
  match ready t s o.w [o.a] [] with
  | some stop => .error stop
  | none =>
    let scope := srcVal t s o.w o.a
    if !scopeOk t scope then .error (.trap .scope scope)
    else
      let wide := scopeWide scope
      let after := if rel && wide then s.earlier t.tid else []
      let p (win : Option Nat) : Pending := .fence acq rel sc scope after win
      atSync (rel && wide) o.w 0#64 [o.a] (p none) (fun t s =>
        if after.isEmpty && !sc then
          .ok (t.advance, if acq && wide then (consume t s [o.a]).dropCopies t else consume t s [o.a])
        else waitFor o.w 0#64 [o.a] (p (if sc ∧ after = [] then some s.window else none)) t s) t s

/-- `fence.acq` (R218). -/
def execFenceAcq (o : OpR) (s : State) : Host.Outcome State Fault Refusal := issue (.fenceAcq o) (fenceOp o true false false) s
/-- `fence.rel` (R218). -/
def execFenceRel (o : OpR) (s : State) : Host.Outcome State Fault Refusal := issue (.fenceRel o) (fenceOp o false true false) s
/-- `fence.ar` (R218). -/
def execFenceAr (o : OpR) (s : State) : Host.Outcome State Fault Refusal := issue (.fenceAr o) (fenceOp o true true false) s
/-- `fence.sc` (R218). -/
def execFenceSc (o : OpR) (s : State) : Host.Outcome State Fault Refusal := issue (.fenceSc o) (fenceOp o true true true) s

/-- OLDEST (R219). -/
def State.oldest (s : State) (t : Thread) : BitVec 16 := ((s.storesOf t.tid).head?.map (·.receipt)).getD t.next
/-- `fence.rcpt` (R219). -/
def execFenceRcpt (o : OpR) (s : State) : Host.Outcome State Fault Refusal :=
  issue (.fenceRcpt o) (fun t s => match ready t s o.w [o.a] [] with
    | some stop => .error stop
    | none =>
      let a := srcVal t s o.w o.a
      let n := (a.extractLsb' 0 16 - s.oldest t).toNat
      let mine := s.storesOf t.tid
      if n < mine.length then
        let after := (mine.filter fun x => decide ((x.receipt - s.oldest t).toNat ≤ n)).map (·.id)
        waitFor o.w a [o.a] (.receipts after) t s
      else .ok (t.advance, consume t s [o.a])) s
/-- `rcpt.q` (R219): COUNT·2^32 + OLDEST·2^16 + NEXT. -/
def execRcptQ (o : OpR) (s : State) : Host.Outcome State Fault Refusal :=
  issue (.rcptQ o) (fun t s => scalarOp o.w [] o.d (fun _ =>
    BitVec.ofNat 64 ((s.storesOf t.tid).length * 2 ^ 32 + (s.oldest t).toNat * 2 ^ 16 + t.next.toNat)) t s) s

/-- `fence.tlb` (R200). -/
def execFenceTlb (o : OpR) (s : State) : Host.Outcome State Fault Refusal :=
  issue (.fenceTlb o) (fun t s => match ready t s o.w [o.a, o.b] [] with
    | some stop => .error stop
    | none =>
      let a := srcVal t s o.w o.a
      let b := srcVal t s o.w o.b
      if a.extractLsb' 52 12 ≠ 0#12 then .error (.trap .access a)
      else waitFor o.w a [o.a, o.b] (.tlb t.ctx a b (s.earlier t.tid)) t s) s

/-- The range a translation fence covers (R200); a length of 0 covers all (log 98). -/
def tlbRange (start len : Word) : Nat × Nat :=
  if len = 0#64 then (0, 2 ^ 52)
  else (start.toNat / 65536 * 65536, min (2 ^ 52) ((start.toNat + len.toNat + 65535) / 65536 * 65536))
/-- Remove a job's leaves that a range touches, and its walk caches (R200). -/
def State.tlbRemove (s : State) (ctx lo hi : Nat) : State :=
  { s with tlb := s.tlb.filter fun e =>
      e.ctx != ctx || (match e.place with
        | .walk _ _ => false
        | _ => decide (hi ≤ e.base) || decide (e.base + 2 ^ levelShift e.level ≤ lo)) }
/-- The ranges whose translations a fence removes: its own, and those of the larger leaves in the caches that meet it. -/
def State.tlbRanges (s : State) (ctx lo hi : Nat) : List (Nat × Nat) :=
  (lo, hi) :: s.tlb.filterMap fun e => match e.place with
    | .walk _ _ => none
    | _ =>
      let top := e.base + 2 ^ levelShift e.level
      if e.ctx = ctx ∧ e.base < hi ∧ lo < top then some (e.base, top) else none
/-- Whether an access meets one of some ranges. -/
def meetsAny (rs : List (Nat × Nat)) (va n : Nat) : Bool := rs.any fun r => decide (va < r.2) && decide (r.1 < va + n)
/-- The number of a memory access that has its translation and is not performed, with the addresses it has translated and the bytes
there. -/
def Pending.inFlight : Pending → Option (Nat × List (Nat × Nat))
  | .load va _ size _ _ _ num none => some (num, [(va.toNat, size)])
  | .storeChk va _ size _ num => some (num, [(va.toNat, size)])
  | .post va _ size _ num => some (num, [(va.toNat, size)])
  | .ordered _ _ va _ _ _ _ _ _ _ num _ => some (num, [(va.toNat, 8)])
  | .qpush _ _ _ q _ num _ _ ring _ => some (num, [(q.toNat, 64), (ring.1, 64)])
  | .qput _ _ q _ num _ _ slot => some (num, [(q.toNat, 64), (slot.1, 64)])
  | .qpop _ _ _ q _ num _ _ => some (num, [(q.toNat, 64)])
  | .qtail q _ _ num _ => some (num, [(q.toNat, 64)])
  | .sync _ _ p => p.inFlight
  | _ => none
/-- The numbers of a job's accesses in flight that meet some ranges (R200, R201): of its threads, its posted stores and tail
writes, and the pages of its queries. -/
def State.inFlight (s : State) (ctx : Nat) (rs : List (Nat × Nat)) : List Nat :=
  (s.threads.filterMap fun t => match t.run.pending.bind (·.inFlight) with
    | some (num, at_) => if t.ctx = ctx ∧ (at_.any fun a => meetsAny rs a.1 a.2) = true then some num else none
    | none => none)
  ++ (s.stores.filterMap fun x => if x.ctx = ctx ∧ meetsAny rs x.va x.size = true then some x.id else none)
  ++ (s.tails.filterMap fun x => if x.ctx = ctx ∧ x.pa.isSome = true ∧ meetsAny rs x.q 64 = true then some x.num else none)
  ++ s.queries.filterMap fun q => if q.ctx = ctx ∧ (q.vas.any fun va => meetsAny rs va 65536) = true then some q.id else none
/-- Whether none of some accesses is in flight any more. -/
def State.landed (s : State) (nums : List Nat) : Bool :=
  nums.all fun n => (s.stores.all fun x => x.id != n) && (s.queries.all fun q => q.id != n)
    && (s.tails.all fun x => x.pa.isNone || x.num != n)
    && s.threads.all fun t => match t.run.pending.bind (·.inFlight) with
      | some (m, _) => m != n
      | none => true

/-! ### Replies (R136, R212, R217, R218) -/

/-- A reply with nothing to deliver. -/
def Delivery.none' : Delivery := ⟨none, false, false, 0, 0#2, false, none, none⟩
def Delivery.trapped (c : Cause) (v : Word) : Delivery := { Delivery.none' with trap := some ⟨c, v⟩ }
def Delivery.scalar (d : Reg) (v : Word) : Delivery := { Delivery.none' with d := some d, push := true, val := v.toNat }
/-- A load's bytes (R155, R210). -/
def Delivery.loaded (d : Reg) (ext : Ext) (size v : Nat) : Delivery :=
  match ext with
  | .vec => { Delivery.none' with d := some d, vec := true, val := v }
  | _ => Delivery.scalar d (extendTo ext size v)

/-- The virtual address of the first byte of a range that lies in a poisoned word, among the bytes that `needs` selects
(R389). -/
def State.poisonVa (s : State) (va : Word) (pa n : Nat) (needs : Nat → Bool) : Option Word :=
  match (List.range n).find? fun i => needs (pa + i) && s.poison.contains ((pa + i) / 8 * 8) with
  | some i => some (va + BitVec.ofNat 64 i)
  | none => none

/-- The reply of a plain load (R221, R232, R389); none while the race spill area is full, or an earlier load of the core from
its line waits (log 43). -/
def replyLoad (t : Thread) (s : State) (va : Word) (pa size : Nat) (ext : Ext) (d : Reg) (chk : Bool) (num : Nat)
    (hit : Option Nat) : Option (State × Delivery) :=
  match hit with
  | some v => some (s, .loaded d ext size v)
  | none =>
    if !s.awake pa || s.loadBefore t.unit pa num then none
    else if chk then
      match s.raceAccess t.tid t.num t.region.seq va pa size false with
      | .conflict g => some (s, .trapped .race g)
      | .full => none
      | .clear s' => match s.poisonVa va pa size fun _ => true with
        | some x => some (s, .trapped .ue x)
        | none => some (s'.homeCharge t.tid t.ctx t.unit pa size, .loaded d ext size (s.peek pa size))
    else
      let before := (s.bufferOf t.unit).filter fun x => decide (x.id < num)
      match s.poisonVa va pa size fun a => (latestByte before a).isNone with
      | some x => some (s, .trapped .ue x)
      | none =>
        let v := overlay before (fun a => s.peek a 1) pa size
        let s' := if t.isFw then s else s.fillCopy t.coreId pa
        some (s'.homeCharge t.tid t.ctx t.unit pa size, .loaded d ext size v)

/-- The line and number of a store that is issued and not posted. -/
def Pending.storeAt : Pending → Option (Nat × Nat)
  | .post _ pa _ _ num => some (pa / 128, num)
  | .storeChk _ pa _ _ num => some (pa / 128, num)
  | .ordered .st _ _ pa _ _ _ _ _ _ num _ => some (pa / 128, num)
  | .sync _ _ p => p.storeAt
  | _ => none
/-- Whether a store of a unit to the same line, issued before, is not performed yet (R220). -/
def State.storeBefore (s : State) (unit pa num : Nat) : Bool :=
  (s.stores.any fun x => x.core == unit && x.pa / 128 == pa / 128 && decide (x.id < num))
    || s.threads.any fun u => u.unit == unit && match u.run.pending.bind (·.storeAt) with
      | some (line, n) => line == pa / 128 && decide (n < num)
      | none => false
/-- Take receipt NEXT in a reply (R211). -/
def State.receipt (s : State) (t : Thread) : State × Delivery :=
  (s.modThread t.tid fun u => { u with next := u.next + 1#16 }, { Delivery.none' with push := true, val := t.next.toNat })

/-- The posting of a store that has waited, for its translation or for room (R210, R211). -/
def replyPost (t : Thread) (s : State) (va : Word) (pa size v num : Nat) : Option (State × Delivery) :=
  if s.storeRoom t then some ((s.postAs t va pa size v num).receipt t) else none

/-- The performance of a store on a checked page (R212, R220, R232). -/
def replyStore (t : Thread) (s : State) (va : Word) (pa size v num : Nat) : Option (State × Delivery) :=
  if s.storeBefore t.unit pa num || !s.storeRoom t || !s.bufferRoom pa then none
  else match s.raceAccess t.tid t.num t.region.seq va pa size true with
    | .conflict g => some (s, .trapped .race g)
    | .full => none
    | .clear s' => some (((s'.poke pa size v).homeCharge t.tid t.ctx t.unit pa size).receipt t)

/-- The place of an sc access in the total order (R228): window, X, Y, phase. -/
def scKey (t : Thread) (win : Nat) : Nat := ((win * 64 + coreX t.coreId) * 32 + coreY t.coreId) * 8 + t.lastPhase % 8
/-- Whether another sc access homed at the same slice comes first (R228). -/
def State.scBefore (s : State) (t : Thread) (pa win : Nat) : Bool :=
  s.threads.any fun u => u.tid != t.tid && match u.run.pending with
    | some (.ordered _ .sc _ pa' _ _ _ _ _ _ _ (some w)) => homeOf pa' == homeOf pa && decide (scKey u w < scKey t win)
    | _ => false

/-- Whether an ordered access may be performed now: its release is done and its window has cleared (R223, R228). -/
def State.orderedReady (s : State) (t : Thread) (r : Ord) (pa : Nat) (after : List Nat) (win : Option Nat) : Bool :=
  s.performed after && (r != .sc || match win with
    | some w => decide (w < s.cleared) && !s.scBefore t pa w
    | none => false)
/-- Whether a store may come now: those of its core to its line that were issued before are performed, its thread has room for
one more, and its base die takes a write (R211, R220, R377); another access needs only its stack (R388). -/
def State.orderedRoom (s : State) (t : Thread) (op : OrdOp) (pa num : Nat) : Bool :=
  match op with
  | .ld => s.awake pa
  | .st => !s.storeBefore t.unit pa num && s.storeRoom t && s.bufferRoom pa
  | _ => s.bufferRoom pa

/-- The performance of an ordered access at its home slice (R217, R220) (log 44). -/
def replyOrdered (t : Thread) (s : State) (op : OrdOp) (r : Ord) (va : Word) (pa : Nat) (scope x y : Word) (d : Reg)
    (chk : Bool) (after : List Nat) (num : Nat) (win : Option Nat) : Option (State × Delivery) :=
  if op = .st ∧ r = .release ∧ chk = false then
    if s.performed after && s.storeRoom t then some ((s.postAs t va pa 8 x.toNat num).receipt t) else none
  else if !s.orderedReady t r pa after win || !s.orderedRoom t op pa num then none
  else match (if chk then s.raceConflict pa 8 t.num (op != .ld) else none) with
    | some g => some (s, .trapped .race (granuleVa va g))
    | none => match (if op = .st then none else s.poisonVa va pa 8 fun _ => true) with
      | some p => some (s, .trapped .ue p)
      | none =>
        let old := BitVec.ofNat 64 (s.peek pa 8)
        let s := if op = .ld then s else s.poke pa 8 (op.apply old x y).toNat
        let s := if t.isFw then s else if op = .st then s.updateCopy t.coreId pa else s.dropCopy t.coreId pa
        let s := if r.acquires && scopeWide scope then s.dropCopies t else s
        let s := s.homeCharge t.tid t.ctx t.unit pa 8
        some (if op = .st then s.receipt t else (s, .scalar d old))

/-- The completion of a fence (R218, R223, R224, R228). -/
def replyFence (t : Thread) (s : State) (acq sc : Bool) (scope : Word) (after : List Nat) (win : Option Nat) :
    Option (State × Delivery) :=
  if s.performed after && (!sc || match win with
      | some w => decide (w < s.cleared)
      | none => false) then
    some (if acq && scopeWide scope then s.dropCopies t else s, Delivery.none')
  else none

/-- The removal of a translation fence, once its thread's stores are performed (R200): it then waits for the accesses in flight
that the removed entries have translated. -/
def replyTlb (s : State) (ctx : Nat) (start len : Word) (after : List Nat) : Option (State × Pending) :=
  let (lo, hi) := tlbRange start len
  if s.performed after then some (s.tlbRemove ctx lo hi, .flushed (s.inFlight ctx (s.tlbRanges ctx lo hi))) else none

/-! ### Events -/

/-- An sc operation whose release has completed is announced (R228). -/
def Thread.announce (t : Thread) (s : State) : Thread :=
  match t.run.pending with
  | some (.ordered op .sc va pa sc x y d chk after num none) =>
    if s.performed after then
      { t with run := t.run.setPending (.ordered op .sc va pa sc x y d chk after num (some s.window)) }
    else t
  | some (.fence a r true sc after none) =>
    if s.performed after then { t with run := t.run.setPending (.fence a r true sc after (some s.window)) } else t
  | _ => t
/-- Threads out of the rotation go on with what they wait for: the retirement of their regions, then the announcement (R228,
R231, R235). -/
def State.advanceWaits (s : State) : State := { s with threads := s.threads.map fun t => (t.syncOn s).announce s }

/-- Perform an outstanding store at its home slice and give its receipt (R211, R220); closings that waited for it follow. -/
def State.performStore (s : State) (x : Store) : State :=
  let s := (s.poke x.pa x.size x.val).homeCharge x.tid x.ctx x.core x.pa x.size
  let s := { s with stores := s.stores.filter fun y => y.id != x.id }
  (if x.core < 2048 then s.updateCopy x.core x.pa else s).flushClosings

/-- STORE_PERFORMED (R220): a posted store is performed at its home slice, the stores of one core to one line in issue
order, once its base die's buffer takes it (R377). A firmware store to an address behind which nothing stands stops the
machine. -/
def execStorePerformed (id : Nat) (s : State) : Host.Outcome State Fault Refusal :=
  match s.stores.find? fun x => x.id == id with
  | none => .refused .notEnabled
  | some x =>
    if s.storeBefore x.core x.pa x.id then .refused .notEnabled
    else if 2048 ≤ x.core && !s.present x.pa then .fault (.absentPhysical x.pa)
    else if !s.bufferRoom x.pa then .refused .notEnabled
    else .next (s.performStore x)

/-- L1_COPY_EXPIRE (R208): an L1 drops a copy, at the latest 4,096 cycles after its fill (log 43). -/
def execL1CopyExpire (core line : Nat) (s : State) : Host.Outcome State Fault Refusal :=
  if (s.core core).l1.any (fun l => l.pa == line) then .next (s.dropCopy core line) else .refused .notEnabled

/-- REGION_RETIRE (R235): an ended region whose checked transfer pieces are performed leaves every home slice. -/
def execRegionRetire (tid : Nat) (seq : BitVec 2) (s : State) : Host.Outcome State Fault Refusal :=
  match s.thread? tid with
  | some t =>
    if t.unretired.any (fun r => r.seq == seq) && !s.checkedPieces tid seq then
      .next ((s.forgetRegion ⟨t.num, seq⟩).modThread tid fun t =>
        { t with unretired := t.unretired.filter fun r => r.seq != seq })
    else .refused .notEnabled
  | none => .refused .notEnabled

/-- Entries of each translation cache (R197) (log 124). -/
def tlbEntries : TlbPlace → Nat
  | .itlb _ => 32
  | .dtlb _ => 64
  | .l2 _ => 4096
  | .walk _ _ => 64
/-- Put an entry into a cache; a full one drops its oldest (R197: the policy is not stated) (log 124). -/
def State.cacheFill (s : State) (e : TlbEnt) : State :=
  let same (f : TlbEnt) : Bool := match e.place, f.place with
    | .walk a _, .walk b _ => a == b
    | p, q => p == q
  let here := s.tlb.filter same
  let there := s.tlb.filter fun f => !same f
  { s with tlb := e :: here.take (tlbEntries e.place - 1) ++ there }

/-- The table-pointer entry a walk reads at a level, following pointers from the root (R190, R191). -/
def State.pointerAt (s : State) (va level : Nat) : Nat → Nat → Nat → Option Word
  | 0, _, _ => none
  | fuel + 1, l, table =>
    let addr := table + 8 * (va / 2 ^ levelShift l % levelEntries l)
    if !s.present addr then none
    else
      let e := BitVec.ofNat 64 (s.peek addr 8)
      if e.getLsbD 0 && !e.getLsbD 1 && pointerOk e l then
        if l = level then some e else s.pointerAt va level fuel (l + 1) (entryField e 8 40 * 256)
      else none

/-- TLB_WALK_DONE (R193, R197): a walk fills a cache with the leaf or the table pointer it read; one that stops caches
nothing. -/
def execTlbWalkDone (place : TlbPlace) (ctx va : Nat) (s : State) : Host.Outcome State Fault Refusal :=
  match s.job? ctx with
  | none => .refused .notEnabled
  | some j =>
    match place with
    | .walk _ level => match s.pointerAt va level 3 0 j.root with
      | some e => .next (s.cacheFill ⟨place, ctx, level, va / 2 ^ levelShift level * 2 ^ levelShift level, e⟩)
      | none => .next s
    | _ =>
      let cl := match place with
        | .itlb c => coreCluster c
        | .dtlb c => coreCluster c
        | .l2 c => c
        | .walk c _ => c
      match s.walkFrom cl ctx va 4 0 j.root with
      | .ok (e, level) => .next (s.cacheFill ⟨place, ctx, level, va / 2 ^ levelShift level * 2 ^ levelShift level, e⟩)
      | .error _ => .next s

end Sys2Proof.Machine
end

