-- ==== Sys2Proof/Machine/Transfer.lean ====
section
/-! DEFINITION. The transfer queue and completion tags (R159-R162, R169-R180, R186, R433). -/

namespace Sys2Proof.Machine

/-! ### The local side -/

/-- The swizzle of R159. -/
def swz (a m : Nat) : Nat := if m = 0 then a else a ^^^ (a / 2 ^ (6 + m) % 8 * 16)

/-- Tile-store bytes at logical addresses under a mode (R159, R161). -/
def Cluster.tileRead (c : Cluster) (m a n : Nat) : Nat := gather (fun i => (Memory.get c.tile (swz i m)).toNat) a n
/-- Write bytes one by one under a mode. -/
def tilePut (mem : Mem) (m a : Nat) : Nat → Nat → Mem
  | 0, _ => mem
  | n + 1, v => tilePut (Memory.set mem (swz a m) (BitVec.ofNat 8 v)) m (a + 1) n (v / 256)
/-- Layout tags after a write (R160). -/
def tagRegions (tags : List (Nat × Nat)) (m a n : Nat) : List (Nat × Nat) :=
  (touchedWords 4096 a n).foldl (fun ts r =>
    let rest := ts.filter fun e => e.1 != r / 4096
    if m = 0 then rest else (r / 4096, m) :: rest) tags
/-- Write tile-store bytes at logical addresses: a bank word wholly covered becomes good (R186), the regions take the mode
(R160). -/
def Cluster.tileWrite (c : Cluster) (m a n v : Nat) : Cluster :=
  { c with
    tile := tilePut c.tile m a n v,
    tileUE := c.tileUE.filter fun w => !(decide (a ≤ swz w m) && decide (swz w m + 16 ≤ a + n)),
    ltags := tagRegions c.ltags m a n }
/-- The first logical byte of a range that lies in an uncorrectable bank word (R186). -/
def Cluster.tileBad (c : Cluster) (m a n : Nat) : Option Nat :=
  match (touchedWords 16 a n).find? fun w => c.tileUE.contains (swz w m) with
  | some w => some (max w a)
  | none => none

/-- Read a transfer's local side; none where it meets an uncorrectable word (R186). -/
def State.localRead (s : State) (x : Xfer) (off n : Nat) : Option Nat :=
  if x.space = 1 then
    let c := s.cluster (coreCluster x.core)
    if (c.tileBad x.swz (x.addr + off) n).isSome then none else some (c.tileRead x.swz (x.addr + off) n)
  else
    let c := s.core x.core
    if (firstBad c.spadUE 8 (x.addr + off) n).isSome then none else some (Memory.read c.spad (x.addr + off) n)

/-- Tagged words that a transfer has now written completely (R162): those inside its destination, touched by this piece,
with no byte in a piece still to come. -/
def filledWords (x : Xfer) (off n total limit : Nat) (left : List Piece) : List Nat :=
  (touchedWords 8 (x.addr + off) n).filter fun w =>
    decide (w < limit) && decide (x.addr ≤ w) && decide (w + 8 ≤ x.addr + total)
      && left.all fun p => decide (x.addr + p.off + p.len ≤ w) || decide (w + 8 ≤ x.addr + p.off)

/-- Write a transfer's local side (R160, R162, R186). -/
def State.localWrite (s : State) (x : Xfer) (off n v total : Nat) (left : List Piece) : State :=
  if x.space = 1 then s.modCluster (coreCluster x.core) fun c => c.tileWrite x.swz (x.addr + off) n v
  else s.modCore x.core fun c =>
    let full := filledWords x off n total (c.tagged * 4096) left
    { c with
      spad := Memory.write c.spad (x.addr + off) n v,
      spadUE := healed c.spadUE 8 (x.addr + off) n,
      tagFull := full ++ c.tagFull.filter fun w => !full.contains w }

/-- Energy of the local side (R316). -/
def localCost (space n : Nat) : Nat := if space = 1 then tileCost n else if space = 0 then spadCost n else 0

/-! ### Issue (R170-R172) -/

/-- Control word fields (R171). -/
structure Control where
  bx : Nat
  by' : Nat
  bar : Nat
  barv : Bool
  elem : Nat
  rsv : Bool
  codec : Bool
  swz : Nat
  space : Nat
  len : Nat
  deriving DecidableEq, Repr
def controlOf (c : Word) : Control :=
  let f (lo n : Nat) : Nat := entryField c lo n
  ⟨f 56 8, f 48 8, f 40 8, c.getLsbD 39, f 36 3, f 33 3 != 0 || f 20 8 != 0, c.getLsbD 32, f 30 2, f 28 2, f 0 20⟩

/-- The four forms (R170). -/
inductive XForm where
  | put | get | gather | scatter
  deriving DecidableEq, Repr
def XForm.listed (f : XForm) : Bool := f == .gather || f == .scatter
/-- Bytes of the local side. -/
def Control.bytes (k : Control) (f : XForm) : Nat := if f.listed then k.len * 2 ^ k.elem else k.len

/-- Row 1 of R172. -/
def Control.bad (k : Control) (f : XForm) (a : Nat) : Bool :=
  k.rsv || k.space == 3 || (k.codec && (k.space != 1 || f.listed)) || (k.space == 2 && f != .get)
    || (k.space == 2 && ((decide (1 ≤ a) && decide (a ≤ 39) && k.len != 8) || (decide (48 ≤ a) && decide (a ≤ 63) && k.len != 128)))
    || (k.elem != 0 && !f.listed) || (f.listed && (k.len == 0 || decide (4096 < k.len)))

/-- The rows of R172 in order. The check of R156 that the job owns the tile store has no row there: it stands after row 3. An
empty range leaves nothing, so rows 4 and 5 pass with LEN = 0 (log 47). -/
def xferStop (f : XForm) (k : Control) (a b c : Word) (t : Thread) (s : State) : Option Stop :=
  let n := k.bytes f
  let size := if k.space = 1 then 4194304 else (s.core t.coreId).poolSpad * 4096
  let spad := (s.core t.coreId).poolSpad * 4096
  if k.bad f a.toNat then some (.trap .access c)
  else if k.space = 2 ∧ ¬ ((1 ≤ a.toNat ∧ a.toNat ≤ 39) ∨ (48 ≤ a.toNat ∧ a.toNat ≤ 63)) then some (.trap .access a)
  else if k.barv && !(decide (k.bx < 64) && decide (k.by' < 32) && s.owns t.ctx (coreAt k.bx k.by')) then
    some (.trap .access c)
  else if k.space = 1 && !s.holds t.ctx t.cluster then some (.trap .access a)
  else if k.space < 2 ∧ n ≠ 0 ∧ size < a.toNat + n then some (.trap .access (if size ≤ a.toNat then a else BitVec.ofNat 64 size))
  else if !f.listed && n != 0 && decide (2 ^ 52 < b.toNat + n) then some (.trap .access b)
  else if f.listed && b.toNat % 8 != 0 then some (.trap .misaligned b)
  else if f.listed && decide (spad < b.toNat + 8 * k.len) then some (.trap .access b)
  else none

/-- The pieces of a run of global bytes: none crosses a 128-byte line (R177). -/
def linePieces : Nat → Nat → Nat → Nat → List Piece
  | 0, _, _, _ => []
  | fuel + 1, va, len, off =>
    if len = 0 then []
    else
      let n := min len (128 - va % 128)
      ⟨va, n, off⟩ :: linePieces fuel (va + n) (len - n) (off + n)
def piecesOf (va len off : Nat) : List Piece := linePieces (len / 128 + 2) va len off
/-- The pieces of a list of elements (R174). An element whose list word is uncorrectable has one piece of no bytes, which stops
the transfer (R178, R186). -/
def elemPieces (es : Nat) : Nat → List (Option Nat) → List Piece
  | _, [] => []
  | i, some va :: rest => piecesOf va es (i * es) ++ elemPieces es (i + 1) rest
  | i, none :: rest => ⟨0, 0, i * es⟩ :: elemPieces es (i + 1) rest
/-- The blocks of a codec transfer (R175): local bytes of each, in order (log 48). -/
def blockPieces (len : Nat) : List Piece :=
  (List.range ((len + 31) / 32)).map fun i => ⟨0, min 32 (len - 32 * i), 32 * i⟩

/-- Read a list of dwords from a scratchpad (R174); none for an uncorrectable word (log 47). -/
def readList (c : Core) (a : Nat) : Nat → List (Option Nat)
  | 0 => []
  | n + 1 => (if c.spadUE.contains (a / 8 * 8) then none else some (Memory.read c.spad a 8)) :: readList c (a + 8) n

/-- The count of in-flight transfers of a tag goes up, and its DONE bit is cleared (R180). -/
def Thread.tagIssue (t : Thread) (tag : Nat) : Thread :=
  { t with tagCount := assign t.tagCount tag (lookupD t.tagCount tag 0 + 1),
           csr := { t.csr with done := t.csr.done &&& ~~~(1#64 <<< tag) } }
/-- A completion: the count goes down, and DONE is set at 0 (R180). -/
def Thread.tagDone (t : Thread) (tag : Nat) : Thread :=
  let n := lookupD t.tagCount tag 0 - 1
  { t with
    tagCount := if n = 0 then t.tagCount.filter fun e => e.1 != tag else assign t.tagCount tag n,
    csr := { t.csr with done := if n = 0 then t.csr.done ||| (1#64 <<< tag) else t.csr.done } }

/-- The lowest number no entry of a queue has. -/
def freeEntry (xq : List Xfer) : Nat := ((List.range 32).find? fun n => xq.all fun x => x.entry != n).getD 0

/-- A transfer with its number in the model and its entry in the queue. -/
def Xfer.numbered (x : Xfer) (id entry : Nat) : Xfer :=
  { x with id := id, entry := entry, kind := match x.kind with
    | .remote chip rctx dst total note _ => .remote chip rctx dst total note id
    | k => k }
/-- Put a transfer into its core's queue (R169, R179). -/
def State.enqueue (s : State) (x : Xfer) : State :=
  ({ s with nextId := s.nextId + 1 } : State).modCore x.core fun c => { c with xq := c.xq ++ [x.numbered s.nextId (freeEntry c.xq)] }

/-- The queue entry of a transfer instruction with its operand values (R169-R176); its numbers are given when it enters the
queue. -/
def transferOf (f : XForm) (k : Control) (tag : Nat) (a b : Word) (t : Thread) (s : State) : Xfer :=
  let kind : XKind := match f with
    | .put => .put
    | .get => .get
    | .gather => .gather
    | .scatter => .scatter
  let pieces :=
    if k.codec then blockPieces k.len
    else if f.listed then elemPieces (2 ^ k.elem) 0 (readList (s.core t.coreId) b.toNat k.len)
    else piecesOf b.toNat k.len 0
  { id := 0, entry := 0, tid := t.tid, ctx := t.ctx, tag := tag, kind := kind, core := t.coreId, addr := a.toNat, space := k.space,
    swz := k.swz, codec := k.codec, len := k.bytes f, bar := if k.barv then some (coreAt k.bx k.by', k.bar) else none,
    region := t.region.seq, pieces := pieces, buf := 0, after := [], cursor := b.toNat, acked := 0, early := [] }
/-- What the issue of a transfer does to its thread (R176, R180): its tag counts, and a register destination is empty. -/
def Thread.startXfer (t : Thread) (x : Xfer) : Thread :=
  let t := t.tagIssue x.tag
  if x.space = 2 then { t with c := t.c.setEmpty (BitVec.ofNat 6 x.addr) } else t
/-- The global address of a transfer, the operand of a wait for a queue entry (R169): the first of a list. -/
def Xfer.operand (x : Xfer) (b : Word) : Word :=
  match x.kind with
  | .gather => (x.pieces.head?.map fun p => BitVec.ofNat 64 p.va).getD b
  | .scatter => (x.pieces.head?.map fun p => BitVec.ofNat 64 p.va).getD b
  | _ => b

/-- A transfer instruction (R169-R176) (log 47). -/
def transfer (o : OpX) (f : XForm) (t : Thread) (s : State) : Done :=
  match ready t s 0#2 [o.a, o.b, o.c] [] with
  | some stop => .error stop
  | none =>
    let a := srcVal t s 0#2 o.a
    let b := srcVal t s 0#2 o.b
    let c := srcVal t s 0#2 o.c
    let k := controlOf c
    match xferStop f k a b c t s with
    | some stop => .error stop
    | none =>
      let spad := s.core t.coreId
      let x := transferOf f k o.tag.toNat a b t s
      taking .xfer t.coreId (decide (spad.xq.length < Config.transferEntries)) 0#2 (x.operand b) [o.a, o.b, o.c] (.enqueue x)
        (fun t s => .ok ((t.startXfer x).advance, (consume t s [o.a, o.b, o.c]).enqueue x)) t s

/-- `xput` (R170). -/
def execXput (o : OpX) (s : State) : Host.Outcome State Fault Refusal := issue (.xput o) (transfer o .put) s
/-- `xget` (R170). -/
def execXget (o : OpX) (s : State) : Host.Outcome State Fault Refusal := issue (.xget o) (transfer o .get) s
/-- `xgath` (R170). -/
def execXgath (o : OpX) (s : State) : Host.Outcome State Fault Refusal := issue (.xgath o) (transfer o .gather) s
/-- `xscat` (R170). -/
def execXscat (o : OpX) (s : State) : Host.Outcome State Fault Refusal := issue (.xscat o) (transfer o .scatter) s

/-! ### Pieces and completion (R177-R180) -/

def State.xfer? (s : State) (core id : Nat) : Option Xfer := (s.core core).xq.find? fun x => x.id == id
def State.setXfer (s : State) (x : Xfer) : State :=
  s.modCore x.core fun c => { c with xq := c.xq.map fun y => if y.id = x.id then x else y }
def State.dropXfer (s : State) (x : Xfer) : State :=
  s.modCore x.core fun c => { c with xq := c.xq.filter fun y => y.id != x.id }

/-- Decrease a far-end barrier (R178, R182). -/
def State.deliverTo (s : State) (bar : Option (Nat × Nat)) (n : Nat) : State :=
  match bar with
  | some (core, b) => s.modCore core fun c =>
    let l := c.localStore
    c.withStore (l.setBarrier b ((l.barrier b).deliver n))
  | none => s

/-- Free a transfer's entry and update its tag (R178-R180); an evicted task's frame takes TAGIMG and XPEND. -/
def State.finishXfer (s : State) (x : Xfer) : State :=
  let s := (s.dropXfer x).modThread x.tid fun t => t.tagDone x.tag
  match s.thread? x.tid with
  | some t => (s.frameWrite t frameTagimg 8 t.csr.done.toNat).frameWrite t frameXpend 4 (s.xpend x.tid)
  | none => s
/-- Stop a transfer: its entry and tag as at a completion, and its task is killed (R178). -/
def State.stopXfer (s : State) (x : Xfer) (c : Cause) (va : Word) : State :=
  let s := s.finishXfer x
  match s.thread? x.tid with
  | some t => s.kill t c va
  | none => s
/-- A failed piece stops its transfer (R178); the note of a remote put is poisoned with the cause (R433). -/
def State.failXfer (s : State) (x : Xfer) (c : Cause) (va : Word) : State :=
  let s := s.stopXfer x c va
  match x.kind with
  | .remote _ _ _ _ note _ =>
    if note = 0#64 then s else s.sendNote ⟨.poison, note, va, c.code, x.tid, x.ctx, x.core, false, [], false, none⟩
  | _ => s

/-- What the checks of one global piece of an asynchronous operation give. -/
inductive Checked where
  | ok (pa : Nat) (s : State)
  | fail (c : Cause) (v : Word)
  | page (s : State)
  | wait
  deriving DecidableEq, Repr

/-- Whether a waiter already waits on a fault. -/
def State.faulting (s : State) (who : FaultWaiter) : Bool := s.faults.any fun f => f.waiters.contains who

/-- The checks of a global piece (R177, R195, R205): translation through a core's caches (or a walk), permission, poison,
and on a checked page the race check for the region given. -/
def State.checkPiece (s : State) (ctx : Nat) (core : Option Nat) (need : Need) (va n : Nat) (who : FaultWaiter)
    (region : Option (Nat × BitVec 2)) : Checked :=
  match s.xlate ctx core need va with
  | .asleep => .wait
  | .access => .fail .access (BitVec.ofNat 64 va)
  | .ue => .fail .ue (BitVec.ofNat 64 va)
  | .page w =>
    if s.faulting who then .wait
    else .page (s.raiseFault ctx va need w who (match core with
      | some c => coordOf s.chip c
      | none => BitVec.allOnes 64))
  | .ok pa leaf =>
    if !(if need == .write then s.bufferRoom pa else s.awake pa) then .wait
    else match (if leafChk leaf then region else none) with
      | some (tid, seq) => match s.raceAccess tid ((s.thread? tid).elim 0#24 (·.num)) seq (BitVec.ofNat 64 va) pa n (need == .write) with
        | .conflict _ => .fail .race (BitVec.ofNat 64 va)
        | .full => match s.tellSpill pa with
          | some s' => .page s'
          | none => .wait
        | .clear s' => .ok pa s'
      | none => .ok pa s

/-- Read a checked piece; poison stops it (R389). -/
def State.readPiece (s : State) (va pa n : Nat) : Except Word Nat :=
  match s.poisonVa (BitVec.ofNat 64 va) pa n fun _ => true with
  | some x => .error x
  | none => .ok (s.peek pa n)

/-- The number in `v`, of `n` bytes that stand at `off`, with the bytes of an operation that have been read before their piece
(R173). -/
def withEarly (early : List (Nat × Nat)) (off n v : Nat) : Nat :=
  early.foldl (fun v e => if off ≤ e.1 ∧ e.1 < off + n then splice v (e.1 - off) 1 e.2 else v) v
/-- The same with the bytes that have been written before their piece, which keep what stands there now (R173). -/
def keepEarly (early : List Nat) (off n v now : Nat) : Nat :=
  withEarly ((early.filter fun b => decide (off ≤ b) && decide (b < off + n)).map fun b => (b, slice now (b - off) 1)) off n v

/-- The checks of one piece of a transfer (R177): an access of its issuing thread in the region current at issue. -/
def State.checkXfer (s : State) (x : Xfer) (need : Need) (va n off : Nat) : Checked :=
  s.checkPiece x.ctx (some x.core) need va n (.xfer x.core x.id off) (some (x.tid, x.region))

/-- One piece of a put or scatter (R178). -/
def putPiece (x : Xfer) (p : Piece) (s : State) : Option State :=
  match s.checkXfer x .write p.va p.len p.off with
  | .wait => none
  | .page s' => some s'
  | .fail c v => some (s.failXfer x c v)
  | .ok pa s' => match s.localRead x p.off p.len with
    | none => some (s.failXfer x .ue (BitVec.ofNat 64 p.va))
    | some v =>
      let s := (s'.poke pa p.len (withEarly x.early p.off p.len v)).homeCharge x.tid x.ctx x.core pa p.len
      let s := s.bill x.tid x.ctx (localCost x.space p.len)
      some ((s.setXfer { x with pieces := x.pieces.filter (· != p) }).deliverTo x.bar p.len)

/-- One piece of a get or gather (R176, R178). -/
def getPiece (x : Xfer) (p : Piece) (s : State) : Option State :=
  match s.checkXfer x .read p.va p.len p.off with
  | .wait => none
  | .page s' => some s'
  | .fail c v => some (s.failXfer x c v)
  | .ok pa s' => match s.readPiece p.va pa p.len with
    | .error _ => some (s.failXfer x .ue (BitVec.ofNat 64 p.va))
    | .ok v =>
      let left := x.pieces.filter (· != p)
      let v := keepEarly (x.early.map (·.1)) p.off p.len v ((s.localRead x p.off p.len).getD v)
      let s := s'.homeCharge x.tid x.ctx x.core pa p.len
      let s := if x.space = 2 then s.setXfer { x with pieces := left, buf := splice x.buf p.off p.len v }
        else ((s.localWrite x p.off p.len v x.len left).bill x.tid x.ctx (localCost x.space p.len)).setXfer
          { x with pieces := left }
      some (s.deliverTo x.bar p.len)

/-- Check the lines of a block or message at place `at_`, in order: the first that fails or waits decides, else their physical
addresses (R177). -/
def checkLines (x : Xfer) (need : Need) (at_ : Nat) : List Piece → State → Except (Option State) (List (Nat × Piece) × State)
  | [], s => .ok ([], s)
  | p :: ps, s =>
    match s.checkXfer x need p.va p.len at_ with
    | .wait => .error none
    | .page s' => .error (some s')
    | .fail c v => .error (some (s.failXfer x c v))
    | .ok pa s' =>
      if need == .read && (s.readPiece p.va pa p.len).toOption.isNone then
        .error (some (s.failXfer x .ue (BitVec.ofNat 64 p.va)))
      else match checkLines x need at_ ps s' with
        | .error e => .error e
        | .ok (l, s'') => .ok ((pa, p) :: l, s'')

/-- The bytes at a codec transfer's cursor that can be read now, as 46 bytes (the rest zero). -/
def State.ahead (s : State) (x : Xfer) : Nat :=
  gather (fun va => match s.xlate x.ctx (some x.core) .read va with
    | .ok pa _ => s.peek pa 1
    | _ => 0) x.cursor 46

/-- One block of a codec get (R175): decode at the cursor, write the decoded bytes, report a malformed block (log 48). -/
def decodeBlock (x : Xfer) (p : Piece) (s : State) : Option State :=
  let bytes := s.ahead x
  let (codes, used, bad) := exb8Decode bytes
  let need := max used (((readOffsets bytes 32 8).2 + 134 + 7) / 8)
  match checkLines x .read p.off (piecesOf x.cursor (min need 46) 0) s with
  | .error e => e
  | .ok (lines, s) =>
    let v := codes.foldr (fun c acc => c + 256 * acc) 0 % 256 ^ p.len
    let v := keepEarly (x.early.map (·.1)) p.off p.len v ((s.localRead x p.off p.len).getD v)
    let left := x.pieces.filter (· != p)
    let s := lines.foldl (fun s l => s.homeCharge x.tid x.ctx x.core l.1 l.2.len) s
    let s := ((s.localWrite x p.off p.len v x.len left).bill x.tid x.ctx (localCost x.space p.len)).setXfer
      { x with pieces := left, cursor := x.cursor + used }
    let s := if bad then s.report x.ctx 2 0 (BitVec.ofNat 64 x.cursor) (coordOf s.chip x.core) [] else s
    some (s.deliverTo x.bar p.len)

/-- Write the lines of an encoded block. -/
def writeLines (v : Nat) : List (Nat × Piece) → State → State
  | [], s => s
  | (pa, p) :: l, s => writeLines v l (s.poke pa p.len (slice v p.off p.len))

/-- One block of a codec put (R175): encode 32 local bytes, the last block completed with zeros (R35), and write it (log 48). -/
def encodeBlock (x : Xfer) (p : Piece) (s : State) : Option State :=
  match s.localRead x p.off p.len with
  | none => some (s.failXfer x .ue (BitVec.ofNat 64 x.cursor))
  | some v =>
    let v := withEarly x.early p.off p.len v
    let (block, len) := exb8Encode ((List.range 32).map fun i => slice v i 1)
    match checkLines x .write p.off (piecesOf x.cursor len 0) s with
    | .error e => e
    | .ok (lines, s) =>
      if !s.roomFor (lines.map (·.1)) then none else
      let s := lines.foldl (fun s l => s.homeCharge x.tid x.ctx x.core l.1 l.2.len) (writeLines block lines s)
      let s := (s.bill x.tid x.ctx (localCost x.space p.len)).setXfer
        { x with pieces := x.pieces.filter (· != p), cursor := x.cursor + len }
      some (s.deliverTo x.bar len)

/-- Read the source of a remote put's message (R433): the first line that fails stops the put. -/
def sourceRead (lines : List (Nat × Piece)) (s : State) : Nat :=
  lines.foldl (fun acc l => acc + s.peek l.1 l.2.len * 256 ^ l.2.off) 0

/-- One message of a remote put (R433): its source is read in pieces and sent as a PUT message, after the issuer's earlier
stores. -/
def remotePiece (x : Xfer) (p : Piece) (chip rctx dst total : Nat) (note : Word) (number : Nat) (s : State) : Option State :=
  if !s.performed x.after then none
  else match checkLines x .read p.off (piecesOf p.va p.len 0) s with
    | .error e => e
    | .ok (lines, s) =>
      let s := lines.foldl (fun s l => s.homeCharge x.tid x.ctx x.core l.1 l.2.len) s
      let s := s.setXfer { x with pieces := x.pieces.filter (· != p) }
      some (s.sendFab chip x.ctx rctx (.put (dst + p.off) number total p.len note (sourceRead lines s)))

/-- Whether a scatter piece overlaps a piece of an earlier list entry that is still to come: the highest index is written
last (R174) (log 49). -/
def overlapsEarlier (x : Xfer) (p : Piece) : Bool :=
  x.pieces.any fun q => decide (q.off < p.off) && decide (q.va < p.va + p.len) && decide (p.va < q.va + q.len)

/-- Perform one piece of a transfer (R178) (log 48, 49). -/
def State.performPiece (s : State) (x : Xfer) (p : Piece) : Option State :=
  if p.len = 0 then some ((s.failXfer x .ue (Config.listTval s.freeCtr)).tickFree) else
  match x.kind with
  | .remote chip rctx dst total note number => remotePiece x p chip rctx dst total note number s
  | .put => if x.codec then (if x.pieces.head? = some p then encodeBlock x p s else none) else putPiece x p s
  | .get => if x.codec then (if x.pieces.head? = some p then decodeBlock x p s else none) else getPiece x p s
  | .gather => getPiece x p s
  | .scatter => if overlapsEarlier x p then none else putPiece x p s

/-- Whether a transfer reads its local side (R173). -/
def XKind.reads : XKind → Bool
  | .put => true
  | .scatter => true
  | _ => false
/-- One local byte of a transfer is read or written before its piece (R173, R13): of a put its value is kept, of a get it is written
with the value that memory holds now, as its piece would write it; none where its piece could not be performed (log 27). -/
def earlyByte (x : Xfer) (b : Nat) (s : State) : Option State :=
  match x.pieces.find? fun p => decide (p.off ≤ b) && decide (b < p.off + p.len) with
  | none => none
  | some p =>
    if x.space = 2 || (x.early.any fun e => e.1 == b) then none
    else if x.kind.reads then (s.localRead x b 1).map fun v => s.setXfer { x with early := (b, v) :: x.early }
    else if x.codec || (match x.kind with
      | .remote _ _ _ _ _ _ => true
      | _ => false) then none
    else match s.checkXfer x .read p.va p.len p.off with
      | .ok pa _ => match s.readPiece p.va pa p.len with
        | .ok v => some ((s.localWrite x b 1 (slice v (b - p.off) 1) x.len x.pieces).setXfer { x with early := (b, 0) :: x.early })
        | .error _ => none
      | _ => none

/-- TRANSFER_PIECE_PERFORMED (R178): piece number `piece` of those left. -/
def execTransferPiecePerformed (core id piece : Nat) (s : State) : Host.Outcome State Fault Refusal :=
  match s.xfer? core id with
  | some x => match x.pieces[piece]? with
    | some p => match s.performPiece x p with
      | some s' => .next s'
      | none => .refused .notEnabled
    | none => .refused .notEnabled
  | none => .refused .notEnabled

/-- Fill the register destination of a completed transfer, in the context or in the save frame (R176). -/
def State.fillReg (s : State) (x : Xfer) : State :=
  let r := BitVec.ofNat 6 x.addr
  match s.thread? x.tid with
  | none => s
  | some t =>
    if !isVec r then s.fillDest t r (BitVec.ofNat 64 x.buf)
    else
      let s := s.setThread { t with c := t.c.setVec r (VReg.ofNat x.buf) }
      let fe := s.frameRead t frameFe 8 ||| 2 ^ feBit r
      (s.frameWrite t (frameReg r) 128 x.buf).frameWrite t frameFe 8 fe

/-- TRANSFER_COMPLETE (R178): every piece has been performed; a remote put's acknowledgements cover its bytes (R433). -/
def execTransferComplete (core id : Nat) (s : State) : Host.Outcome State Fault Refusal :=
  match s.xfer? core id with
  | some x =>
    let done := match x.kind with
      | .remote _ _ _ total _ _ => decide (total ≤ x.acked)
      | _ => true
    if x.pieces.isEmpty && done then .next ((if x.space = 2 then s.fillReg x else s).finishXfer x)
    else .refused .notEnabled
  | none => .refused .notEnabled

/-! ### Pieces of operations that no thread's transfer queue holds (R177, R205, R237, R253, R300, R301) -/

/-- What the checks of a run of pieces give. -/
inductive RunCheck where
  | ok (lines : List (Nat × Piece)) (s : State)
  | wait
  | page (s : State)
  | fail (c : Cause) (va : Nat)

/-- Check the pieces of a run in order, without race metadata (R237); a read of a poisoned word is UE. -/
def State.checkRun (s : State) (ctx : Nat) (need : Need) (who : FaultWaiter) : List Piece → RunCheck
  | [] => .ok [] s
  | p :: ps =>
    match s.checkPiece ctx none need p.va p.len who none with
    | .wait => .wait
    | .page s' => .page s'
    | .fail c _ => .fail c p.va
    | .ok pa _ =>
      if need == .read && (s.poisonAt pa p.len).isSome then .fail .ue p.va
      else match s.checkRun ctx need who ps with
        | .ok l s' => .ok ((pa, p) :: l) s'
        | r => r

/-- The bytes of checked pieces as one number, and the write of such a number. -/
def State.readLines (s : State) (lines : List (Nat × Piece)) : Nat := sourceRead lines s
/-- Picojoules of checked pieces at their home slices, from a cluster of the die given (R316) (log 29, 55). -/
def State.linesCost (s : State) (die : Nat) (lines : List (Nat × Piece)) : State × Nat :=
  lines.foldl (fun a l => (a.1.tickFree, a.2 + a.1.homeCost die l.1 l.2.len)) (s, 0)

/-- What one piece of a tile fetch gives: the state, the next block's address and the energy. -/
inductive TileFetch where
  | ok (s : State) (cursor pj : Nat)
  | wait
  | page (s : State)
  | fail (c : Cause) (va : Nat)

/-- Fetch one piece of a tile into a cluster's tile store, or decode one block of a coded one (R177, R175, R160). -/
def State.tilePieceAt (s : State) (ctx : Nat) (who : FaultWaiter) (cl dest mode : Nat) (codec : Bool) (cursor : Nat)
    (p : Piece) : TileFetch :=
  if !codec then
    match s.checkRun ctx .read who [p] with
    | .ok lines s =>
      let v := s.readLines (lines.map fun l => (l.1, { l.2 with off := 0 }))
      let (s, pj) := s.linesCost (cl / 64) lines
      .ok (s.modCluster cl fun c => c.tileWrite mode (dest + p.off) p.len v) cursor (pj + tileCost p.len)
    | .wait => .wait
    | .page s => .page s
    | .fail c va => .fail c va
  else
    let bytes := gather (fun va => match s.xlate ctx none .read va with
      | .ok pa _ => s.peek pa 1
      | _ => 0) cursor 46
    let (codes, used, bad) := exb8Decode bytes
    let need := max used (((readOffsets bytes 32 8).2 + 134 + 7) / 8)
    match s.checkRun ctx .read who (piecesOf cursor (min need 46) 0) with
    | .ok lines s =>
      let v := codes.foldr (fun c acc => c + 256 * acc) 0 % 256 ^ p.len
      let s := s.modCluster cl fun c => c.tileWrite mode (dest + p.off) p.len v
      let s := if bad then s.report ctx 2 0 (BitVec.ofNat 64 cursor) (BitVec.allOnes 64) [] else s
      let (s, pj) := s.linesCost (cl / 64) lines
      .ok s (cursor + used) (pj + tileCost p.len)
    | .wait => .wait
    | .page s => .page s
    | .fail c va => .fail c va

end Sys2Proof.Machine
end

