-- ==== Sys2Proof/Machine/Engine.lean ====
section
/-! DEFINITION. Matrix engine contexts: binding, numbered operations, tile registers, products, timelines (R320-R344). -/

namespace Sys2Proof.Machine

/-! ### Fields of an engine word (R324) -/

def mOpcode (w : W32) : Nat := (bits w 26 6).toNat
def mMf (w : W32) : Nat := (bits w 22 4).toNat
def mTa (w : W32) : Nat := (bits w 19 3).toNat
def mTb (w : W32) : Nat := (bits w 16 3).toNat
def mAcc (w : W32) : Nat := (bits w 15 1).toNat
def mSlot (w : W32) : Nat := (bits w 9 6).toNat
def mCtl (w : W32) : BitVec 3 := bits w 0 3

/-- What a numbered operation does (R324). -/
inductive MKind where
  | mma | mmac | mdrain | tld | tst | tzero | azero
  deriving DecidableEq, Repr
def mKind (w : W32) : MKind :=
  if mOpcode w = 0x23 then (if mMf w = 0 then .mma else if mMf w = 1 then .mmac else .mdrain)
  else if mMf w = 0 then .tld else if mMf w = 1 then .tst else if mMf w = 2 then .tzero else .azero
def MKind.product (k : MKind) : Bool := k == .mma || k == .mmac
/-- Whether an operation writes its accumulator or drains it, and so waits for its earlier drains (R326, R331, R333). -/
def MKind.accumulates (k : MKind) : Bool := k.product || k == .mdrain || k == .azero
/-- Whether an operation ends in a drain (R330, R331). -/
def drainsOf (w : W32) : Bool := mKind w == .mdrain || ((mKind w).product && (mCtl w).getLsbD 1)

/-! ### Contexts (R321, R326) -/

/-- A context as granted (R321, R334). -/
def Engine.blank (idx holder : Nat) : Engine :=
  { idx := idx, holder := holder, tiles := Vector.replicate 8 [], tUE := [], aUE := [], acc := Vector.replicate 2 [],
    kind := Vector.replicate 2 false, pois := Vector.replicate 2 0#64, tl := 0#64, issued := 0#64, halt := false,
    faultPc := none, ops := [], drains := Vector.replicate 2 none, landing := [] }

/-- Accumulators and tile registers by number. -/
def Engine.accOf (e : Engine) (c : Nat) : List (Nat × W32) := if c = 0 then e.acc[0] else e.acc[1]
def Engine.setAcc (e : Engine) (c : Nat) (a : List (Nat × W32)) : Engine :=
  { e with acc := if c = 0 then e.acc.set 0 a else e.acc.set 1 a }
def Engine.poisOf (e : Engine) (c : Nat) : Word := if c = 0 then e.pois[0] else e.pois[1]
def Engine.setPois (e : Engine) (c : Nat) (p : Word) : Engine :=
  { e with pois := if c = 0 then e.pois.set 0 p else e.pois.set 1 p }
def Engine.kindOf (e : Engine) (c : Nat) : Bool := if c = 0 then e.kind[0] else e.kind[1]
def Engine.setKind (e : Engine) (c : Nat) (k : Bool) : Engine :=
  { e with kind := if c = 0 then e.kind.set 0 k else e.kind.set 1 k }
def Engine.drainOf (e : Engine) (c : Nat) : Option DrainRec := if c = 0 then e.drains[0] else e.drains[1]
def Engine.setDrain (e : Engine) (c : Nat) (d : Option DrainRec) : Engine :=
  { e with drains := if c = 0 then e.drains.set 0 d else e.drains.set 1 d }
def Engine.tileOf (e : Engine) (n : Nat) : Mem := e.tiles.toList.getD n []
def Engine.setTile (e : Engine) (n : Nat) (m : Mem) : Engine :=
  { e with tiles := Vector.ofFn fun i => if i.val = n then m else e.tiles[i], tUE := e.tUE.filter fun u => u.1 != n }

/-- An element's pattern; an element that is not listed is zero. -/
def accAt (a : List (Nat × W32)) (i : Nat) : W32 := ((a.find? fun e => e.1 == i).map (·.2)).getD 0#32
/-- Rebuild an accumulator from a function of the index, listing the nonzero elements in order. -/
def accBuild (f : Nat → W32) : List (Nat × W32) :=
  (List.range 4096).filterMap fun i => if f i = 0#32 then none else some (i, f i)

/-- Numbers of the operations that are not complete (R326). -/
def Engine.incomplete (e : Engine) : List Word :=
  ((e.ops.filter fun o => !o.finished).map (·.num)) ++ (e.drains.toList.filterMap id).map (·.opnum) ++ e.landing.map (·.2.opnum)
/-- Whether an accumulator word of rows 0 to rows − 1 and columns 0 to cols − 1 is uncorrectable (R455). -/
def Engine.accBad (e : Engine) (c rows cols : Nat) : Bool :=
  e.aUE.any fun u => u.1 == c && decide (u.2 / 64 < rows) && decide (u.2 % 64 < cols)
/-- An accumulator's words become good where a write covers both of their elements (R186, R455). -/
def Engine.healAcc (e : Engine) (c : Nat) (covered : Nat → Bool) : Engine :=
  { e with aUE := e.aUE.filter fun u => !(u.1 == c && covered u.2 && covered (u.2 + 1)) }
/-- TL: the largest n such that operations 1 to n are complete (R326). -/
def Engine.settle (e : Engine) : Engine :=
  { e with tl := (e.incomplete.foldl (fun m n => if n ≤ m then n - 1#64 else m) e.issued) }

def State.engine? (s : State) (cl idx : Nat) : Option Engine := (s.cluster cl).engines.find? fun e => e.idx == idx
def State.setEngine (s : State) (cl : Nat) (e : Engine) : State :=
  s.modCluster cl fun c => { c with engines := c.engines.map fun f => if f.idx = e.idx then e.settle else f }

/-- Whether a context works: its task is not being saved or restored (R322, R340). -/
def State.engineRuns (s : State) (e : Engine) : Bool :=
  match s.thread? e.holder with
  | some t => match t.run with
    | .saving _ _ _ _ _ => false
    | .restoring _ _ _ => false
    | _ => true
  | none => false

/-- The wake condition of a wait on a context's timeline (R326, R336). -/
def timelineWake (cl idx : Nat) (n : Word) : Wake :=
  wake .timeline (2 ^ 24 + 2 ^ 16 * (cl / 64) + 2 ^ 8 * (cl % 64) + idx) n

/-- The recorded operation of an instruction (R327) (log 63). -/
def Engine.recordAt (e : Engine) (pc : Word) (w : W32) : Option ArrRec := e.ops.find? fun o => o.recorded && o.pc == pc && o.word == w
/-- A recorded operation as its instruction's re-issue finds it (R327): one that runs keeps its operands; one that a restore brought
back takes them anew, but for the drain word, which its record holds (R341). -/
def ArrRec.again (r m : ArrRec) : ArrRec :=
  if r.running then r
  else { m with num := r.num, nextk := r.nextk, after := r.after,
                arg := if drainsOf m.word then r.arg else m.arg, rc := if drainsOf m.word then r.rc else m.rc,
                sat := if drainsOf m.word then r.sat else m.sat }
/-- Drop the record: a finished operation goes, a running one goes on unrecorded, one stopped by an eviction stays (R327) (log 63). -/
def Engine.clearRecord (e : Engine) : Engine :=
  { e with ops := (e.ops.filter fun o => !o.finished).map fun o => if o.running then { o with recorded := false } else o }

/-! ### What every engine instruction shares (R325, R339) -/

/-- Take a trap with what has changed before it. -/
def trapNow (t : Thread) (s : State) (c : Cause) (v : Word) : Done :=
  let s' := takeTrap t c v t.pc s
  .ok ((s'.thread? t.tid).getD t, s')

/-- Let the stopped drains of a context run again (R365) (log 56). -/
def DrainRec.resume (d : DrainRec) : DrainRec := { d with stop := false, fault := 0#64 }
def Engine.resume (e : Engine) : Engine :=
  { e with halt := false, faultPc := none, drains := e.drains.map fun d => d.map DrainRec.resume }
/-- TVAL of DRAIN_FAULT (R363). -/
def Engine.faultWord (e : Engine) : Word :=
  match (e.drains.toList.filterMap id).find? fun d => d.stop with
  | some d => d.fault
  | none => 0#64

/-- Steps 2 and 3 of R325: a bound context; a halted drain's fault is delivered once, and the instruction that took it
resumes the drain when the handler has returned to it (R339) (log 56, 57). -/
def withEngine (w : W32) (body : Engine → Thread → State → Done) (t : Thread) (s : State) : Done :=
  match s.engineOf t with
  | none => .error (.trap .engineUnbound (w.zeroExtend 64))
  | some e =>
    if e.halt then
      if e.faultPc = some t.pc ∧ t.csr.trap = false then
        let e := e.resume
        let s := s.setEngine t.cluster e
        match body e t s with
        | .error (.trap c v) => trapNow t s c v
        | r => r
      else trapNow t (s.setEngine t.cluster { e with faultPc := some t.pc }) .drainFault e.faultWord
    else body e t s

/-- Finish a numbered operation for its thread: the number is the scalar result, and a prefix is consumed (R326, R54). -/
def Thread.numbered (t : Thread) (n : Word) : Thread :=
  { (({ t with c := t.c.pushQ n } : Thread).dropPrefix).advance with run := .runnable }

/-- Wait out an array part (R326). -/
def awaitArray (e : Engine) (n : Word) (t : Thread) (s : State) : Done :=
  .ok (t.park s.now (timelineWake t.cluster e.idx n), s)

/-- A numbered operation (R325-R327): the checks, then a number, then the wait for its array part. `mk` gives the operation
from the value of register a (log 57). -/
def numberedOp (w : W32) (srcs : List Reg) (check : Word → Engine → Thread → State → Option Stop)
    (mk : Word → Thread → ArrRec) (t : Thread) (s : State) : Done :=
  withEngine w (fun e t s => match ready t s 0#2 srcs [] with
    | some stop => .error stop
    | none =>
      let a := srcs.head?.elim 0#64 (srcVal t s 0#2)
      match check a e t s with
      | some stop => .error stop
      | none => match e.recordAt t.pc w with
        | some r =>
          if r.finished then
            let s' := s.setEngine t.cluster { e with ops := e.ops.filter fun o => o != r }
            match r.stop with
            | some x => trapNow t s' x.cause x.tval
            | none => .ok (t.numbered r.num, s')
          else
            awaitArray e r.num t (s.setEngine t.cluster { e with ops := e.ops.map fun o => if o = r then r.again (mk a t) else o })
        | none =>
          let e := e.clearRecord
          let n := e.issued + 1#64
          let e := { e with issued := n, ops := e.ops ++ [{ mk a t with num := n, after := s.earlier t.tid }] }
          let s := s.setEngine t.cluster e
          let s := if drainsOf w then s.modCluster t.cluster fun c =>
              { c with dslots := c.dslots.map fun d => if d.slot = mSlot w then { d with holds := d.holds ++ [(t.tid, n)] } else d }
            else s
          awaitArray e n t s) t s

/-- The shape of a thread's tile register (R95). -/
def Thread.shape (t : Thread) (n : Nat) : Word := t.csr.tshape.toList.getD n 0#64

/-- An operation as its instruction gives it (log 56, 57). -/
def operation (w : W32) (a : Word) (t : Thread) : ArrRec :=
  let sa := t.shape (mTa w)
  let sb := t.shape (mTb w)
  let f := latchFmts t.csr.latch
  let pfx := t.csr.pfx
  { word := w, pc := t.pc, num := 0#64, nextk := 0, arg := a,
    rc := if pfx then BitVec.ofNat 2 f.rc else 0#2, sat := pfx && f.sat,
    fa := BitVec.ofNat 4 (if pfx then f.fa else shapeFmt sa), fb := BitVec.ofNat 4 (if pfx then f.fb else shapeFmt sb),
    sa := sa, sb := sb, recorded := true, running := true, finished := false, stop := none, after := [] }

/-! ### Tile registers (R328) -/

/-- Fields of a tld or tst address word. -/
def tileAddr (x : Word) : Nat := (x.extractLsb' 0 22).toNat
def tilePitch (x : Word) : Nat := (x.extractLsb' 32 16).toNat
/-- Bytes of a row, and the runs of tile-store bytes of a tile with their offsets in the register. -/
def shapeRowBytes (sh : Word) : Nat := shapeCols sh * fmtBits (shapeFmt sh) / 8
def shapeBytes (sh : Word) : Nat := shapeRows sh * shapeCols sh * fmtBits (shapeFmt sh) / 8
def tileRuns (sh x : Word) : List Piece :=
  if tilePitch x = 0 then [⟨tileAddr x, shapeBytes sh, 0⟩]
  else (List.range (shapeRows sh)).map fun r => ⟨tileAddr x + r * tilePitch x, shapeRowBytes sh, r * shapeRowBytes sh⟩

/-- The first byte of a run at or beyond the end of the tile store. -/
def beyond (ps : List Piece) : Option Nat :=
  let outs := ps.filterMap fun p => if 4194304 < p.va + p.len then some (max 4194304 p.va) else none
  outs.foldl (fun m x => match m with
    | none => some x
    | some y => some (min x y)) none

/-- The first region of a tile whose layout tag differs from its mode (R161). -/
def Cluster.tagMismatch (c : Cluster) (m : Nat) (ps : List Piece) : Option Nat :=
  let bytes := ps.flatMap fun p => (touchedWords 4096 p.va p.len).map fun r => (r, max r p.va)
  let bad := bytes.filter fun b => lookupD c.ltags (b.1 / 4096) 0 != m
  bad.foldl (fun acc b => match acc with
    | none => some b.2
    | some y => some (min b.2 y)) none

/-- The checks of tld and tst (R328). -/
def tileOpStop (w : W32) (load : Bool) (x : Word) (_ : Engine) (t : Thread) (s : State) : Option Stop :=
  let sh := t.shape (mTa w)
  let p := tilePitch x
  if !validShape sh then some (.trap .illegal (w.zeroExtend 64))
  else if x.extractLsb' 48 16 ≠ 0#16 ∨ x.extractLsb' 22 10 ≠ 0#10 ∨ (p ≠ 0 ∧ p < shapeRowBytes sh)
      ∨ (fmtBits (shapeFmt sh) = 4 ∧ (if p = 0 then shapeRows sh * shapeCols sh % 2 = 1 else shapeCols sh % 2 = 1)) then
    some (.trap .access x)
  else match beyond (tileRuns sh x) with
    | some a => some (.trap .access (BitVec.ofNat 64 a))
    | none =>
      if !s.holds t.ctx t.cluster then some (.trap .access (BitVec.ofNat 64 (tileAddr x)))
      else if load && shapeStrict sh then
        match (s.cluster t.cluster).tagMismatch (shapeSwz sh) (tileRuns sh x) with
        | some a => some (.trap .layoutMismatch (BitVec.ofNat 64 a))
        | none => none
      else none

/-- `tld` (R328). -/
def execTld (o : OpM) (s : State) : Host.Outcome State Fault Refusal :=
  let w := (Instr.tld o).encode
  issue (.tld o) (numberedOp w [o.a] (tileOpStop w true) (operation w)) s
/-- `tst` (R328). -/
def execTst (o : OpM) (s : State) : Host.Outcome State Fault Refusal :=
  let w := (Instr.tst o).encode
  issue (.tst o) (numberedOp w [o.a] (tileOpStop w false) (operation w)) s
/-- `tzero` (R328). -/
def execTzero (o : OpM) (s : State) : Host.Outcome State Fault Refusal :=
  let w := (Instr.tzero o).encode
  issue (.tzero o) (numberedOp w [] (fun _ _ _ _ => none) (operation w)) s
/-- `azero` (R333). -/
def execAzero (o : OpM) (s : State) : Host.Outcome State Fault Refusal :=
  let w := (Instr.azero o).encode
  issue (.azero o) (numberedOp w [] (fun _ _ _ _ => none) (operation w)) s

/-! ### Products and drains at issue (R329-R332, R346) -/

/-- The bits of rows 0 to rows − 1. -/
def rowMask (rows : Nat) : Word := BitVec.ofNat 64 (2 ^ rows - 1)
/-- The drain word's and the slot's checks (R332, R346). -/
def drainStop (w : W32) (x : Word) (t : Thread) (s : State) : Option Stop :=
  if x.extractLsb' 50 14 ≠ 0#14 then some (.trap .access x)
  else if (s.cluster t.cluster).dslots.all fun d => d.slot != mSlot w then some (.trap .access (BitVec.ofNat 64 (mSlot w)))
  else none
/-- The UE word of R342 (log 61, 62). -/
def ueWord (pacc : Bool) (c tile row : Nat) : Word :=
  BitVec.ofNat 64 (pacc.toNat * 2 ^ 17 + c * 2 ^ 16 + tile * 2 ^ 8 + row)

/-- The checks of a product (R325 steps 4-6, R329, R330). -/
def productStop (w : W32) (x : Word) (e : Engine) (t : Thread) (s : State) : Option Stop :=
  let sa := t.shape (mTa w)
  let sb := t.shape (mTb w)
  let f := latchFmts t.csr.latch
  let sets := (tileInt (shapeFmt sa) && tileInt (shapeFmt sb)) || (tileFloat (shapeFmt sa) && tileFloat (shapeFmt sb))
  if !validShape sa || !validShape sb || shapeCols sa != shapeRows sb || (!t.csr.pfx && !sets)
      || (mKind w == .mmac && (shapeCols sa % 2 == 1 || decide (32 < shapeCols sb))) then
    some (.trap .illegal (w.zeroExtend 64))
  else if t.csr.pfx && (fmtBits f.fa != fmtBits (shapeFmt sa) || fmtBits f.fb != fmtBits (shapeFmt sb)) then
    some (.trap .prefixMisuse (w.zeroExtend 64))
  else match (if drainsOf w then drainStop w x t s else none) with
    | some stop => some stop
    | none =>
      if !(mCtl w).getLsbD 0 && (e.poisOf (mAcc w) &&& rowMask (shapeRows sa) != 0#64
          || e.accBad (mAcc w) (shapeRows sa) (if mKind w = .mmac then 2 * shapeCols sb else shapeCols sb)) then
        some (.trap .ue (ueWord true (mAcc w) 0 0))
      else none

/-- `mma` (R330). -/
def execMma (o : OpM) (s : State) : Host.Outcome State Fault Refusal :=
  let w := (Instr.mma o).encode
  issue (.mma o) (numberedOp w (if drainsOf w then [o.a] else []) (productStop w) (operation w)) s
/-- `mmac` (R330, R32). -/
def execMmac (o : OpM) (s : State) : Host.Outcome State Fault Refusal :=
  let w := (Instr.mmac o).encode
  issue (.mmac o) (numberedOp w (if drainsOf w then [o.a] else []) (productStop w) (operation w)) s

/-- The checks of `mdrain` (R331). -/
def mdrainStop (w : W32) (x : Word) (e : Engine) (t : Thread) (s : State) : Option Stop :=
  let sh := t.shape (mTa w)
  let dim (n : Nat) : Bool := decide (1 ≤ n) && decide (n ≤ 64)
  if !dim (shapeRows sh) || !dim (shapeCols sh) then some (.trap .illegal (w.zeroExtend 64))
  else match drainStop w x t s with
    | some stop => some stop
    | none =>
      if !(mCtl w).getLsbD 0 && (e.poisOf (mAcc w) &&& rowMask (shapeRows sh) != 0#64
          || e.accBad (mAcc w) (shapeRows sh) (shapeCols sh)) then
        some (.trap .ue (ueWord true (mAcc w) 0 0))
      else none
/-- `mdrain` (R331). -/
def execMdrain (o : OpM) (s : State) : Host.Outcome State Fault Refusal :=
  let w := (Instr.mdrain o).encode
  issue (.mdrain o) (numberedOp w [o.a] (mdrainStop w) (operation w)) s

/-! ### Binding, waiting and reading (R334-R336) -/

/-- `ebind` (R334): the reply is the teller's. -/
def execEbind (o : OpM) (s : State) : Host.Outcome State Fault Refusal :=
  issue (.ebind o) (fun t s => match ready t s 0#2 [] [o.a] with
    | some stop => .error stop
    | none =>
      let s' := match s.engineOf t with
        | some e => s.setEngine t.cluster e.clearRecord
        | none => s
      waitFor 0#2 0#64 [] (.ebind (o.ctl.extractLsb' 0 2) o.a) t s') s

/-- The lowest free context whose partner is free too, else the lowest (R334). -/
def pickContext (used free : List Nat) : Option Nat :=
  match free.find? fun i => !used.contains (i ^^^ 1) with
  | some i => some i
  | none => free.head?

/-- The context a teller grants a task (R310, R334): of those reserved for its contract release, else of those reserved for
none. -/
def Cluster.contextFor (c : Cluster) (release : Option (Nat × Nat)) : Option Nat :=
  let used := c.engines.map (·.idx)
  let free := (List.range 16).filter fun i => !used.contains i
  let mine := (c.contracts ++ c.ending).filter fun k => release == some (c.id, k.idx)
  match pickContext used (free.filter fun i => mine.any fun k => k.reserved.contains i) with
  | some i => some i
  | none => pickContext used (free.filter fun i => (c.contracts ++ c.ending).all fun k => !k.reserved.contains i)

/-- The teller's answer to `ebind` (R334): the context number or a refusal code, and whether it is granted. -/
def replyEbind (t : Thread) (s : State) (pd : BitVec 2) (d : Reg) : Option (State × Delivery) :=
  let answer (v : Nat) (ok : Bool) : Delivery := { Delivery.scalar d (BitVec.ofNat 64 v) with pd := pd, pv := ok }
  match s.engineOf t with
  | some e => some (s, answer e.idx true)
  | none =>
    let c := s.cluster t.cluster
    if c.owner ≠ some t.ctx then some (s, answer 0x101 false)
    else
      match c.contextFor t.contract with
      | some i =>
        some (s.modCluster t.cluster fun c => { c with engines := c.engines ++ [Engine.blank i t.tid] }, answer i true)
      | none => some (s, answer (if 16 ≤ c.engines.length then 0x100 else 0x102) false)

/-- `efree` (R335) (log 58). -/
def execEfree (o : OpM) (s : State) : Host.Outcome State Fault Refusal :=
  issue (.efree o) (fun t s => match s.engineOf t with
    | none => .ok (t.advance, s)
    | some _ => withEngine (Instr.efree o).encode (fun e t s =>
        let e := e.clearRecord
        if e.settle.tl = e.issued then .ok (t.advance, s.freeEngines t.tid)
        else .ok (t.park s.now (timelineWake t.cluster e.idx e.issued), s.setEngine t.cluster e)) t s) s

/-- `tlwait` (R336, R237): once met, an acquire of whole-package scope (log 94). -/
def execTlwait (o : OpM) (s : State) : Host.Outcome State Fault Refusal :=
  issue (.tlwait o) (fun t s => withEngine (Instr.tlwait o).encode (fun e t s =>
    match ready t s 0#2 [o.a] [] with
      | some stop => .error stop
      | none =>
        let n := srcVal t s 0#2 o.a
        let e := e.clearRecord
        let s := s.setEngine t.cluster e
        if e.issued < n then .error (.trap .access n)
        else if n ≤ e.settle.tl then
          atSync false 0#2 n [o.a] (.done true) (fun t s => .ok (t.advance, (consume t s [o.a]).dropCopies t)) t s
        else .ok (t.park s.now (timelineWake t.cluster e.idx n), s)) t s) s

/-- `tlread` (R336). -/
def execTlread (o : OpM) (s : State) : Host.Outcome State Fault Refusal :=
  issue (.tlread o) (fun t s => withEngine (Instr.tlread o).encode (fun e t s =>
    match ready t s 0#2 [] [o.a] with
      | some stop => .error stop
      | none =>
        let e := (e.clearRecord).settle
        let v := match (o.ctl.extractLsb' 0 2).toNat with
          | 0 => e.tl
          | 1 => e.poisOf 0
          | 2 => e.poisOf 1
          | _ => e.issued
        .ok (finish t (s.setEngine t.cluster e) 0#2 [] o.a v)) t s) s

/-! ### Array parts (R30-R32, R328-R333, R342) -/

/-- The pattern of element `i` of a tile register at a width. -/
def tileElem (m : Mem) (w i : Nat) : Nat :=
  if w = 4 then (Memory.get m (i / 2)).toNat / 16 ^ (i % 2) % 16 else Memory.read m (w / 8 * i) (w / 8)

/-- The lowest of some rows of a tile register with an uncorrectable word in columns lo to hi − 1 (R342). -/
def badRow (e : Engine) (tile : Nat) (sh : Word) (rows : List Nat) (lo hi : Nat) : Option Nat :=
  let w := fmtBits (shapeFmt sh)
  let cols := shapeCols sh
  rows.find? fun r =>
    let first := (r * cols + lo) * w / 8
    let last := ((r * cols + hi) * w + 7) / 8
    (touchedWords 8 first (last - first)).any fun a => e.tUE.contains (tile, a)

/-- Positions of k-group j within an extent (R30). -/
def kGroup (k j : Nat) : List Nat := (List.range 16).filterMap fun i => if 16 * j + i < k then some (16 * j + i) else none

/-- What k-group j of a product reads uncorrectable: tile and row (R342). -/
def groupBad (e : Engine) (o : ArrRec) (j : Nat) : Option (Nat × Nat) :=
  let ks := kGroup (shapeCols o.sa) j
  let hi := min (16 * j + 16) (shapeCols o.sa)
  match badRow e (mTa o.word) o.sa (List.range (shapeRows o.sa)) (16 * j) hi with
  | some r => some (mTa o.word, r)
  | none => (badRow e (mTb o.word) o.sb ks 0 (shapeCols o.sb)).map fun r => (mTb o.word, r)

/-- The products of one element of a k-group, as exact values. -/
def groupFloat (f g : Nat → Nat → Num) (complex : Bool) (i n : Nat) (ks : List Nat) : List Num :=
  if !complex then ks.map fun k => mulNum (f i k) (g k n)
  else ks.map fun k =>
    let b := g k (n / 2)
    if n % 2 = 0 then (if k % 2 = 0 then mulNum (f i k) b else negNum (mulNum (f i k) b))
    else mulNum (f i (k ^^^ 1)) b
def groupInt (f g : Nat → Nat → Int) (complex : Bool) (i n : Nat) (ks : List Nat) : Int :=
  ks.foldl (fun sum k =>
    let b := g k (if complex then n / 2 else n)
    sum + (if !complex then f i k * b
      else if n % 2 = 0 then (if k % 2 = 0 then f i k * b else -(f i k * b)) else f i (k ^^^ 1) * b)) 0

/-- Columns of the accumulator region of a product (R330). -/
def regionCols (o : ArrRec) : Nat := if mKind o.word = .mmac then 2 * shapeCols o.sb else shapeCols o.sb
/-- Apply k-group j to the region of an accumulator (R330). -/
def applyGroup (e : Engine) (o : ArrRec) (a : List (Nat × W32)) (j : Nat) : List (Nat × W32) :=
  let m := shapeRows o.sa
  let n' := regionCols o
  let ks := kGroup (shapeCols o.sa) j
  let fa := o.fa.toNat
  let fb := o.fb.toNat
  let ta := e.tileOf (mTa o.word)
  let tb := e.tileOf (mTb o.word)
  let av (i k : Nat) : Nat := tileElem ta (fmtBits (shapeFmt o.sa)) (i * shapeCols o.sa + k)
  let bv (k n : Nat) : Nat := tileElem tb (fmtBits (shapeFmt o.sb)) (k * shapeCols o.sb + n)
  let complex := mKind o.word == .mmac
  accBuild fun x =>
    let i := x / 64
    let n := x % 64
    if i < m ∧ n < n' then
      let old := (accAt a x).toNat
      BitVec.ofNat 32 (if tileInt fa then
          accumulateInt old (groupInt (fun i k => intValue fa (av i k)) (fun k n => intValue fb (bv k n)) complex i n ks)
        else accumulate old
          (groupFloat (fun i k => decodeNum fa (av i k)) (fun k n => decodeNum fb (bv k n)) complex i n ks))
    else accAt a x

/-- k-groups of a product (R30) (log 65). -/
def groupCount (o : ArrRec) : Nat := (shapeCols o.sa + 15) / 16
/-- What stands before k-group 0: KIND is set, and a `.z` product zeroes its region and its rows' flags (R330). -/
def Engine.prepare (e : Engine) (o : ArrRec) : Engine :=
  let c := mAcc o.word
  let e := e.setKind c (tileInt o.fa.toNat)
  if (mCtl o.word).getLsbD 0 then
    let a := e.accOf c
    let keep := a.filter fun x => !(decide (x.1 / 64 < shapeRows o.sa) && decide (x.1 % 64 < regionCols o))
    ((e.setAcc c keep).setPois c (e.poisOf c &&& ~~~(rowMask (shapeRows o.sa)))).healAcc c fun i =>
      decide (i / 64 < shapeRows o.sa) && decide (i % 64 < regionCols o)
  else e
/-- Apply k-groups from `j` on, at most `n` of them: the context, the next k-group, and the UE word that stopped it (R342, R455)
(log 61). -/
def runGroups (o : ArrRec) : Nat → Nat → Engine → Engine × Nat × Option Word
  | 0, j, e => (e, j, none)
  | n + 1, j, e =>
    if groupCount o ≤ j then (e, j, none)
    else match groupBad e o j with
      | some b => (e, j, some (ueWord false (mAcc o.word) b.1 b.2))
      | none =>
        if e.accBad (mAcc o.word) (shapeRows o.sa) (regionCols o) then (e, j, some (ueWord true (mAcc o.word) 0 0))
        else runGroups o n (j + 1) (e.setAcc (mAcc o.word) (applyGroup e o (e.accOf (mAcc o.word)) j))

/-- Picojoules of `n` k-groups' worth of a product, in hundredths (R316) (log 65). -/
def productCost (o : ArrRec) (groups : Nat) : Nat :=
  let w := max (fmtBits o.fa.toNat) (fmtBits o.fb.toNat)
  let rate := if w = 4 then 5 else if w = 8 then 8 else 16
  shapeRows o.sa * regionCols o * min (16 * groups) (shapeCols o.sa) * rate / 100

/-- The drain an operation queues (R330, R331). -/
def drainOfOp (o : ArrRec) : DrainRec :=
  { started := false, stop := false, slot := mSlot o.word, row := 0, col := 0, step := 0, rows := shapeRows o.sa,
    cols := if (mKind o.word).product then regionCols o else shapeCols o.sa, dword := o.arg, rc := o.rc, sat := o.sat,
    opnum := o.num, fault := 0#64, after := o.after }

/-- The result of an array part: the context, the state, the energy, and the trap it ends in. -/
structure ArrayOut where
  e : Engine
  s : State
  pj : Nat
  stop : Option Trap

/-- A tile-store range read as a number, in register order (R328) (log 62). -/
def readRuns (c : Cluster) (m : Nat) (ps : List Piece) : Nat :=
  ps.foldl (fun v p => v + c.tileRead m p.va p.len * 256 ^ p.off) 0

/-- Do the whole of an operation's array part (log 62). -/
def arrayPart (cl : Nat) (e : Engine) (o : ArrRec) (s : State) : ArrayOut :=
  let c := mAcc o.word
  let n := mTa o.word
  match mKind o.word with
  | .tzero => ⟨e.setTile n [], s, 0, none⟩
  | .azero => ⟨(((e.setAcc c []).setPois c 0#64).setKind c ((mCtl o.word).getLsbD 0)).healAcc c fun _ => true, s, 0, none⟩
  | .mdrain => ⟨e.setDrain c (some (drainOfOp o)), s, 0, none⟩
  | .tld =>
    let k := s.cluster cl
    let ps := tileRuns o.sa o.arg
    let m := shapeSwz o.sa
    let pj := tileCost (shapeBytes o.sa)
    match ps.findSome? fun p => k.tileBad m p.va p.len with
    | some a => ⟨e.setTile n [], s, pj, some ⟨.ue, BitVec.ofNat 64 a⟩⟩
    | none => ⟨e.setTile n (Memory.write [] 0 4096 (readRuns k m ps)), s, pj, none⟩
  | .tst =>
    let m := shapeSwz o.sa
    match badRow e n o.sa (List.range (shapeRows o.sa)) 0 (shapeCols o.sa) with
    | some r => ⟨e, s, 0, some ⟨.ue, ueWord false 0 n r⟩⟩
    | none =>
      let s := s.modCluster cl fun k => (tileRuns o.sa o.arg).foldl (fun k p =>
        k.tileWrite m p.va p.len (Memory.read (e.tileOf n) p.off p.len)) k
      ⟨e, s, tileCost (shapeBytes o.sa), none⟩
  | _ =>
    let e := if o.nextk = 0 then e.prepare o else e
    match runGroups o 64 o.nextk e with
    | (e, j, some x) =>
      ⟨e.setPois c (e.poisOf c ||| rowMask (shapeRows o.sa)), s, productCost o j, some ⟨.ue, x⟩⟩
    | (e, j, none) => ⟨if drainsOf o.word then e.setDrain c (some (drainOfOp o)) else e, s, productCost o j, none⟩

/-- The first operation whose array part is not done, if it may run (R326, R339): it runs, no drain of its accumulator is
left that has rows to read, and no halted drain keeps it from starting (log 59). -/
def Engine.nextOp (e : Engine) : Option ArrRec :=
  match e.ops.find? fun o => !o.finished with
  | some o =>
    if o.running && (!e.halt || o.nextk != 0) && (!(mKind o.word).accumulates || (e.drainOf (mAcc o.word)).isNone) then some o
    else none
  | none => none

/-- Whether a thread waits in an operation's array part (log 59). -/
def Thread.waitsIn (t : Thread) (o : ArrRec) : Bool :=
  o.recorded && t.pc == o.pc && match t.run with
    | .parked w false => w.kind == .timeline && w.operand == o.num
    | _ => false

/-- Release one operation's hold on a slot (R346). -/
def State.releaseHold (s : State) (cl slot tid : Nat) (n : Word) : State :=
  s.modCluster cl fun c => { c with dslots := c.dslots.map fun d =>
    if d.slot = slot then { d with holds := d.holds.erase (tid, n) } else d }

/-- ARRAY_PART_DONE (R326): the array part of a context's next operation is done, a `tld` or `tst` after its thread's earlier stores
(R237); its thread goes on, or takes its trap (log 8, 59, 63). -/
def execArrayPartDone (cl idx : Nat) (s : State) : Host.Outcome State Fault Refusal :=
  match s.engine? cl idx with
  | none => .refused .notEnabled
  | some e => match e.nextOp, s.thread? e.holder with
    | some o, some t =>
      if !s.engineRuns e || ((mKind o.word == .tld || mKind o.word == .tst) && !s.performed o.after) then .refused .notEnabled
      else
        let r := arrayPart cl e o s
        let keeps := o.recorded && !t.waitsIn o && !((mKind o.word).product && r.stop.isSome)
        let done := { o with finished := true, stop := r.stop }
        let ops := if keeps then r.e.ops.map fun x => if x = o then done else x else r.e.ops.filter fun x => x != o
        let s := (r.s.setEngine cl { r.e with ops := ops }).bill t.tid t.ctx r.pj
        let s := if drainsOf o.word && r.stop.isSome then s.releaseHold cl (mSlot o.word) t.tid o.num else s
        .next (if !t.waitsIn o then s
          else match s.thread? t.tid, r.stop with
            | some t, some x => takeTrap { t.becomeReady s.now with run := .runnable } x.cause x.tval t.pc s
            | some t, none => s.setThread ((t.numbered o.num).becomeReady s.now)
            | none, _ => s)
    | _, _ => .refused .notEnabled

end Sys2Proof.Machine
end

