-- ==== Sys2Proof/Machine/Transc.lean ====
section
/-! DEFINITION. The transcendental definitions (R37-R42), by integer arithmetic on exact values; operands and results are
F32 bit patterns. -/

namespace Sys2Proof.Machine

/-- TX of R38: 2^(j/64)·2^30 to the nearest integer. -/
def expTable0 : List Nat :=
  [1073741824, 1085434106, 1097253708, 1109202018, 1121280436, 1133490379, 1145833280, 1158310587,
   1170923762, 1183674286, 1196563654, 1209593378, 1222764986, 1236080024, 1249540052, 1263146652,
   1276901417, 1290805962, 1304861917, 1319070932, 1333434672, 1347954824, 1362633090, 1377471191,
   1392470869, 1407633882, 1422962010, 1438457051, 1454120821, 1469955159, 1485961921, 1502142985]
def expTable1 : List Nat :=
  [1518500250, 1535035634, 1551751076, 1568648537, 1585730000, 1602997467, 1620452965, 1638098541,
   1655936265, 1673968228, 1692196547, 1710623359, 1729250827, 1748081133, 1767116489, 1786359126,
   1805811301, 1825475297, 1845353420, 1865448001, 1885761398, 1906295993, 1927054196, 1948038440,
   1969251188, 1990694927, 2012372174, 2034285470, 2056437387, 2078830522, 2101467502, 2124350982]
def expTable : List Nat := expTable0 ++ expTable1

/-- ST of R40: 2^30 over the square root of 2^b·(129 + 2k)/128, to the nearest integer, at 64·b + k. -/
def rsqTable0 : List Nat :=
  [1069571937, 1061375863, 1053365364, 1045533543, 1037873853, 1030380081, 1023046322, 1015866961,
   1008836655, 1001950318, 995203101, 988590382, 982107753, 975751001, 969516107, 963399225,
   957396679, 951504951, 945720673, 940040618, 934461692, 928980931, 923595489, 918302635,
   913099745, 907984300, 902953878, 898006148, 893138870, 888349887, 883637122, 878998575]
def rsqTable1 : List Nat :=
  [874432318, 869936492, 865509306, 861149030, 856853995, 852622592, 848453263, 844344506,
   840294869, 836302947, 832367382, 828486860, 824660110, 820885902, 817163045, 813490383,
   809866800, 806291212, 802762568, 799279851, 795842072, 792448274, 789097526, 785788926,
   782521599, 779294692, 776107379, 772958857, 769848346, 766775087, 763738342, 760737394]
def rsqTable2 : List Nat :=
  [756301570, 750506070, 744841792, 739303858, 733887640, 728588743, 723402992, 718326417,
   713355240, 708485864, 703714861, 699038963, 694455052, 689960150, 685551414, 681226125,
   676981684, 672815603, 668725501, 664709095, 660764199, 656888716, 653080633, 649338020,
   645659022, 642041856, 638484810, 634986237, 631544551, 628158229, 624825801, 621545853]
def rsqTable3 : List Nat :=
  [618317022, 615137993, 612007499, 608924318, 605887270, 602895216, 599947056, 597041726,
   594178200, 591355485, 588572620, 585828677, 583122756, 580453988, 577821530, 575224566,
   572662306, 570133983, 567638856, 565176202, 562745326, 560345548, 557976212, 555636678,
   553326329, 551044561, 548790791, 546564450, 544364986, 542191864, 540044561, 537922570]
def rsqTable : List Nat := rsqTable0 ++ rsqTable1 ++ rsqTable2 ++ rsqTable3

/-- RT of R39: 2^38 / (257 + 2j) to the nearest integer (no quotient lies half way). -/
def rcpEntry (j : Nat) : Nat := (2 * 2 ^ 38 + (257 + 2 * j)) / (2 * (257 + 2 * j))

def f32Nan : Nat := 0x7FC00000
def f32Inf (neg : Bool) : Nat := if neg then 0xFF800000 else 0x7F800000
def f32Zero (neg : Bool) : Nat := if neg then 0x80000000 else 0

/-- `e` and `F` of R37 for a finite nonzero magnitude m·2^g. -/
def unpackF (m : Nat) (g : Int) : Int × Nat :=
  let l := Nat.log2 m
  ((l : Int) + g, if l ≤ 23 then m <<< (23 - l) - 2 ^ 23 else m >>> (l - 23) - 2 ^ 23)

/-- The integer part of exp2_def (R38) for X = round_ne_int(x·2^24). -/
def exp2Int (x : Int) : Num :=
  let i := x / 2 ^ 24
  let f := (x % 2 ^ 24).toNat
  let j := f >>> 18
  let g := f % 2 ^ 18
  let w1 := (744261118 * g) >>> 24
  let g2 := (g * g) >>> 24
  let w2 := (257941248 * g2) >>> 24
  let g3 := (g2 * g) >>> 24
  let w3 := (59597083 * g3) >>> 24
  let p := 2 ^ 30 + w1 + w2 + w3
  .fin false ((expTable.getD j 0 * p) >>> 30) (i - 30)

/-- exp2_def (R38). -/
def exp2Def (x : Nat) : Nat :=
  match decodeFloat f32 x with
  | .nan => f32Nan
  | .inf neg => if neg then 0 else f32Inf false
  | .fin neg m e =>
    let v := Num.fin neg m e
    if !ltNum v (.fin false 128 0) then f32Inf false
    else if ltNum v (.fin true 160 0) then 0
    else roundNe (exp2Int (roundInt 0 (.fin neg m (e + 24))))

/-- One step of rcp_def's iteration (R39). -/
def rcpStep (mm y : Nat) : Nat := (y * (2 ^ 31 - (mm * y) >>> 23)) >>> 30

/-- rcp_def (R39). -/
def rcpDef (x : Nat) : Nat :=
  match decodeFloat f32 x with
  | .nan => f32Nan
  | .inf neg => f32Zero neg
  | .fin neg m e =>
    if m = 0 then f32Inf neg
    else
      let (k, f) := unpackF m e
      if f = 0 then roundNe (.fin neg 1 (-k))
      else
        let mm := 2 ^ 23 + f
        roundNe (.fin neg (rcpStep mm (rcpStep mm (rcpEntry (f >>> 16)))) (-k - 30))

/-- One step of rsq_def's iteration (R40). -/
def rsqStep (mm y : Nat) : Nat :=
  let t := (y * y) >>> 30
  (y * (3 * 2 ^ 30 - (mm * t) >>> 23)) >>> 31

/-- rsq_def (R40). -/
def rsqDef (x : Nat) : Nat :=
  match decodeFloat f32 x with
  | .nan => f32Nan
  | .inf neg => if neg then f32Nan else 0
  | .fin neg m e =>
    if m = 0 then f32Inf neg
    else if neg then f32Nan
    else
      let (k, f) := unpackF m e
      let b := (k % 2).toNat
      if f = 0 ∧ b = 0 then roundNe (.fin false 1 (-(k / 2)))
      else
        let mm := (2 ^ 23 + f) * 2 ^ b
        let y := rsqTable.getD (64 * b + f >>> 17) 0
        roundNe (.fin false (rsqStep mm (rsqStep mm y)) (-((k - b) / 2) - 30))

/-- gelu_def (R41). -/
def geluDef (x : Nat) : Nat :=
  match decodeFloat f32 x with
  | .nan => f32Nan
  | .inf neg => if neg then f32Zero true else f32Inf false
  | .fin _ _ _ =>
    let x3 := mulF (mulF x x) x
    let z := addF x (mulF 0x3D372713 x3)
    let w := mulF 0xC0135761 z
    mulF x (rcpDef (addF 0x3F800000 (exp2Def w)))

/-- expe_def (R42). -/
def expeDef (x : Nat) : Nat := exp2Def (mulF x 0x3FB8AA3B)

end Sys2Proof.Machine
end

