-- ==== Sys2Proof/Machine/Drain.lean ====
section
/-! DEFINITION. Drain-program memory and drains (R345-R368). -/

namespace Sys2Proof.Machine

/-! ### Micro-words (R351-R353) -/

/-- Fields of a micro-word (R351). -/
structure Micro where
  op : Nat
  d : Nat
  a : Nat
  b : Nat
  c : Nat
  f : Nat
  deriving DecidableEq, Repr
def microOf (w : W32) : Micro :=
  ⟨(bits w 27 5).toNat, (bits w 24 3).toNat, (bits w 20 4).toNat, (bits w 16 4).toNat, (bits w 12 4).toNat,
    (bits w 0 12).toNat⟩

/-- How many of A, B and C are operands (R353); the fields after them are raw or unused. -/
def Micro.operands (m : Micro) : List Nat :=
  match m.op with
  | 0x02 => [m.a, m.b]
  | 0x03 => [m.a, m.b]
  | 0x04 => [m.a, m.b, m.c]
  | 0x05 => [m.a, m.b]
  | 0x06 => [m.a, m.b]
  | 0x07 => [m.a, m.b, m.c]
  | 0x08 => [m.a]
  | 0x09 => [m.a]
  | 0x0A => [m.a]
  | 0x0B => [m.a, m.b, m.c]
  | 0x0C => [m.a]
  | 0x0D => [m.a]
  | 0x0E => [m.a, m.b]
  | 0x0F => [m.a]
  | 0x10 => [m.a]
  | _ => []

/-- Fields of the F field of `d.cvt`. -/
def Micro.fmt (m : Micro) : Nat := m.f / 256
def Micro.cvtRc (m : Micro) : Nat := m.f / 64 % 4
def Micro.cvtSat (m : Micro) : Bool := m.f / 32 % 2 == 1
def Micro.cvtDef (m : Micro) : Bool := m.f / 16 % 2 == 1

/-- Whether a micro-word's fields are in the sets of R353. -/
def Micro.ok (m : Micro) : Bool :=
  match m.op with
  | 0x00 => m.d == 0 && m.a == 0 && m.b == 0 && m.c == 0 && m.f == 0
  | 0x01 => m.d == 0 && m.a == 0 && m.b == 0 && m.c == 0 && m.f == 0
  | 0x02 => m.c == 0 && decide (m.f < 4)
  | 0x03 => m.c == 0 && decide (m.f < 4)
  | 0x04 => decide (m.f < 4)
  | 0x05 => m.c == 0 && m.f == 0
  | 0x06 => m.c == 0 && m.f == 0
  | 0x07 => m.f == 0
  | 0x08 => m.b == 0 && m.c == 0 && m.f == 0
  | 0x09 => m.b == 0 && m.c == 0 && m.f == 0
  | 0x0A => m.b == 0 && m.c == 0 && m.f == 0
  | 0x0B => m.f % 1024 == 0
  | 0x0C => m.b == 0 && m.c == 0 && laneSet m.fmt && m.f % 16 == 0
      && (!m.cvtDef || (m.cvtRc == 0 && !m.cvtSat))
  | 0x0D => m.b == 0 && m.c == 0 && m.f == 0
  | 0x0E => m.c == 0 && m.f == 0
  | 0x0F => m.d == 0 && m.c == 0
  | 0x10 => m.d == 0 && m.b == 0 && m.c == 0 && m.f == 0
  | 0x11 => m.a == 0 && m.c == 0 && m.f == 0 && decide (m.b < 4)
  | 0x12 => m.a == 0 && m.c == 0 && m.f == 0 && decide (m.b < 4)
  | 0x13 => m.a == 0 && m.c == 0 && m.f == 0 && decide (m.b < 4)
  | _ => false

/-- The index of the first `d.end` (R349). -/
def codeEnd (code : List W32) : Option Nat := code.findIdx? fun w => (microOf w).op == 1
/-- The index of the lowest offending word of an image, 32 without a `d.end` (R349). -/
def malformed (code : List W32) (sclog : Nat) : Option Nat :=
  match codeEnd code with
  | none => some 32
  | some e => (code.take (e + 1)).findIdx? fun w =>
      let m := microOf w
      !m.ok || (m.operands.any fun x => decide (8 ≤ x) && decide (31 - (x - 8) ≤ e)) || (m.op == 0x0E && sclog == 0)

/-! ### Loading and freeing (R347-R350) -/

def loadSlot (x : Word) : Nat := (x.extractLsb' 0 6).toNat
def loadBase (x : Word) : Nat := (x.extractLsb' 16 22).toNat
def loadLog (x : Word) : Nat := (x.extractLsb' 38 4).toNat

/-- `dpm.load` (R348): the image is read from the scratchpad at issue (log 64). -/
def execDpmLoad (o : OpR) (s : State) : Host.Outcome State Fault Refusal :=
  issue (.dpmLoad o) (fun t s => match ready t s o.w [o.a, o.b] [o.d] with
    | some stop => .error stop
    | none =>
      let x := srcVal t s o.w o.a
      let ia := srcVal t s o.w o.b
      let l := s.near t
      if x.extractLsb' 42 22 ≠ 0#22 ∨ x.extractLsb' 6 10 ≠ 0#10 ∨ 12 < loadLog x then .error (.trap .access x)
      else if loadLog x ≠ 0 ∧ (loadBase x % 8 ≠ 0 ∨ 4194304 < loadBase x + 16 + 8 * 2 ^ loadLog x) then
        .error (.trap .access x)
      else if ia.toNat % 16 ≠ 0 then .error (.trap .misaligned ia)
      else if l.size < ia.toNat + 128 then .error (.trap .access ia)
      else if !s.holds t.ctx t.cluster then .error (.trap .access x)
      else match l.badAt ia.toNat 128 with
        | some b => .error (.trap .ue (BitVec.ofNat 64 b))
        | none =>
          let image := (List.range 32).map fun i => Memory.read32 l.spad (ia.toNat + 4 * i)
          let (t, s) := payFor t s (spadCost 128)
          waitFor o.w x [o.a, o.b] (.dpmLoad o.d x image) t s) s

/-- The teller's answer to `dpm.load` (R348). -/
def replyDpmLoad (t : Thread) (s : State) (d : Reg) (x : Word) (image : List W32) : Option (State × Delivery) :=
  let c := s.cluster t.cluster
  if c.dslots.any fun k => k.slot == loadSlot x then some (s, .scalar d 1#64)
  else match malformed image (loadLog x) with
    | some k => some (s, .scalar d (BitVec.ofNat 64 (2 + 256 * k)))
    | none => some (s.setCluster { c with dslots := c.dslots ++ [⟨loadSlot x, image, loadLog x, loadBase x, []⟩] },
        .scalar d 0#64)

/-- `dpm.free` (R350). -/
def execDpmFree (o : OpR) (s : State) : Host.Outcome State Fault Refusal :=
  issue (.dpmFree o) (fun t s => match ready t s o.w [o.a] [o.d] with
    | some stop => .error stop
    | none =>
      let a := srcVal t s o.w o.a
      if a.extractLsb' 6 58 ≠ 0#58 ∨ s.holds t.ctx t.cluster = false then .error (.trap .access a)
      else waitFor o.w a [o.a] (.dpmFree o.d a.toNat) t s) s

/-- The teller's answer to `dpm.free` (R350). -/
def replyDpmFree (t : Thread) (s : State) (d : Reg) (slot : Nat) : Option (State × Delivery) :=
  let c := s.cluster t.cluster
  match c.dslots.find? fun k => k.slot == slot with
  | none => some (s, .scalar d 1#64)
  | some k =>
    if !k.holds.isEmpty then some (s, .scalar d 2#64)
    else some (s.setCluster { c with dslots := c.dslots.filter fun k => k.slot != slot }, .scalar d 0#64)

/-! ### One row (R352-R363) -/

/-- An element register: pattern and format tag (R352). -/
structure ElemReg where
  pat : Nat
  tag : Nat
  deriving DecidableEq, Repr
def ElemReg.f32 (x : Nat) : ElemReg := ⟨x, 9⟩
def ElemReg.val (r : ElemReg) : Num := decodeNum r.tag r.pat

/-- Fields of the drain word (R332). -/
def drainSwz (x : Word) : Nat := (x.extractLsb' 48 2).toNat
def drainCv (x : Word) : Nat := 64 * (x.extractLsb' 32 16).toNat
def drainRv (x : Word) : Nat := 64 * (x.extractLsb' 16 16).toNat
def drainDst (x : Word) : Nat := 64 * (x.extractLsb' 0 16).toNat

/-- A row being drained: the cluster, the context number and accumulator, the record, its slot, the element registers of
each column, and the `d.stacc` writes so far (index, pattern). -/
structure RowRun where
  k : Cluster
  ctx : Nat
  acc : Nat
  kind : Bool
  d : DrainRec
  slot : DSlot
  regs : List (List ElemReg)
  accw : List (Nat × Nat)
  bytes : Nat
  deriving DecidableEq, Repr

/-- A fault of a drain: KIND and ADDR (R363). -/
abbrev DrainStop := Nat × Nat

/-- An operand of column n (R351). -/
def RowRun.operand (r : RowRun) (n x : Nat) : ElemReg :=
  if x < 8 then (r.regs.getD n []).getD x (.f32 0) else .f32 (r.slot.code.getD (31 - (x - 8)) 0#32).toNat
def RowRun.setReg (r : RowRun) (n d : Nat) (v : ElemReg) : RowRun :=
  { r with regs := r.regs.set n ((r.regs.getD n []).set d v) }

/-- The operand that R29 selects, keeping its pattern and tag (R355). -/
def pickElem (max' : Bool) (x y : ElemReg) : ElemReg :=
  let u := x.val
  let v := y.val
  if u.isNan || v.isNan then .f32 f32Nan
  else if ltNum u v then (if max' then y else x)
  else if ltNum v u then (if max' then x else y)
  else if u.isNeg == v.isNeg then x
  else if u.isNeg == max' then y else x

def absNum : Num → Num
  | .nan => .nan
  | .inf _ => .inf false
  | .fin _ m e => .fin false m e
/-- A condition on a value compared with 0 (R355). -/
def condHolds (cond : Nat) (x : Num) : Bool :=
  let z : Num := .fin false 0 0
  match cond with
  | 0 => ltNum x z
  | 1 => ltNum x z || eqNum x z
  | 2 => eqNum x z
  | _ => !eqNum x z

/-- Read a tile-store word of an operand vector (R355, R363). -/
def RowRun.vecWord (r : RowRun) (addr : Nat) : Except DrainStop Nat :=
  let m := drainSwz r.d.dword
  if 4194304 < addr + 4 then .error (1, max 4194304 addr)
  else match r.k.tileBad m addr 4 with
    | some b => .error (3, b)
    | none => .ok (r.k.tileRead m addr 4)

/-- Store an element (R356). -/
def RowRun.store (r : RowRun) (n : Nat) (v : ElemReg) (off pitch : Nat) (quiet : Bool) : Except DrainStop RowRun :=
  let w := fmtBits v.tag
  let base := drainDst r.d.dword + 4096 * off
  let bit := if pitch = 0 then base * 8 + (r.d.row * r.d.cols + n) * w else base * 8 + 128 * pitch * r.d.row + n * w
  let addr := bit / 8
  let len := max 1 (w / 8)
  if 4194304 < addr + len then .error (1, max 4194304 addr)
  else if quiet then .ok r
  else
    let m := drainSwz r.d.dword
    let old := r.k.tileRead m addr len
    let v' := if w = 4 then (if bit % 8 = 0 then old / 16 * 16 + v.pat % 16 else old % 16 + 16 * (v.pat % 16)) else v.pat
    .ok { r with k := r.k.tileWrite m addr len v', bytes := r.bytes + len }

/-- Send a side-channel entry (R358-R361). -/
def RowRun.send (r : RowRun) (n : Nat) (v : Num) : Except DrainStop RowRun :=
  let base := r.slot.scbase
  match r.k.tileBad 0 base 16 with
  | some b => .error (3, b)
  | none =>
    let wcnt := r.k.tileRead 0 base 8
    let rcnt := r.k.tileRead 0 (base + 8) 8
    let size := 2 ^ r.slot.sclog
    let at_ := base + 16 + 8 * (wcnt % size)
    if size ≤ (wcnt + 2 ^ 64 - rcnt) % 2 ^ 64 then .error (2, at_)
    else
      let entry := roundFmt b16 0 false v * 2 ^ 48 + r.d.opnum.toNat % 2 ^ 24 * 2 ^ 24 + r.ctx * 2 ^ 20 + r.acc * 2 ^ 19
        + r.d.row * 2 ^ 6 + n
      let tile := Memory.write r.k.tile at_ 8 entry
      .ok { r with k := { r.k with tile := Memory.write tile base 8 ((wcnt + 1) % 2 ^ 64) }, bytes := r.bytes + 16 }

/-- Execute one micro-word on column n (R355-R360); `m` is the row's maximum for `d.absmax`, and `quiet` suppresses the
store, the send and the accumulator write (R362). -/
def RowRun.exec (r : RowRun) (u : Micro) (absmax : Nat) (quiet : Bool) (n : Nat) : Except DrainStop RowRun :=
  let a := r.operand n u.a
  let b := r.operand n u.b
  let c := r.operand n u.c
  let put (v : ElemReg) : Except DrainStop RowRun := .ok (r.setReg n u.d v)
  let rounded (x : Num) : Except DrainStop RowRun := put (.f32 (roundFmt f32 (u.f % 4) false x))
  match u.op with
  | 0x02 => rounded (mulNum a.val b.val)
  | 0x03 => rounded (addNum (u.f % 4) a.val b.val)
  | 0x04 => rounded (addNum (u.f % 4) (mulNum a.val b.val) c.val)
  | 0x05 => put (pickElem true a b)
  | 0x06 => put (pickElem false a b)
  | 0x07 => put (pickElem false (pickElem true a b) c)
  | 0x08 => put (.f32 (exp2Def (roundNe a.val)))
  | 0x09 => put (.f32 (rcpDef (roundNe a.val)))
  | 0x0A => put (.f32 (geluDef (roundNe a.val)))
  | 0x0B => put (if condHolds (u.f / 1024) c.val then a else b)
  | 0x0C =>
    let rc := if u.cvtDef then r.d.rc.toNat else u.cvtRc
    let sat := if u.cvtDef then r.d.sat else u.cvtSat
    put ⟨convert a.tag u.fmt rc sat a.pat, u.fmt⟩
  | 0x0D => put (.f32 absmax)
  | 0x0E =>
    if ltNum b.val (absNum a.val) then
      if quiet then put (.f32 0)
      else match r.send n a.val with
        | .ok r => .ok (r.setReg n u.d (.f32 0))
        | .error f => .error f
    else put a
  | 0x0F => r.store n a u.b u.f quiet
  | 0x10 =>
    let v := if r.kind then convert a.tag 3 0 true a.pat else roundNe a.val
    .ok (if quiet then r else { r with accw := r.accw ++ [(64 * r.d.row + n, v)] })
  | 0x11 => match r.vecWord (drainRv r.d.dword + 256 * u.b + 4 * r.d.row) with
    | .ok v => put (.f32 v)
    | .error f => .error f
  | 0x12 => match r.vecWord (drainCv r.d.dword + 256 * u.b + 4 * n) with
    | .ok v => put (.f32 v)
    | .error f => .error f
  | 0x13 =>
    let v : Int := match u.b with
      | 0 => r.d.row
      | 1 => n
      | 2 => 64 * r.d.row + n
      | _ => (n : Int) - r.d.row
    put ⟨lowBits 32 v, 3⟩
  | _ => .ok r

/-- Where a row stopped: the run so far, step, column and fault; `done` with no fault. -/
structure RowStop where
  r : RowRun
  step : Nat
  col : Nat
  stop : Option DrainStop
  deriving DecidableEq, Repr

/-- One step over the columns from n on (R362). -/
def RowRun.columns (u : Micro) (absmax step : Nat) : Nat → Nat → RowRun → RowStop
  | 0, _, r => ⟨r, step, 0, none⟩
  | fuel + 1, n, r =>
    let quiet := decide (step < r.d.step) || (step == r.d.step && decide (n < r.d.col))
    match r.exec u absmax quiet n with
    | .ok r => r.columns u absmax step fuel (n + 1)
    | .error f => ⟨r, step, n, some f⟩

/-- The maximum of `d.absmax` over the row (R355). -/
def RowRun.rowMax (r : RowRun) (u : Micro) : Nat :=
  roundNe (((List.range r.d.cols).map fun n => absNum (r.operand n u.a).val).foldl maxNum (.fin false 0 0))

/-- The steps of a row from `step` on (R362). -/
def RowRun.steps : List W32 → Nat → RowRun → RowStop
  | [], step, r => ⟨r, step, 0, none⟩
  | w :: rest, step, r =>
    let u := microOf w
    let out := r.columns u (if u.op = 0x0D then r.rowMax u else 0) step r.d.cols 0
    if out.stop.isSome then out else out.r.steps rest (step + 1)

/-- The words of a slot's program, up to `d.end`. -/
def DSlot.program (k : DSlot) : List W32 := k.code.take ((codeEnd k.code).getD 0 + 1)

/-- An element as a drain reads it; one of an uncorrectable word is a free value (log 61). -/
def Engine.element (e : Engine) (c i free : Nat) : W32 :=
  if e.aUE.contains (c, i / 2 * 2) then Config.badElement (free + i) else accAt (e.accOf c) i
/-- The start of a row (R352). -/
def rowStart (k : Cluster) (e : Engine) (c : Nat) (d : DrainRec) (slot : DSlot) (free : Nat) : RowRun :=
  let tag := if e.kindOf c then 3 else 9
  { k := k, ctx := e.idx, acc := c, kind := e.kindOf c, d := d, slot := slot,
    regs := (List.range d.cols).map fun n =>
      ⟨(e.element c (64 * d.row + n) free).toNat, tag⟩ :: List.replicate 7 (.f32 0),
    accw := [], bytes := 0 }

/-- Write a row's `d.stacc` values (R357): the last write to an element holds. -/
def writeAcc (a : List (Nat × W32)) (ws : List (Nat × Nat)) : List (Nat × W32) :=
  if ws.isEmpty then a
  else accBuild fun i => match (ws.reverse).find? fun w => w.1 == i with
    | some w => BitVec.ofNat 32 w.2
    | none => accAt a i

/-- TVAL of DRAIN_FAULT (R363). -/
def faultWordOf (f : DrainStop) (c step slot row col : Nat) : Word :=
  BitVec.ofNat 64 (f.1 * 2 ^ 57 + f.2 * 2 ^ 34 + c * 2 ^ 33 + step * 2 ^ 28 + slot * 2 ^ 22 + row * 2 ^ 6 + col)

/-- What HALT does to the operations that have not started (R339): their numbers are given back. -/
def Engine.giveBack (e : Engine) : Engine :=
  let gone := e.ops.filter fun o => !o.finished && o.nextk == 0
  { e with
    halt := true, faultPc := none,
    ops := e.ops.filter fun o => o.finished || o.nextk != 0,
    issued := gone.foldl (fun m o => if o.num ≤ m then o.num - 1#64 else m) e.issued }

/-- Wake a thread that waits in an operation given back, or in a `tlwait` (R339). The word at its PC tells the latter (log 58). -/
def Thread.wakeHalted (t : Thread) (now : Nat) (gone : List ArrRec) (isTlwait : Bool) : Thread :=
  match t.run with
  | .parked w false =>
    if w.kind == .timeline && (isTlwait || gone.any fun o => t.waitsIn o) then { t.becomeReady now with run := .parked w true } else t
  | _ => t

/-- Whether the word at a thread's PC is a `tlwait`. -/
def State.atTlwait (s : State) (t : Thread) : Bool :=
  match s.xlate t.ctx (some t.coreId) .fetch t.pc.toNat with
  | .ok pa _ => s.peek pa 4 / 2 ^ 22 == 0x24 * 16 + 6
  | _ => false

/-- Put a drain's stop into force (R339, R363). -/
def State.haltEngine (s : State) (cl : Nat) (e : Engine) (holder : Nat) : State :=
  let gone := e.ops.filter fun o => !o.finished && o.nextk == 0
  let s := s.setEngine cl e.giveBack
  let s := gone.foldl (fun s o => if drainsOf o.word then s.releaseHold cl (mSlot o.word) holder o.num else s) s
  match s.thread? holder with
  | some t => s.setThread (t.wakeHalted s.now gone (s.atTlwait t))
  | none => s

/-! ### Events (R362-R365) -/

/-- DRAIN_START (R362): a queued drain starts. -/
def execDrainStart (cl idx acc : Nat) (s : State) : Host.Outcome State Fault Refusal :=
  match s.engine? cl idx with
  | none => .refused .notEnabled
  | some e => match e.drainOf acc with
    | some d =>
      if !s.engineRuns e || d.started || d.stop then .refused .notEnabled
      else .next (s.setEngine cl (e.setDrain acc (some { d with started := true })))
    | none => .refused .notEnabled

/-- The next row of a running drain, if its unit may run it: the drain has started, the stores it follows are performed (R237). -/
def State.nextRow (s : State) (cl : Nat) (e : Engine) (acc : Nat) (d : DrainRec) : Option RowStop :=
  match (s.cluster cl).dslots.find? fun k => k.slot == d.slot with
  | none => none
  | some slot =>
    if !s.engineRuns e || !d.started || d.stop || decide (d.rows ≤ d.row) || !s.performed d.after then none
    else some ((rowStart (s.cluster cl) e acc d slot s.freeCtr).steps slot.program 0)
/-- A context after a row of a drain (R362): its `d.stacc` writes are made, the record names the next row, and after the last row the
drain waits for its stores only. -/
def Engine.rowDone (e : Engine) (acc : Nat) (d : DrainRec) (ws : List (Nat × Nat)) : Engine :=
  let d' := { d with row := d.row + 1, col := 0, step := 0 }
  let e := (e.setAcc acc (writeAcc (e.accOf acc) ws)).healAcc acc fun i => ws.any fun w => w.1 == i
  if d'.row < d.rows then e.setDrain acc (some d') else { e.setDrain acc none with landing := e.landing ++ [(acc, d')] }
/-- A byte of a pending drain's next row is stored before the row is done (R338): not one of its side channel, whose entries stand in
order (R362) (log 27). -/
def State.earlyDrain (s : State) (cl idx acc byte : Nat) : Option State :=
  match s.engine? cl idx with
  | none => none
  | some e => match e.drainOf acc with
    | none => none
    | some d => match s.nextRow cl e acc d with
      | some out =>
        let k := out.r.slot
        if out.stop.isSome || (decide (k.scbase ≤ byte) && decide (byte < k.scbase + 16 + 8 * 2 ^ k.sclog)) then none
        else some (s.modCluster cl fun c => { c with tile := Memory.set c.tile byte (Memory.get out.r.k.tile byte) })
      | none => none

/-- DRAIN_ROW_DONE (R362-R365): the drain unit runs one row, or stops in it on a fault (log 65). -/
def execDrainRowDone (cl idx acc : Nat) (s : State) : Host.Outcome State Fault Refusal :=
  match s.engine? cl idx with
  | none => .refused .notEnabled
  | some e => match e.drainOf acc with
    | none => .refused .notEnabled
    | some d => match s.nextRow cl e acc d with
      | none => .refused .notEnabled
      | some out =>
        let s := ((s.setCluster out.r.k).tickFree).bill e.holder ((s.cluster cl).owner.getD 0) (tileCost out.r.bytes)
        match out.stop with
        | none => .next (s.setEngine cl (e.rowDone acc d out.r.accw))
        | some f =>
            let d' := { d with stop := true, col := out.col, step := out.step,
                               fault := faultWordOf f acc out.step d.slot d.row out.col }
            .next (s.haltEngine cl (e.setDrain acc (some d')) e.holder)

/-- DRAIN_COMPLETE (R326, R346): every store of the accumulator's oldest drain that has run its rows is performed; its hold ends and TL may advance (log 65). -/
def execDrainComplete (cl idx acc : Nat) (s : State) : Host.Outcome State Fault Refusal :=
  match s.engine? cl idx with
  | none => .refused .notEnabled
  | some e => match e.landing.find? fun l => l.1 == acc with
    | some (_, d) =>
      if !s.engineRuns e then .refused .notEnabled
      else
        let steps := (((s.cluster cl).dslots.find? fun k => k.slot == d.slot).map fun k => k.program.length).getD 0
        let s := (s.setEngine cl { e with landing := e.landing.erase (acc, d) }).releaseHold cl d.slot e.holder d.opnum
        .next (s.bill e.holder ((s.cluster cl).owner.getD 0) (d.rows * d.cols * steps * 4 / 10))
    | none => .refused .notEnabled

end Sys2Proof.Machine
end

