-- ==== Sys2Proof/Machine/Threads.lean ====
section
/-! DEFINITION. New thread contexts (R79, R167). -/

namespace Sys2Proof.Machine

/-- Registers of a new context: zero and full (R79). -/
def Ctx.fresh : Ctx :=
  { x := Vector.replicate 40 0#64, full := BitVec.allOnes 64, q0 := 0#64, q1 := 0#64,
    v := Vector.replicate 16 (Vector.replicate 32 0#32), k := Vector.replicate 8 0#32, p := Vector.replicate 4 false,
    ue := [] }

/-- Per-thread CSRs of a new context (R79) (log 50). -/
def Csrs.fresh : Csrs :=
  { prio := 0#8, migoff := false, creq := false, pin := false, pfx := false, trap := false, latch := 0#15, tcause := 0#8,
    tval := 0#64, tepc := 0#64, tstatus := 0#64, tpfx := 0#64, tbase := 0#64, tq0 := 0#64, tq1 := 0#64, wlimit := 0#32,
    remain := 0#32, purse := 0#64, migCount := 0#16, migThresh := 0x0400#16, stage := 0#4, tile := 0#48, done := 0#64,
    tshape := Vector.replicate 8 0#64 }

/-- A context with nothing in it but its place and PC (log 7). -/
def Thread.fresh (tid ctx : Nat) (loc : Loc) (pc : Word) : Thread :=
  { tid := tid, num := 0#24, ctx := ctx, loc := loc, run := .runnable, pc := pc, c := Ctx.fresh, csr := Csrs.fresh, tagCount := [],
    next := 0#16, rtl := 0#64, rissued := 0#64, qtl := 0#64, qissued := 0#64, region := ⟨0#2, []⟩, unretired := [],
    wait := none, due := none, taken := [], synced := none, record := 0#64, note := none, in0 := 0#64, in1 := 0#64,
    radius := 0, hint := 0, recPrio := 0#8, budget := 0, readyAt := 0, agedAt := 0, dispatchedAt := 0, lastIssue := 0,
    creqAck := false, migTarget := none, freshFrom := 0, request := none, contract := none, charged := 0, pipeline := none, closed := [],
    caller := none, handler := none, exiting := none, lev := 0#2, plev := 0#2 }

/-- The model's names of threads and held records are unique (log 2) (log 77). -/
def State.takeTid (s : State) : Nat × State := (s.nextTid, { s with nextTid := s.nextTid + 1 })
/-- The first number after `n` that no live task has (R231). The fuel bounds the live tasks. -/
def State.freeNum (s : State) : Nat → BitVec 24 → BitVec 24
  | 0, n => n
  | fuel + 1, n => if s.threads.any fun t => t.num == n then s.freeNum fuel (n + 1#24) else n
/-- Put a new thread on the list, with its task number: the first dispatch gives it one that no live task has (R231) (log 77). -/
def State.seat (s : State) (t : Thread) : State :=
  let n := s.freeNum s.threads.length (s.lastNum + 1#24)
  { s with threads := s.threads ++ [{ t with num := n }], lastNum := n }
/-- Numbers for stores, transfers, queries, row operations and held records (log 2). -/
def State.takeId (s : State) : Nat × State := (s.nextId, { s with nextId := s.nextId + 1 })

/-- The phase-7 context of an active message (R167) (log 50). -/
def Thread.handlerOf (tid cbase : Nat) (m : Msg) : Thread :=
  let t := Thread.fresh tid m.ctx (.phase m.target 7) (BitVec.ofNat 64 (cbase + m.entry))
  { t with
    c := ((t.c.setReg 1#6 m.arg).setReg 2#6 m.senderCoord).setReg 3#6 (BitVec.ofNat 64 m.senderPhase),
    handler := some ⟨m.sender, m.wantReply, m.senderCoord, 0, m.charge⟩ }

end Sys2Proof.Machine
end

