-- ==== Sys2Proof/Machine/Tasks.lean ====
section
/-! DEFINITION. Task records, handles, placement and dispatch (R240-R254, R79, R457). -/

namespace Sys2Proof.Machine

/-! ### Handles (R244, R245) -/

def handleChip (h : Word) : Nat := entryField h 52 12
/-- The home cluster, numbered 64·die + cluster. -/
def handleHome (h : Word) : Nat := entryField h 45 7
def handleIndex (h : Word) : Nat := entryField h 29 16
def handleGen (h : Word) : Nat := entryField h 5 24
/-- A handle of this package. -/
def makeHandle (chip : BitVec 12) (cl index gen : Nat) : Word :=
  BitVec.ofNat 64 (chip.toNat * 2 ^ 52 + cl * 2 ^ 45 + index * 2 ^ 29 + gen % 2 ^ 24 * 2 ^ 5 + 0b10110)
/-- Whether a handle's home is in this package. -/
def State.isHere (s : State) (h : Word) : Bool := handleChip h == s.chip.toNat
/-- The local checks of R245. -/
def State.handleOk (s : State) (h : Word) : Bool :=
  entryField h 0 5 == 0b10110 && (s.isHere h || s.reached (handleChip h))
/-- The note a handle names at its home, for a job: none where the home check fails (R245). -/
def State.noteOf (s : State) (ctx : Nat) (h : Word) : Option Note :=
  let c := s.cluster (handleHome h)
  if s.isHere h ∧ c.owner = some ctx then
    (c.notes.find? fun n => n.index == handleIndex h).filter fun n =>
      n.ctx == ctx && lookupD c.gens (handleIndex h) 0 % 2 ^ 24 == handleGen h
  else none

/-! ### Records (R240-R243, R457) -/

/-- Bytes of a tile row in global memory and of the whole tile (R242). -/
def rowBytes (cols f : Nat) : Nat := cols * fmtBits f / 8
def tileBytes (rows cols f : Nat) : Nat := rows * cols * fmtBits f / 8

/-- Fields of a tile descriptor (R242, R300). -/
structure TileDesc where
  dest : Nat
  fmt : Nat
  rows : Nat
  cols : Nat
  swz : Nat
  codec : Bool
  pitch : Nat
  deriving DecidableEq, Repr
def tileDesc (d : Word) : TileDesc :=
  ⟨entryField d 0 22, entryField d 22 4, entryField d 26 7, entryField d 33 7, entryField d 40 2, d.getLsbD 42,
    entryField d 43 21⟩
def TileDesc.bytes (d : TileDesc) : Nat := tileBytes d.rows d.cols d.fmt

/-- The conditions on a tile descriptor, in the order of R243 after the address. -/
def tileConds : List (TileDesc → Bool) :=
  [(fun d => d.rows == 0 || d.cols == 0 || decide (64 < d.rows) || decide (64 < d.cols)),
   (fun d => decide (9 < d.fmt)),
   (fun d => d.fmt == 0 && (if d.pitch = 0 then d.rows * d.cols % 2 == 1 else d.cols % 2 == 1)),
   (fun d => decide (4194304 < d.dest + d.bytes)),
   (fun d => d.codec && (d.fmt != 5 || d.pitch != 0)),
   (fun d => d.pitch != 0 && decide (d.pitch < rowBytes d.cols d.fmt))]

/-- The record in an image of 64 + 16·NSUB bytes (R240-R242). -/
def taskRecord (im : Nat) : TaskRec :=
  let f (off n : Nat) : Nat := slice im off n
  let ctl := f 8 4
  { entry := f 0 4, budget := f 4 4, prio := ctl / 2 ^ 24, stage := ctl / 2 ^ 20 % 16, radius := ctl / 2 ^ 16 % 16,
    pin := ctl / 2 ^ 15 % 2 == 1, hintv := ctl / 2 ^ 14 % 2 == 1, dep0 := ctl / 2 ^ 12 % 2 == 1,
    dep1 := ctl / 2 ^ 13 % 2 == 1, nin := ctl / 2 ^ 10 % 4, tx := f 16 2, ty := f 18 2, tz := f 20 2, hintx := f 22 1,
    hinty := f 23 1, arg0 := f 24 4, arg1 := f 28 4, arg2 := f 32 4, arg3 := f 36 4, in0 := BitVec.ofNat 64 (f 48 8),
    in1 := BitVec.ofNat 64 (f 56 8),
    subs := (List.range (min 4 (ctl / 2 ^ 7 % 8))).map fun i =>
      (BitVec.ofNat 64 (f (64 + 16 * i) 8), BitVec.ofNat 64 (f (72 + 16 * i) 8)) }
/-- NSUB of a record's image. -/
def recordSubs (im : Nat) : Nat := slice im 8 4 / 2 ^ 7 % 8

/-- What a record's check finds: the trap, the offset of the field, and the value for NOT_A_HANDLE (R243, R457). -/
structure BadRec where
  cause : Cause
  off : Nat
  val : Word
  deriving DecidableEq, Repr

/-- The first entry that meets the first condition that any entry meets. -/
def firstCond {α : Type} (conds : List (α → Bool)) (es : List α) : Option Nat :=
  match conds.find? fun c => es.any c with
  | some c => es.findIdx? c
  | none => none

/-- The hint core of a record (R241): its own, or the core given. -/
def TaskRec.hintCore (r : TaskRec) (from' : Nat) : Nat := if r.hintv then coreAt r.hintx r.hinty else from'

/-- The dependence inputs and the inputs in use (R241). -/
def TaskRec.deps (r : TaskRec) : List Word :=
  (if r.dep0 && decide (0 < r.nin) then [r.in0] else []) ++ (if r.dep1 && decide (1 < r.nin) then [r.in1] else [])
def TaskRec.inputs (r : TaskRec) : List (Nat × Word) := [(48, r.in0), (56, r.in1)].take r.nin

/-- The rows of R243 after the record's own address. -/
def State.badRecord (s : State) (ctx from' im : Nat) : Option BadRec :=
  let r := taskRecord im
  let f (off n : Nat) : Nat := slice im off n
  let bad (c : Cause) (off : Nat) : Option BadRec := some ⟨c, off, 0#64⟩
  let hintBad := r.hintv && (decide (63 < r.hintx) || decide (31 < r.hinty) || !s.owns ctx (coreAt r.hintx r.hinty))
  let subs := r.subs.map fun e => (e.1, tileDesc e.2)
  let conds := (fun (e : Word × TileDesc) => decide (2 ^ 52 ≤ e.1.toNat)) :: tileConds.map fun c e => c e.2
  if r.entry % 4 ≠ 0 then bad .access 0
  else if f 8 4 % 128 ≠ 0 then bad .access 8
  else if f 12 4 ≠ 0 then bad .access 12
  else if r.nin = 3 ∨ 4 < recordSubs im then bad .access 8
  else if r.nin < 1 ∧ r.in0 ≠ 0#64 then bad .access 48
  else if r.nin < 2 ∧ r.in1 ≠ 0#64 then bad .access 56
  else if (r.dep0 ∧ r.nin < 1) ∨ (r.dep1 ∧ r.nin < 2) then bad .access 8
  else if hintBad then bad .access 22
  else match firstCond conds subs with
    | some i => bad .access (64 + 16 * i)
    | none =>
      if !r.subs.isEmpty && !s.holds ctx (coreCluster (r.hintCore from')) then bad .access 64
      else match r.inputs.find? fun e => !s.handleOk e.2 with
        | some e => some ⟨.notAHandle, e.1, e.2⟩
        | none => none

/-! ### Placement (R251, R252, R253) -/

/-- The radius by which the model marks the region of a contract release's task: its hint's cluster, pinned or not (R310). -/
def clusterRadius : Nat := 16
/-- Whether a core lies in a record's region (R251, R310). -/
def TaskRec.inRegion (r : TaskRec) (hint core : Nat) : Bool :=
  (if r.radius = clusterRadius then coreCluster core == coreCluster hint
   else if r.radius = 0 ∨ r.pin then core == hint else decide (hops (coreCluster core) (coreCluster hint) < r.radius))
    && (r.subs.isEmpty || coreCluster core == coreCluster hint)

/-- Waiting contexts on a core: resident tasks without a phase. -/
def State.waiting (s : State) (core : Nat) : Nat :=
  (s.threads.filter fun t => match t.loc with
    | .slot c _ => c == core
    | _ => false).length
/-- Whether a waiting context finds a slot: eight slots are bound to the phases, the remaining ones are for waiting tasks (R74). -/
def State.slotFree (s : State) (core : Nat) : Bool := decide (s.waiting core < (s.core core).poolReg * 4 / 3 - 8)
/-- Whether a core lies in a rectangle in the layout of R213. -/
def inRect (rect : Word) (core : Nat) : Bool :=
  decide (entryField rect 0 8 ≤ coreX core) && decide (coreX core ≤ entryField rect 16 8)
    && decide (entryField rect 8 8 ≤ coreY core) && decide (coreY core ≤ entryField rect 24 8)
/-- Whether a pipeline has reserved a phase for a stage that has not been released (R298, R299). -/
def Pipeline.reserves (p : Pipeline) (core phase : Nat) : Bool :=
  p.stages.any fun g => !g.released && decide (phase < g.phases) && inRect g.rect core
/-- A phase that holds no thread (R251). -/
def State.phaseEmpty (s : State) (core p : Nat) : Bool := s.threads.all fun t => t.loc != .phase core p
/-- A phase that holds no thread and that no pipeline reserves (R251, R298). -/
def State.phaseFree (s : State) (core p : Nat) : Bool :=
  s.phaseEmpty core p && s.pipelines.all fun l => !l.reserves core p
/-- The first free phase of a core for a job (R251); while an update is activated nothing is dispatched (R454). -/
def State.freePhase (s : State) (ctx core : Nat) : Option Nat :=
  if s.quiesce.isNone && s.owns ctx core then (List.range 7).find? fun p => s.phaseFree core p else none

/-- The cores of a cluster in the order in which they are offered a record (R252). -/
def coresFrom (cl hint : Nat) : List Nat :=
  let all := (List.range 16).map (clusterCore cl)
  if coreCluster hint = cl then hint :: all.filter (· != hint) else all
/-- The place a cluster offers (R252). -/
def State.placeIn (s : State) (ctx : Nat) (r : TaskRec) (hint cl : Nat) : Option (Nat × Nat) :=
  (coresFrom cl hint).findSome? fun c =>
    if r.inRegion hint c then (s.freePhase ctx c).map fun p => (c, p) else none

/-- The clusters on the walk, the spawning cluster first: along CX and then along CY (R252). -/
def walkPath (fuel a b : Nat) : List Nat :=
  match fuel with
  | 0 => [a]
  | n + 1 =>
    let ax := clusterCX a
    let ay := clusterCY a
    if ax < clusterCX b then a :: walkPath n (clusterAt (ax + 1) ay) b
    else if clusterCX b < ax then a :: walkPath n (clusterAt (ax - 1) ay) b
    else if ay < clusterCY b then a :: walkPath n (clusterAt ax (ay + 1)) b
    else if clusterCY b < ay then a :: walkPath n (clusterAt ax (ay - 1)) b
    else [a]
/-- The place a record takes on its walk (R252). -/
def State.walkPlace (s : State) (ctx : Nat) (r : TaskRec) (hint from' : Nat) : Option (Nat × Nat) :=
  (walkPath 24 from' (coreCluster hint)).findSome? fun cl => s.placeIn ctx r hint cl

/-- All clusters, the hint's first, then by hop distance, CY and CX (R253). -/
def clustersFrom (hint : Nat) : List Nat :=
  let h := coreCluster hint
  (List.range 24).flatMap fun d => (List.range 8).flatMap fun cy => (List.range 16).filterMap fun cx =>
    if hops (clusterAt cx cy) h = d then some (clusterAt cx cy) else none
/-- The place that a held record is offered (R253). -/
def State.storePlace (s : State) (ctx : Nat) (r : TaskRec) (hint : Nat) : Option (Nat × Nat) :=
  (clustersFrom hint).findSome? fun cl => s.placeIn ctx r hint cl

/-! ### Dispatch (R79, R254) -/

/-- The address of a job's handler, 0 for none (R92, R453). -/
def Job.handlerBase (j : Job) : Word := if j.handler = 0 then 0#64 else BitVec.ofNat 64 (j.cbase + j.handler) &&& ~~~3#64
/-- The starting context of a task. -/
def State.taskThread (s : State) (h : Held) (core phase : Nat) : Thread :=
  let r := h.r
  let j := s.job? h.ctx
  let cbase := (j.map Job.cbase).getD 0
  let t := Thread.fresh h.id h.ctx (.phase core phase) (BitVec.ofNat 64 (cbase + r.entry))
  let arg (n : Nat) : Word := BitVec.ofNat 64 n
  let t := { t with
    c := (((t.c.setReg 1#6 (arg r.arg0)).setReg 2#6 (arg r.arg1)).setReg 3#6 (arg r.arg2)).setReg 4#6 (arg r.arg3),
    record := h.va, note := h.note, in0 := if 0 < r.nin then r.in0 else 0#64, in1 := if 1 < r.nin then r.in1 else 0#64,
    radius := if r.radius = clusterRadius ∨ !r.subs.isEmpty then min r.radius 1 else r.radius, hint := h.hint, recPrio := BitVec.ofNat 8 r.prio, budget := r.budget,
    readyAt := h.readyAt.getD s.now, agedAt := s.now, dispatchedAt := s.now, contract := h.contract,
    csr := { t.csr with
      prio := h.level, pin := r.pin, stage := BitVec.ofNat 4 r.stage,
      tile := BitVec.ofNat 48 (r.tx + 2 ^ 16 * r.ty + 2 ^ 32 * r.tz),
      tbase := (j.map Job.handlerBase).getD 0#64,
      wlimit := BitVec.ofNat 32 ((j.map Job.wlimit).getD 0) } }
  { t with csr := { t.csr with remain := BitVec.ofNat 32 (s.reload t) } }

/-- Start a task in a phase, which issues after this cycle: its core acquires first (R254); a job whose tasks were asleep is watched again (R147). -/
def State.start (s : State) (t : Thread) : State :=
  let s := s.seat { t with lastIssue := s.now }
  (s.dropCopies t).modJob t.ctx fun j => { j with disarmed := false }

/-- Take a held record out of its cluster's store. -/
def State.dropHeld (s : State) (cl id : Nat) : State :=
  s.modCluster cl fun c => { c with records := c.records.filter fun h => h.id != id }

end Sys2Proof.Machine
end

