-- ==== Sys2Proof/Machine/Evict.lean ====
section
/-! DEFINITION. Saving a task to a save frame and reading it back (R136-R140, R322, R340, R341, R455). -/

namespace Sys2Proof.Machine

/-! ### Poison by virtual address (R389, R455) -/

/-- Mark the words of [va, va + n) of a job's memory uncorrectable. -/
def State.poisonAtVa (s : State) (ctx va n : Nat) : State :=
  match s.jobPhys ctx va with
  | some pa => { s with poison := (touchedWords 8 pa n).filter (fun w => !s.poison.contains w) ++ s.poison }
  | none => s
/-- Whether a word of [va, va + n) of a job's memory is uncorrectable. -/
def State.poisonedVa (s : State) (ctx va n : Nat) : Bool :=
  match s.jobPhys ctx va with
  | some pa => (s.poisonAt pa n).isSome
  | none => false

/-! ### Stopping an engine context (R340) -/

/-- Stop a context: `groups` k-groups of a running product have been applied since it last started, and its record holds the
next; the other operations in progress start over (log 60). -/
def Engine.stopAt (e : Engine) (groups : Nat) : Engine :=
  let e := match e.ops.find? fun o => !o.finished with
    | some o =>
      if (mKind o.word).product && e.nextOp == some o && groups != 0 then
        let e := if o.nextk = 0 then e.prepare o else e
        let n := min groups (groupCount o - o.nextk)
        let (e', j, _) := runGroups o n o.nextk e
        { e' with ops := e'.ops.map fun x => if x = o then { o with nextk := j } else x }
      else e
    | none => e
  { e with
    ops := e.ops.map fun o => if o.finished then o else { o with running := false },
    drains := e.drains.map fun d => d.map fun d => { d with started := false } }

/-- Whether a frame's records hold all the work of a context: the one array record (R327, R341), no drain that only waits for its
stores, none in the middle of a row (R340, R365); and the stop after `groups` k-groups
meets no uncorrectable word, which would end the array part (R342) (log 60). -/
def Engine.savable (e : Engine) (groups : Nat) : Bool :=
  (e.ops.filter fun o => !o.recorded && !o.finished).isEmpty && e.landing.isEmpty
    && (e.drains.toList.filterMap id).all (fun d => d.stop || (d.col == 0 && d.step == 0))
    && match e.ops.find? fun o => !o.finished with
      | some o => groups == 0 || ((mKind o.word).product && e.nextOp == some o && decide (o.nextk + groups ≤ groupCount o)
          && (runGroups o groups o.nextk (if o.nextk = 0 then e.prepare o else e)).2.2.isNone)
      | none => groups == 0

/-! ### Writing a frame (R138, R139, R341) -/

/-- 4 KiB units and bytes of a frame (R138). -/
def frameUnits (eng : Bool) : Nat := if eng then 17 else 1
def frameBytes (eng : Bool) : Nat := if eng then 69504 else 2944

/-- The lowest place of a job's save area with room for a frame (R138) (log 66). -/
def Job.frameRoom (j : Job) (units : Nat) : Option Nat :=
  let free (k : Nat) : Bool := j.frames.all fun f =>
    decide (j.saveVA + 4096 * (k + units) ≤ f.1) || decide (f.1 + 4096 * f.2 ≤ j.saveVA + 4096 * k)
  ((List.range (j.saveBytes / 4096 + 1 - units)).find? free).map fun k => j.saveVA + 4096 * k

/-- Write one field of a frame into memory; the lines of the frame enter the base dies' buffers once (`frameLines`). -/
def State.framePut (s : State) (ctx va n v : Nat) : State :=
  match s.jobPhys ctx va with
  | some pa => { s with mem := Memory.write s.mem pa n v, poison := healed s.poison 8 pa n }
  | none => s
/-- Write a list of (offset, bytes, value) fields of a frame. -/
def State.frameFields (s : State) (ctx va : Nat) (fs : List (Nat × Nat × Nat)) : State :=
  fs.foldl (fun s f => s.framePut ctx (va + f.1) f.2.1 f.2.2) s
/-- Make a frame's 4 KiB units zero: its reserved bytes are (R139, R341). -/
def State.frameClear (s : State) (ctx va units : Nat) : State :=
  (List.range units).foldl (fun s i => match s.jobPhys ctx (va + 4096 * i) with
    | some pa => { s with mem := Memory.clear s.mem pa 4096, poison := healed s.poison 8 pa 4096 }
    | none => s) s
/-- The line writes of a frame (R377). -/
def State.frameLines (s : State) (ctx va n : Nat) : State :=
  (List.range (n / 128)).foldl (fun s i => match s.jobPhys ctx (va + 128 * i) with
    | some pa => s.buffered pa
    | none => s) s

/-- The CSR image of a frame, in the order of R139. -/
def Thread.csrImage (t : Thread) : List Word :=
  let c := t.csr
  [t.status, c.tcause.zeroExtend 64, c.tval, c.tepc, c.tstatus, c.tpfx, c.tbase, c.tq0, c.tq1, c.wlimit.zeroExtend 64,
    c.remain.zeroExtend 64, c.purse, BitVec.ofNat 64 (c.migCount.toNat * 65536 + c.migThresh.toNat)] ++ c.tshape.toList

/-- Numbered fields of equal size. -/
def fieldRun (off size : Nat) (vs : List Nat) : List (Nat × Nat × Nat) := (vs.zipIdx).map fun v => (off + size * v.2, size, v.1)

/-- The fields of a frame's context part (R139). -/
def Thread.contextFields (t : Thread) (s : State) (eng : Bool) (mig : Option Nat) : List (Nat × Nat × Nat) :=
  let w := (t.run.wake?).getD (wake .yield 0 0#64)
  let reply : Option Nat := match t.run.pending with
    | some (.replied r) => some r.val
    | _ => none
  let flags := eng.toNat + 2 * t.csr.pfx.toNat + 4 * t.csr.trap.toNat + 8 * t.csr.pin.toNat + 16 * reply.isSome.toNat
    + 32 * mig.isSome.toNat
  let core := match mig with
    | some cl => clusterCore cl 0
    | none => t.coreId
  let c := t.c
  [(0, 2, 1), (2, 2, flags), (4, 2, t.ctx), (6, 1, s.level t), (7, 1, t.csr.stage.toNat), (8, 4, frameBytes eng),
    (16, 8, w.word.toNat), (24, 8, w.operand.toNat), (32, 8, (t.wait.map (·.since)).getD s.now), (40, 8, t.pc.toNat),
    (48, 8, t.record.toNat), (56, 8, (coordOf s.chip core).toNat), (64, 8, t.csr.done.toNat), (72, 4, s.xpend t.tid)]
    ++ fieldRun 128 8 (((c.x.toList.drop 1).take 31).map (·.toNat)) ++ fieldRun 376 8 ((c.x.toList.drop 32).map (·.toNat))
    ++ [(440, 8, c.q0.toNat), (448, 8, c.q1.toNat), (456, 8, c.feImage)]
    ++ fieldRun 464 4 ((c.k.toList.drop 1).map (·.toNat))
    ++ [(492, 1, ((c.p.toList.drop 1).zipIdx).foldl (fun n b => n + b.1.toNat * 2 ^ b.2) 0)]
    ++ fieldRun 496 8 (t.csrImage.map (·.toNat)) ++ [(664, 8, t.prefixImage.toNat), (672, 128, reply.getD 0)]
    ++ fieldRun 896 128 (c.v.toList.map (·.toNat))

/-- A drain record's 64 bytes as a number (R364). -/
def DrainRec.image (d : DrainRec) : Nat :=
  1 + 2 * d.stop.toNat + 2 ^ 8 * d.slot + 2 ^ 16 * d.row + 2 ^ 24 * d.col + 2 ^ 32 * d.step + 2 ^ 40 * d.rows + 2 ^ 48 * d.cols
    + 2 ^ 64 * (d.dword.toNat % 2 ^ 50 + d.rc.toNat * 2 ^ 54 + d.sat.toNat * 2 ^ 53) + 2 ^ 128 * d.opnum.toNat
    + 2 ^ 192 * d.fault.toNat

/-- The 128-byte pieces of a memory image. -/
def lineFields (off : Nat) (n : Nat) (f : Nat → Nat) : List (Nat × Nat × Nat) :=
  (List.range n).map fun i => (off + 128 * i, 128, f i)
/-- 32 accumulator elements from an index. -/
def accLine (a : List (Nat × W32)) (i : Nat) : Nat :=
  (a.filter fun e => decide (e.1 / 32 = i)).foldl (fun n e => n + e.2.toNat * 2 ^ (32 * (e.1 % 32))) 0

/-- NEXTK of a record whose array part is done: no k-group has this index (log 63). -/
def doneMark : Nat := 63
/-- NEXTK of a recorded operation (R340, R341): a part that ended in a trap is performed again (log 63). -/
def ArrRec.progress (o : ArrRec) : Nat := if o.finished then (if o.stop.isSome then 0 else doneMark) else o.nextk
/-- HALT as a frame holds it (R321, R339): a drain has stopped on a fault that has not been delivered (log 56). -/
def Engine.undelivered (e : Engine) : Bool := e.halt && e.faultPc.isNone
/-- The fields of a frame's ENGINE part (R341), from its start (log 61). -/
def Engine.fields (e : Engine) : List (Nat × Nat × Nat) :=
  let r := e.ops.find? fun o => o.recorded
  let drain (o : ArrRec) : Nat :=
    if drainsOf o.word then o.arg.toNat % 2 ^ 50 + o.rc.toNat * 2 ^ 54 + o.sat.toNat * 2 ^ 53 else 0
  [(0, 8, e.tl.toNat), (8, 8, e.issued.toNat), (16, 1, e.idx),
    (17, 1, e.kind[0].toNat + 2 * e.kind[1].toNat + 4 * e.undelivered.toNat), (24, 8, e.pois[0].toNat), (32, 8, e.pois[1].toNat)]
    ++ (match r with
      | some o => [(64, 4, o.word.toNat), (68, 4, 2 ^ 31 + o.progress), (72, 8, o.pc.toNat), (80, 8, o.num.toNat), (88, 8, drain o)]
      | none => [])
    ++ [(96, 64, (e.drains[0].map DrainRec.image).getD 0), (160, 64, (e.drains[1].map DrainRec.image).getD 0)]
    ++ ((List.range 8).flatMap fun n => lineFields (1024 + 4096 * n) 32 fun i => Memory.read (e.tileOf n) (128 * i) 128)
    ++ lineFields 33792 128 (accLine e.acc[0]) ++ lineFields 50176 128 (accLine e.acc[1])

/-- Where a word of a register value stands in a frame. -/
def frameWordAt (r w : Nat) : Nat := 8 * w + if r = 40 ∨ r = 41 then 440 + 8 * (r - 40) else frameReg (BitVec.ofNat 6 r)

/-- Write a task's frame; uncorrectable words travel as poisoned words (R455) (log 67). -/
def State.saveFrame (s : State) (t : Thread) (va : Nat) (e : Option Engine) (mig : Option Nat) : State :=
  let s := (s.frameClear t.ctx va (frameUnits e.isSome)).frameFields t.ctx va (t.contextFields s e.isSome mig)
  let s : State := t.c.ue.foldl (fun s u => s.poisonAtVa t.ctx (va + frameWordAt u.1 u.2) 8) s
  let s : State := match e with
    | some e =>
      let b := va + 2944
      let s := s.frameFields t.ctx b e.fields
      let s := e.tUE.foldl (fun s u => s.poisonAtVa t.ctx (b + 1024 + 4096 * u.1 + u.2) 8) s
      e.aUE.foldl (fun s u => s.poisonAtVa t.ctx (b + 33792 + 16384 * u.1 + 4 * u.2) 8) s
    | none => s
  s.frameLines t.ctx va (frameBytes e.isSome)

/-! ### Reading a frame (R137, R140, R341, R455) -/

/-- Numbers read from a frame. -/
def State.frameField (s : State) (ctx va off n : Nat) : Nat := s.jobRead ctx (va + off) n
/-- Whether a range of a frame is zero, in pieces of 8 bytes. -/
def State.frameZero (s : State) (ctx va off n : Nat) : Bool :=
  (List.range (n / 4)).all fun i => s.frameField ctx va (off + 4 * i) 4 == 0
/-- Whether a range of a frame holds a poisoned word. -/
def State.framePoisoned (s : State) (ctx va off n : Nat) : Bool :=
  (List.range ((n + 7) / 8)).any fun i => s.poisonedVa ctx (va + off + 8 * i) (min 8 (n - 8 * i))

/-- Whether a frame's header is inconsistent, or a part other than the registers is poisoned (R140, R455) (log 69). -/
def State.frameBad (s : State) (ctx va : Nat) : Bool :=
  let f (off n : Nat) : Nat := s.frameField ctx va off n
  let eng := f 2 2 % 2 == 1
  let kind := f 16 8 / 2 ^ 32 % 256
  f 2 2 / 64 != 0 || f 4 2 / 4096 != 0 || f 7 1 / 16 != 0 || f 8 4 != frameBytes eng || f 12 4 != 0
    || f 16 8 / 2 ^ 40 != 0 || kind == 0 || decide (13 < kind) || !s.frameZero ctx va 76 52 || f 456 8 / 2 ^ 55 != 0
    || f 492 1 / 8 != 0 || f 493 3 != 0 || !s.frameZero ctx va 800 96
    || s.framePoisoned ctx va 0 128 || s.framePoisoned ctx va 456 440

/-- Whether a frame's ENGINE part is inconsistent (R341) (log 69). -/
def State.engineBad (s : State) (ctx va : Nat) : Bool :=
  let b := va + 2944
  let f (off n : Nat) : Nat := s.frameField ctx b off n
  let w := BitVec.ofNat 32 (f 64 4)
  f 16 1 / 16 != 0 || f 17 1 / 8 != 0 || f 18 2 != 0 || f 20 4 != 0 || !s.frameZero ctx b 40 24 || f 68 4 % 2 ^ 31 / 64 != 0
    || !s.frameZero ctx b 224 800
    || (f 68 4 / 2 ^ 31 == 1 && !(mOpcode w == 0x23 || mOpcode w == 0x24))
    || f 95 1 != 0 || (f 88 8 / 2 ^ 50 % 8 != 0) || (!drainsOf w && f 88 8 / 2 ^ 53 != 0)
    || [96, 160].any (fun o => f o 1 / 4 != 0 || f (o + 7) 1 != 0 || !s.frameZero ctx b (o + 32) 32)
    || s.framePoisoned ctx b 0 1024

/-- A context from a frame (R139) (log 67). -/
def State.readContext (s : State) (t : Thread) (va : Nat) : Thread :=
  let f (off n : Nat) : Nat := s.frameField t.ctx va off n
  let w64 (off : Nat) : Word := BitVec.ofNat 64 (f off 8)
  let csr (i : Nat) : Word := w64 (496 + 8 * i)
  let st := csr 0
  let pfx := w64 664
  let kind : WakeKind := match f 16 8 / 2 ^ 32 % 256 with
    | 1 => .reg
    | 2 => .portw
    | 3 => .future
    | 4 => .barrier
    | 5 => .feword
    | 6 => .tags
    | 7 => .timeline
    | 8 => .queue
    | 9 => .memory
    | 10 => .page
    | 11 => .budget
    | 12 => .yield
    | _ => .exit
  let w : Wake := { (t.run.wake?).getD (wake .yield 0 0#64) with
    kind := kind, detail := BitVec.ofNat 32 (f 16 8), operand := w64 24 }
  let run : Run := match t.run.pending with
    | some (.replied r) => .restoring w (some (.replied { r with val := f 672 (if r.vec then 128 else 8) })) true
    | some p => .restoring w (some p) true
    | none => .restoring w none true
  let regs := (List.range 64).filter fun r => decide (1 ≤ r ∧ r < 42) || decide (48 ≤ r)
  let ue := (regs.flatMap fun r => (List.range (if 48 ≤ r then 16 else 1)).map fun w => (r, w)).filter fun u =>
    s.framePoisoned t.ctx va (frameWordAt u.1 u.2) 8
  { t with
    run := run, pc := w64 40, record := w64 48, wait := t.wait.map fun r => { r with since := f 32 8 },
    c := { t.c with
      x := Vector.ofFn fun i =>
        if i.val = 0 then 0#64 else if i.val < 32 then w64 (128 + 8 * (i.val - 1)) else w64 (376 + 8 * (i.val - 32)),
      full := fullOf (f 456 8), q0 := w64 440, q1 := w64 448,
      v := Vector.ofFn fun i => VReg.ofNat (f (896 + 128 * i.val) 128),
      k := Vector.ofFn fun i => if i.val = 0 then t.c.k[i] else BitVec.ofNat 32 (f (464 + 4 * (i.val - 1)) 4),
      p := Vector.ofFn fun i => if i.val = 0 then t.c.p[i] else f 492 1 / 2 ^ (i.val - 1) % 2 == 1,
      ue := ue },
    csr := { t.csr with
      migoff := st.getLsbD 7, creq := st.getLsbD 6, pin := st.getLsbD 5, trap := st.getLsbD 3,
      pfx := pfx.getLsbD 32, latch := if pfx.getLsbD 32 then pfx.extractLsb' 11 15 else t.csr.latch,
      tcause := (csr 1).extractLsb' 0 8, tval := csr 2, tepc := csr 3 &&& ~~~3#64, tstatus := csr 4 &&& 0xFFFF#64,
      tpfx := csr 5 &&& 0x1FFFFFFFF#64, tbase := csr 6 &&& ~~~3#64, tq0 := csr 7, tq1 := csr 8,
      wlimit := (csr 9).extractLsb' 0 32, remain := (csr 10).extractLsb' 0 32, purse := csr 11,
      migCount := (csr 12).extractLsb' 16 16, migThresh := (csr 12).extractLsb' 0 16, stage := BitVec.ofNat 4 (f 7 1),
      done := w64 64,
      tshape := Vector.ofFn fun i => csr (13 + i.val) } }

/-- A drain record from its 64 bytes (R364); it follows the stores its thread has outstanding (R237). -/
def readDrain (x : Nat) (after : List Nat) : Option DrainRec :=
  if x % 2 = 0 then none
  else
    let b (i : Nat) : Nat := slice x i 1
    let dw := slice x 8 8
    some { started := false, stop := x / 2 % 2 == 1, slot := b 1, row := b 2, col := b 3, step := b 4, rows := b 5,
           cols := b 6, dword := BitVec.ofNat 64 (dw % 2 ^ 50), rc := BitVec.ofNat 2 (dw / 2 ^ 54),
           sat := dw / 2 ^ 53 % 2 == 1, opnum := BitVec.ofNat 64 (slice x 16 8), fault := BitVec.ofNat 64 (slice x 24 8),
           after := after }

/-- An accumulator from a frame, and its uncorrectable words (R455). -/
def State.readAcc (s : State) (ctx b : Nat) : List (Nat × W32) :=
  (List.range 4096).filterMap fun i =>
    let x := s.frameField ctx (b + 4 * i) 0 4
    if x = 0 then none else some (i, BitVec.ofNat 32 x)
def State.accPoison (s : State) (ctx b c : Nat) : List (Nat × Nat) :=
  ((List.range 2048).filter fun i => s.framePoisoned ctx b (8 * i) 8).map fun i => (c, 2 * i)

/-- An engine context from a frame's ENGINE part (R341, R455), for the task as restored; its operation runs again once re-issued (R327).
Where a drain has stopped and HALT is 0, the fault has been delivered, at TEPC (log 56, 61). -/
def State.readEngine (s : State) (t : Thread) (va idx : Nat) : Engine :=
  let b := va + 2944
  let f (off n : Nat) : Nat := s.frameField t.ctx b off n
  let w64 (off : Nat) : Word := BitVec.ofNat 64 (f off 8)
  let after := s.earlier t.tid
  let d0 := readDrain (f 96 64) after
  let d1 := readDrain (f 160 64) after
  let num := w64 80
  let tl := w64 0
  let finished := f 68 4 % 64 == doneMark || decide (num ≤ tl) || [d0, d1].any fun d => d.any fun d => d.opnum == num
  let stopped := [d0, d1].any fun d => d.any (·.stop)
  let op : ArrRec :=
    { word := BitVec.ofNat 32 (f 64 4), pc := w64 72, num := num, nextk := f 68 4 % 64, arg := w64 88 &&& 0x3FFFFFFFFFFFF#64,
      rc := BitVec.ofNat 2 (f 88 8 / 2 ^ 54), sat := f 88 8 / 2 ^ 53 % 2 == 1, fa := 0#4, fb := 0#4, sa := 0#64, sb := 0#64,
      recorded := true, running := false, finished := finished, stop := none, after := after }
  { idx := idx, holder := t.tid,
    tiles := Vector.ofFn fun n => (List.range 32).foldl (fun m i =>
      Memory.write m (128 * i) 128 (f (1024 + 4096 * n.val + 128 * i) 128)) [],
    tUE := (List.range 8).flatMap fun n => ((List.range 512).filter fun i =>
      s.framePoisoned t.ctx b (1024 + 4096 * n + 8 * i) 8).map fun i => (n, 8 * i),
    aUE := s.accPoison t.ctx (b + 33792) 0 ++ s.accPoison t.ctx (b + 50176) 1,
    acc := #v[s.readAcc t.ctx (b + 33792), s.readAcc t.ctx (b + 50176)],
    kind := #v[f 17 1 % 2 == 1, f 17 1 / 2 % 2 == 1],
    pois := #v[w64 24, w64 32],
    tl := tl, issued := w64 8, halt := stopped || f 17 1 / 4 % 2 == 1,
    faultPc := if f 17 1 / 4 % 2 = 0 ∧ stopped then some t.csr.tepc else none,
    ops := if f 68 4 / 2 ^ 31 = 1 then [op] else [], drains := #v[d0, d1], landing := [] }

/-! ### Eviction (R118, R137, R138) -/

/-- Charge a save or a restore (R316). -/
def saveCost (eng : Bool) : Nat := 4 * frameBytes eng

/-- Whether a task is at a blocking point where it may be evicted (R118, R314), or resident and ready without a phase (R74, R454)
(log 60). -/
def Thread.evictable (t : Thread) : Bool :=
  t.handler.isNone && !t.isFw && !t.evicted && match t.run with
    | .parked _ _ => true
    | .out _ _ => true
    | .runnable => t.phase?.isNone
    | _ => false

/-- Begin an eviction (R118, R340): room is taken in the save area and the engine context stops; a task that waits for its own
context can go on only once it is restored, so it is ready at once. None where it cannot be evicted (log 60). -/
def State.evict (s : State) (t : Thread) (groups : Nat) (mig : Bool) : Option State :=
  let e := s.engineOf t
  let savable := match e with
    | some e => e.savable groups
    | none => groups == 0
  match (s.job? t.ctx).bind (·.frameRoom (frameUnits e.isSome)) with
  | some va =>
    if !t.evictable || !savable then none
    else
      let s := s.modJob t.ctx fun j => { j with frames := j.frames ++ [(va, frameUnits e.isSome)] }
      let s := match e with
        | some e => s.setEngine t.cluster (e.stopAt groups)
        | none => s
      let own := match t.run.wake? with
        | some w => w.kind == .timeline && e.any fun e => w.detail == (timelineWake t.cluster e.idx 0#64).detail
        | none => false
      let run : Run := match t.run with
        | .out w (.touch _ _ _ _ (some _)) => .saving w none true va mig
        | .out w p => .saving w (some p) false va mig
        | .parked w f => .saving w none (f || own) va mig
        | .runnable => .saving (wake .yield 0 0#64) none true va mig
        | r => r
      some (s.setThread { t with run := run })
  | none => none

/-- CONTEXT_SAVE_DONE (R314): the frame is written, the phase or slot and the engine context are free; a save for a migration names its
target (R149). Ports that a task which may move has read are emptied now (R86) (log 60). -/
def State.saveDone (s : State) (t : Thread) (va : Nat) (moves : Bool) : State :=
  let e := s.engineOf t
  let mig := if moves then t.migTarget else none
  let s := if t.csr.pin then s else consume t s t.taken
  let t := { t.pay (saveCost e.isSome) with taken := if t.csr.pin then t.taken else [] }
  let s := (s.setThread t).saveFrame t va e mig
  let s : State := { s with clusters := s.clusters.map fun c => { c with engines := c.engines.filter fun e => e.holder != t.tid } }
  let run : Run := match t.run with
    | .saving w (some p) _ _ _ => .out w p
    | .saving w none f _ _ => .parked w f
    | r => r
  s.setThread { t with run := run, loc := .frame (BitVec.ofNat 64 va) t.coreId t.lastPhase mig }

/-- Whether the stacks of a frame's lines answer (R388) (log 88). -/
def State.frameAwake (s : State) (ctx va bytes : Nat) : Bool :=
  s.hbm.all (fun k => k.selfRefresh.isNone) || (!s.translationWaits [] ctx va && (List.range ((bytes + 127) / 128)).all fun i =>
    match s.jobPhys ctx (va + 128 * i) with
    | some pa => s.awake pa
    | none => true)

/-- Begin a restore (R137): the context, its place and its engine context are taken and the frame is freed; a bad frame
kills the task (R140). On another core than before it sees no copy older than now (R221) (log 67). -/
def State.restore (s : State) (t : Thread) (va core phase : Nat) (idx : Option Nat) : State :=
  if s.frameBad t.ctx va || (idx.isSome && s.engineBad t.ctx va) then
    (s.kill t .ue (Config.frameTval s.freeCtr)).tickFree
  else
    let u := s.readContext t va
    let e := idx.map fun i => s.readEngine u va i
    let mig := match t.loc with
      | .frame _ _ _ m => m
      | _ => none
    let u := { u with
      loc := .phase core phase, migTarget := if mig.isSome then none else u.migTarget, lastIssue := s.now,
      freshFrom := if core = t.coreId then u.freshFrom else s.now,
      csr := { u.csr with
        prio := t.csr.prio, migCount := if mig.isSome then 0#16 else u.csr.migCount,
        remain := BitVec.ofNat 32 (s.reload t) } }
    let u := u.pay (saveCost idx.isSome)
    let s := (s.freeFrame t.ctx va).setThread u
    match e with
    | some e => s.modCluster (coreCluster core) fun c => { c with engines := c.engines ++ [e] }
    | none => s

/-- Give a reply without a trap to its instruction's destination, and go on after it (R136); the ports it read are emptied (R86). -/
def Thread.receive (t : Thread) (s : State) (r : Delivery) : Thread × State :=
  let w := ((t.run.wake?).map (·.win)).getD 0#2
  let s := consume t s t.taken
  let (t, s) := match r.d with
    | some d =>
      if r.vec then ({ t with c := t.c.setVec d (VReg.ofNat r.val) }, s) else writeResult t s w d (BitVec.ofNat 64 r.val)
    | none => (if r.push then { t with c := t.c.pushQ (BitVec.ofNat 64 r.val) } else t, s)
  let t := { t with c := t.c.setPred r.pd.toNat r.pv }
  let (t, s) := match r.empty with
    | some d => if isPort d then (t, s) else markEmpty t s w d
    | none => (t, s)
  ({ t.advance with run := .runnable }, s)
/-- A thread's reply arrives (R129, R136): it goes on, or takes its trap at its instruction. -/
def State.deliver (s : State) (t : Thread) (r : Delivery) : State :=
  match r.trap with
  | some x => takeTrap { t with run := .runnable } x.cause x.tval t.pc s
  | none =>
    let (t, s) := t.receive s r
    s.setThread t

end Sys2Proof.Machine
end

