-- ==== Sys2Proof/Machine/Notes.lean ====
section
/-! DEFINITION. Notes at their homes (R244-R250, R255, R261-R265, R432). -/

namespace Sys2Proof.Machine

/-! ### Waking and records -/

/-- A parked thread's condition fires (R136, R137); the job's all-asleep detector is armed again, unless the thread is the
handler task (R147). -/
def State.wakeThread (s : State) (t : Thread) : State :=
  (s.setThread { t.becomeReady s.now with run := t.run.fire }).modJob t.ctx fun j =>
    { j with disarmed := j.disarmed && j.sleepTask == some t.tid }

/-- Wake the threads parked on a note (R248). -/
def State.wakeFuture (s : State) (h : Word) (tid : Nat) : State :=
  match s.thread? tid with
  | some t => match t.run.wake?, t.run.pending with
    | some w, none => if w.kind == .future && w.operand == h then s.wakeThread t else s
    | _, _ => s
  | none => s

/-- A byte of an aborted fetch's destination: old, or its fetched value (R13, R262) (log 26, 75). -/
def State.abortPiece (s : State) (cl : Nat) (ctx : Nat) (d : TileDesc) (p : Piece) : State :=
  match s.xlate ctx none .read p.va with
  | .ok pa _ =>
    (List.range p.len).foldl (fun s i =>
      if Config.fetchedByte s.freeCtr i then
        (s.modCluster cl fun c => c.tileWrite d.swz (d.dest + p.off + i) 1 (s.peek (pa + i) 1)).tickFree
      else s.tickFree) s
  | _ => s

/-- Take a held record out of its store and abort its fetches (R255, R262): plain pieces not yet performed leave old or
fetched bytes; the blocks of a coded tile are dropped (log 75). -/
def State.discardHeld (s : State) (cl : Nat) (h : Held) : State :=
  let s := h.pieces.foldl (fun s p => match h.r.subs[p.1]? with
    | some e =>
      let d := tileDesc e.2
      if d.codec then s else s.abortPiece cl h.ctx d p.2
    | none => s) s
  (s.dropHeld cl h.id).modCluster cl fun c =>
    { c with contracts := c.contracts.map fun k => k.without h.id, ending := (c.ending.map fun k => k.without h.id).filter fun k => !k.live.isEmpty }

/-- Send the transition of a record's note (R255) (log 52). -/
def State.failNote (s : State) (note : Option Word) (kind : NoteKind) (cause : BitVec 8) (v : Word) (id ctx core : Nat) :
    State :=
  match note with
  | some n => s.sendNote ⟨kind, n, v, cause, id, ctx, core, false, [], false, none⟩
  | none => s

/-- A record of a store that has become ready takes a free phase of its region at once, if there is one (R253). -/
def State.placeHeld (s : State) (cl : Nat) (h : Held) : State :=
  match s.storePlace h.ctx h.r h.hint with
  | some (c, p) => (s.dropHeld cl h.id).start (s.taskThread h c p)
  | none => s

/-- A held record meets the terminal state of one of its dependence inputs (R253, R255). -/
def State.inputDone (s : State) (cl : Nat) (h : Held) (n : Word) (st : NoteState) : State :=
  match st with
  | .resolved =>
    let waits := h.waits.filter (· != n)
    let ready := waits.isEmpty && h.pieces.isEmpty && h.readyAt.isNone
    let h := { h with waits := waits, readyAt := if ready then some s.now else h.readyAt, agedAt := if ready then s.now else h.agedAt }
    let s := s.modCluster cl fun c => { c with records := c.records.map fun k => if k.id = h.id then h else k }
    if ready then s.placeHeld cl h else s
  | .poisoned => (s.discardHeld cl h).failNote h.note .poison 0x08#8 n h.id h.ctx h.hint
  | .cancelled => (s.discardHeld cl h).failNote h.note .cancel 0#8 0#64 h.id h.ctx h.hint
  | .pending => s

/-- A held record by its number, with the cluster whose store holds it. -/
def State.heldAt (s : State) (id : Nat) : Option (Nat × Held) :=
  s.clusters.findSome? fun c => (c.records.find? fun h => h.id == id).map fun h => (c.id, h)

/-! ### The note space (R246-R250) -/

/-- The code of a state (R246). -/
def NoteState.code : NoteState → Nat
  | .pending => 1
  | .resolved => 2
  | .poisoned => 3
  | .cancelled => 4

def State.setNote (s : State) (cl : Nat) (n : Note) : State :=
  s.modCluster cl fun c => { c with notes := c.notes.map fun m => if m.index = n.index then n else m }

/-- The vault's 32-byte slot of a spilled note (R250). -/
def Note.image (n : Note) (gen : Nat) : Nat :=
  n.value.toNat + 2 ^ 64 * (n.state.code + 2 ^ 8 * n.cause.toNat + 2 ^ 16 * n.ctx + 2 ^ 40 * gen)

/-- Make a note FREE (R245, R265): its index's generation advances and its vault slot is cleared. -/
def State.freeNote (s : State) (cl : Nat) (n : Note) (advance : Bool) : State :=
  let c := s.cluster cl
  let s := if n.spilled then s.poke (c.vault + 32 * n.index) 32 0 else s
  s.modCluster cl fun c =>
    { c with
      notes := c.notes.filter fun m => m.index != n.index,
      gens := if advance then assign c.gens n.index ((lookupD c.gens n.index 0 + 1) % 2 ^ 24) else c.gens }

/-- Whether the vault has a block for one more waiter (R250) (log 74). -/
def Cluster.waiterRoom (c : Cluster) (n : Note) : Bool :=
  decide (n.waiters.length < 4) || decide (4 < n.waiters.length ∧ (n.waiters.length - 4) % 7 ≠ 0)
    || decide (c.notes.foldl (fun k m => k + m.blocks.length) 0 < Config.waiterBlocks)
/-- The lowest waiter block that no note has (log 74). -/
def Cluster.freeBlock (c : Cluster) : Nat :=
  let used := c.notes.flatMap (·.blocks)
  ((List.range (used.length + 1)).find? fun b => !used.contains b).getD 0
/-- A waiter word (R250) (log 74). -/
def State.waiterWord (s : State) : Waiter → Nat
  | .thread tid => ((s.thread? tid).elim 0#24 (·.num)).toNat
  | .record id => id % 2 ^ 24 + 2 ^ 24
  | .proxy chip proxy _ => proxy.toNat % 2 ^ 24 + 2 * 2 ^ 24 + chip * 2 ^ 32
/-- The vault's address of a waiter block (R250). -/
def Cluster.blockAt (c : Cluster) (b : Nat) : Nat := c.vault + 0x200000 + 64 * b
/-- Register one more waiter with a note (R248): the first four inline, each further one in a waiter block of the vault, seven to a
block, whose last dword links to the next (R250) (log 74). -/
def State.addWaiter (s : State) (cl : Nat) (n : Note) (w : Waiter) : State :=
  let c := s.cluster cl
  let k := n.waiters.length
  let n' := { n with waiters := n.waiters ++ [w] }
  if k < 4 then s.setNote cl n'
  else if (k - 4) % 7 = 0 then
    let b := c.freeBlock
    let s := (s.setNote cl { n' with blocks := n.blocks ++ [b] }).poke (c.blockAt b) 64 (s.waiterWord w)
    match n.blocks.getLast? with
    | some last => s.poke (c.blockAt last + 56) 8 (c.blockAt b)
    | none => s
  else (s.setNote cl n').poke (c.blockAt (n.blocks.getLast?.getD 0) + 8 * ((k - 4) % 7)) 8 (s.waiterWord w)

/-- The first FREE index at or after a place; the choice among them is free (R249, log 20) (log 20). -/
def Cluster.freeIndex (c : Cluster) (start : Nat) : Option Nat :=
  if Config.noteIndices ≤ c.notes.length then none
  else
    let k := c.notes.length + 1
    ((List.range k).map fun i => (start + i) % Config.noteIndices).find? fun i => c.notes.all fun n => n.index != i

/-- Allocate a PENDING note in a cluster (R249): the oldest terminal note is spilled where the table is full; of notes whose
transitions fell in one cycle the one allocated first (log 20). -/
def State.allocNote (s : State) (cl ctx : Nat) (task : Option Nat) : Option (Word × State) :=
  let c := s.cluster cl
  match c.freeIndex (Config.noteStart s.freeCtr) with
  | none => none
  | some i =>
    let resident := c.notes.filter fun n => !n.spilled
    let s := s.tickFree
    let add (s : State) : Word × State :=
      let gen := lookupD c.gens i 0
      let n : Note := ⟨i, ctx, .pending, 0#64, 0#8, false, task, [], [], false, 0⟩
      (makeHandle s.chip cl i gen, s.modCluster cl fun c => { c with notes := c.notes ++ [n] })
    if resident.length < Config.tableEntries then some (add s)
    else
      let terminal := resident.filter fun n => n.state != .pending
      match terminal.find? fun n => terminal.all fun m => decide (n.termAt ≤ m.termAt) with
      | none => none
      | some n =>
        let s := s.poke (c.vault + 32 * n.index) 32 (n.image (lookupD c.gens n.index 0))
        some (add (s.setNote cl { n with spilled := true }))

/-! ### Transitions (R247, R248, R261, R262) -/

/-- The cause and value that TOUCH_REPLY carries (R430) (log 72). -/
def State.tellProxy (s : State) (n : Note) (h : Word) (chip : Nat) (proxy : Word) (ctx : Nat) : State :=
  s.sendFab chip n.ctx ctx (.touchReply h proxy n.state.code n.cause.toNat n.value)

/-- Wake every waiter of a note that has become terminal, in order of registration (R248). -/
def State.wakeWaiters (s : State) (h : Word) (n : Note) : State :=
  n.waiters.foldl (fun s w => match w with
    | .thread tid => s.wakeFuture h tid
    | .proxy chip proxy ctx => s.tellProxy n h chip proxy ctx
    | .record id => match s.heldAt id with
      | some (cl, r) => s.inputDone cl r h n.state
      | none => s) s

/-- The effect of a cancellation on the note's task (R262). -/
def State.cancelTask (s : State) (task : Option Nat) : State :=
  match task with
  | none => s
  | some tid =>
    match s.thread? tid with
    | some t =>
      let u := { t with csr := { t.csr with creq := true } }
      let s := (s.setThread u).frameWrite u 496 8 u.status.toNat
      match u.run.wake? with
      | some w => if u.creqAck || w.kind == .exit then s else s.killCancelled u
      | none => s
    | none =>
      match (s.clusters.flatMap fun c => (c.records.filter fun h => h.id == tid).map fun h => (c.id, h)).head? with
      | some (cl, h) => s.discardHeld cl h
      | none => s

/-- The first terminal transition of a PENDING note (R247, R248), followed by its release where RELQ is set (R261). -/
def State.transition (s : State) (cl : Nat) (h : Word) (n : Note) (st : NoteState) (cause : BitVec 8) (v : Word) : State :=
  let n' := { n with state := st, cause := cause, value := v, waiters := [], blocks := [], termAt := s.now }
  let s := (s.setNote cl n').wakeWaiters h { n' with waiters := n.waiters }
  if n.relq then s.freeNote cl n' true else s

/-- The answer a terminal note gives (R260). -/
def Note.reply (n : Note) : NoteReply :=
  match n.state with
  | .resolved => .resolved n.value
  | .poisoned => .poisoned n.cause n.value
  | _ => .cancelled

/-- Perform a transition or release at its home (R261, R262, R265): whether the home check passed and whether it won. -/
def State.performNote (s : State) (ctx : Nat) (h : Word) (kind : NoteKind) (cause : BitVec 8) (v : Word) :
    State × Option Bool :=
  let cl := handleHome h
  match s.noteOf ctx h with
  | none => (s, none)
  | some n =>
    if n.state = .pending then
      match kind with
      | .free => (s.setNote cl { n with relq := true }, some false)
      | .cancel => ((s.transition cl h n .cancelled 0#8 0#64).cancelTask n.task, some true)
      | .poison => (s.transition cl h n .poisoned cause v, some true)
      | _ => (s.transition cl h n .resolved 0#8 v, some true)
    else if kind = .free then (s.freeNote cl n true, some true)
    else (s, some false)

/-- The KIND of a RESOLVE message (R430). -/
def NoteKind.code : NoteKind → Nat
  | .resolve => 0
  | .resolveFirst => 1
  | .poison => 2
  | .cancel => 3
  | .free => 4
  | .touch => 0
def kindOfCode : Nat → NoteKind
  | 0 => .resolve
  | 1 => .resolveFirst
  | 2 => .poison
  | 3 => .cancel
  | _ => .free

/-- Give the answer of a note operation to the thread that waits for it. -/
def State.answerNote (s : State) (tid : Nat) (h : Word) (r : NoteReply) : State :=
  s.modThread tid fun t => match t.run.pending with
    | some (.note h' pd none) => if h' = h then { t with run := t.run.setPending (.note h pd (some r)) } else t
    | some (.touch p pd d h' none) => if h' = h then { t with run := t.run.setPending (.touch p pd d h (some r)) } else t
    | _ => t

/-- A touch that found its note PENDING: the thread is parked, no longer out, and issues again on the wake (R136, R260). -/
def Thread.parkTouch (t : Thread) (h : Word) (fired : Bool) : Thread :=
  match t.run with
  | .out w (.touch _ _ _ h' _) => if h' = h then { t with run := .parked w fired, taken := [] } else t
  | .saving w (some (.touch _ _ _ h' _)) _ va m => if h' = h then { t with run := .saving w none fired va m } else t
  | _ => t

/-- Whether a thread is in a save frame or on its way there. -/
def Thread.away (t : Thread) : Bool := t.evicted || match t.run with
  | .saving _ _ _ _ _ => true
  | _ => false
/-- Answer a touch; one whose thread has been evicted is issued again (R136). -/
def State.answerTouch (s : State) (tid : Nat) (h : Word) (r : NoteReply) : State :=
  match s.thread? tid with
  | some t => if t.away then s.setThread ((t.parkTouch h true).becomeReady s.now) else s.answerNote tid h r
  | none => s

/-- The waiter a touch registers (R248, R269). -/
def NoteOp.waiter (o : NoteOp) : Waiter :=
  match o.proxy with
  | some (chip, proxy, ctx) => .proxy chip proxy ctx
  | none => .thread o.tid
/-- The reply of a touch from another package (R430): STATE 0 where the home check fails (log 72). -/
def State.proxyReply (s : State) (o : NoteOp) (n : Option Note) : State :=
  match o.proxy, n with
  | some (chip, proxy, ctx), some n => s.tellProxy n o.handle chip proxy ctx
  | some (chip, proxy, ctx), none => s.sendFab chip o.ctx ctx (.touchReply o.handle proxy 0 0 0#64)
  | none, _ => s
/-- A touch at its note's home (R248, R250, R260): a terminal note answers, a PENDING one takes a waiter. -/
def State.touchNote (s : State) (o : NoteOp) : State :=
  let cl := handleHome o.handle
  match s.noteOf o.ctx o.handle with
  | none => if o.proxy.isSome then s.proxyReply o none else s.answerTouch o.tid o.handle .badHandle
  | some n =>
    if n.state ≠ .pending then
      (if o.proxy.isSome then s.proxyReply o (some n) else s.answerTouch o.tid o.handle n.reply)
    else
      let s := if n.waiters.contains o.waiter then s else s.addWaiter cl n o.waiter
      if o.proxy.isSome then s else s.modThread o.tid fun t => t.parkTouch o.handle false

/-- Whether a touch finds no room for its waiter (R250). -/
def State.touchFull (s : State) (o : NoteOp) : Bool :=
  o.kind == .touch && s.isHere o.handle && match s.noteOf o.ctx o.handle with
    | some n => n.state == .pending && !n.waiters.contains o.waiter && !(s.cluster (handleHome o.handle)).waiterRoom n
    | none => false

/-- A note operation arrives (R247, R261, R432) (log 74). -/
def State.noteArrives (s : State) (o : NoteOp) : State :=
  if !s.isHere o.handle then
    let chip := handleChip o.handle
    if !s.reached chip then
      (if o.wants then s.answerNote o.tid o.handle .badHandle else s)
    else if o.kind = .touch then s.sendFab chip o.ctx o.ctx (.touch o.handle (BitVec.ofNat 64 o.tid))
    else s.sendFab chip o.ctx o.ctx (.resolve o.handle o.value o.cause.toNat o.kind.code o.wants (BitVec.ofNat 64 o.tid))
  else if o.kind = .touch then s.touchNote o
  else
    let (s, r) := s.performNote o.ctx o.handle o.kind o.cause o.value
    if o.wants then s.answerNote o.tid o.handle (match r with
      | some w => .won w
      | none => .badHandle)
    else match r with
      | none => s.report o.ctx 4 0x0A o.handle (coordOf s.chip o.core) []
      | some _ => s

/-- Whether an operation comes after an earlier one: of its thread to its note (R247), or sent before from its core across the
die-to-die link to its note's cluster, which keeps the order of packets (R427). -/
def NoteOp.follows (o p : NoteOp) : Bool :=
  (p.tid == o.tid && p.handle == o.handle)
    || (p.after.isEmpty && p.core == o.core && handleHome p.handle == handleHome o.handle && coreDie o.core != handleHome o.handle / 64)
/-- The note operations whose release is done are sent now, after those sent before (R223, R261). -/
def State.sendReleased (s : State) : State :=
  let due := s.noteOps.filter fun o => !o.after.isEmpty && s.performed o.after
  if due.isEmpty then s
  else { s with noteOps := (s.noteOps.filter fun o => o.after.isEmpty || !s.performed o.after) ++ due.map fun o => { o with after := [] } }

/-- NOTE_OP_ARRIVE (R247, R250): an operation that has been sent reaches its note's home, in its thread's order; a touch for whose waiter the vault has no room is tried again later. -/
def execNoteOpArrive (index : Nat) (s : State) : Host.Outcome State Fault Refusal :=
  match s.noteOps[index]? with
  | none => .refused .notEnabled
  | some o =>
    if !o.after.isEmpty || (s.noteOps.take index).any o.follows then
      .refused .notEnabled
    else if s.touchFull o then
      if o.told then .refused .notEnabled
      else
        let cl := handleHome o.handle
        .next (({ s with noteOps := s.noteOps.set index { o with told := true } } : State).postEvent (s.funcOf o.ctx) 0x0D o.ctx
          (cl / 64 + 2 ^ 8 * (cl % 64) + 2 ^ 128 * s.now))
    else .next (({ s with noteOps := s.noteOps.eraseIdx index } : State).noteArrives o)

end Sys2Proof.Machine
end

