-- ==== Sys2Proof/Machine/Futures.lean ====
section
/-! DEFINITION. The task and future instructions (R256-R268), subscription fetches and dispatch from the record store (R253). -/

namespace Sys2Proof.Machine

/-! ### Records at a spawn (R243, R258) -/

/-- The traps of a record in the scratchpad (R243, R186); `ra` is its address. -/
def recordStop (ra : Word) (t : Thread) (s : State) : Option Stop :=
  let l := s.near t
  let a := ra.toNat
  if a % 64 ≠ 0 then some (.trap .misaligned ra)
  else if l.size < a + 64 then some (.trap .access ra)
  else
    let n := 64 + 16 * recordSubs (Memory.read l.spad a 64)
    if l.size < a + n then some (.trap .access ra)
    else match l.badAt a n with
      | some b => some (.trap .ue (BitVec.ofNat 64 b))
      | none => match s.badRecord t.ctx t.coreId (Memory.read l.spad a n) with
        | some b => some (.trap b.cause (if b.cause = .notAHandle then b.val else BitVec.ofNat 64 (a + b.off)))
        | none => none

/-- The pieces of a tile in global memory, with their offsets in the tile (R177, R242). -/
def tilePieces (va : Nat) (d : TileDesc) : List Piece :=
  if d.codec then blockPieces d.bytes
  else if d.pitch = 0 then piecesOf va d.bytes 0
  else (List.range d.rows).flatMap fun r =>
    piecesOf (va + r * d.pitch) (rowBytes d.cols d.fmt) (r * rowBytes d.cols d.fmt)

/-- The fetches of a record's subscriptions and the start of each coded tile (R253). -/
def TaskRec.fetches (r : TaskRec) : List (Nat × Piece) :=
  (r.subs.zipIdx).flatMap fun e => (tilePieces e.1.1.toNat (tileDesc e.1.2)).map fun p => (e.2, p)
def TaskRec.cursors (r : TaskRec) : List (Nat × Nat) := (r.subs.zipIdx).map fun e => (e.2, e.1.1.toNat)

/-- What the home of a dependence input answers (R258); of one in another package a free value (log 72). -/
inductive InputState where
  | resolved
  | waits
  | poisoned
  | cancelled
  | bad
  deriving DecidableEq, Repr
def State.inputState (s : State) (ctx : Nat) (h : Word) : InputState :=
  if !s.isHere h then
    match Config.remoteInput (s.freeCtr + h.toNat) with
    | 0 => .waits
    | 1 => .resolved
    | 2 => .poisoned
    | 3 => .cancelled
    | _ => .bad
  else match s.noteOf ctx h with
    | none => .bad
    | some n => match n.state with
      | .pending => .waits
      | .resolved => .resolved
      | .poisoned => .poisoned
      | .cancelled => .cancelled

/-- The transition that a failed dependence input gives the record's note (R255). -/
def inputFailure (deps : List (Word × InputState)) : Option (NoteState × BitVec 8 × Word) :=
  deps.findSome? fun e => match e.2 with
    | .poisoned => some (.poisoned, 0x08#8, e.1)
    | .cancelled => some (.cancelled, 0#8, 0#64)
    | .bad => some (.poisoned, 0x0A#8, e.1)
    | _ => none

/-- Mark a held record's registration as one that has met a full vault. -/
def State.markTold (s : State) (cl id : Nat) : State :=
  s.modCluster cl fun c => { c with records := c.records.map fun h => if h.id = id then { h with told := true } else h }
/-- Register a record of cluster `cl` with an input of this package (R248, R253), or find what it has come to since (R255); while the
vault has no block the record stays unregistered and VAULT_FULL is told once (R250). -/
def State.registerInput (s : State) (cl : Nat) (h : Held) (w : Word) : State :=
  let home := handleHome w
  match s.noteOf h.ctx w with
  | none => (s.discardHeld cl h).failNote h.note .poison 0x0A#8 w h.id h.ctx h.hint
  | some n =>
    if n.state != .pending then s.inputDone cl h w n.state
    else if n.waiters.contains (.record h.id) then s
    else if (s.cluster home).waiterRoom n then s.addWaiter home n (.record h.id)
    else if h.told then s
    else (s.markTold cl h.id).postEvent (s.funcOf h.ctx) 0x0D h.ctx (home / 64 + 2 ^ 8 * (home % 64) + 2 ^ 128 * s.now)
/-- Register a held record with the inputs it waits for; a home in another package gets a touch (R432) (log 72). -/
def State.registerRecord (s : State) (h : Held) : State :=
  h.waits.foldl (fun s w =>
    match s.heldAt h.id with
    | some (cl, h) =>
      if s.isHere w then s.registerInput cl h w
      else s.sendFab (handleChip w) h.ctx h.ctx (.touch w (BitVec.ofNat 64 h.id))
    | none => s) s
/-- Retry the registrations that met a full vault (R250). -/
def State.retryRecords (s : State) : State :=
  (s.clusters.flatMap fun c => c.records.filter (·.told)).foldl (fun s h =>
    (h.waits.filter s.isHere).foldl (fun s w => match s.heldAt h.id with
      | some (cl, h) => s.registerInput cl h w
      | none => s) s) s

/-- Put a record into the hint cluster's store, or into a phase of its region at once where it is ready (R253). -/
def State.storeRecord (s : State) (h : Held) : State :=
  match (if h.readyAt.isSome then s.storePlace h.ctx h.r h.hint else none) with
  | some (c, p) => s.start (s.taskThread h c p)
  | none =>
    (s.modCluster (coreCluster h.hint) fun c => { c with records := c.records ++ [h] }).registerRecord h

/-- Whether a cluster's record store has room (R253). -/
def State.storeAccepts (s : State) (cl : Nat) : Bool := decide ((s.cluster cl).records.length < Config.recordStore)

/-- A new record as its store holds it (log 77). -/
def heldRecord (id ctx : Nat) (va : Word) (r : TaskRec) (note : Option Word) (hint spawner now : Nat) (waits : List Word)
    (ready : Bool) : Held :=
  { id := id, ctx := ctx, va := va, r := r, note := note, hint := hint, waits := waits, pieces := r.fetches,
    cursor := r.cursors, spawner := spawner, arrived := now, readyAt := if ready then some now else none,
    level := BitVec.ofNat 8 r.prio, agedAt := now, contract := none, rank := none, told := false }

/-! ### Spawn (R258, R259) -/

/-- What the hint cluster answers a spawn: not yet; a reply; or the child takes the caller's phase. -/
inductive Spawned where
  | wait
  | done (s : State) (r : Delivery)
  | inline (s : State) (child : Thread) (r : Delivery)

/-- Whether the caller may make way for an inline child (R259): it holds its phase, and a slot or a frame is free (log 71). -/
def State.inlineRoom (s : State) (t : Thread) : Bool :=
  t.phase?.isSome && s.quiesce.isNone && (match t.run with
    | .out _ _ => true
    | _ => false)
  && (s.slotFree t.coreId || ((s.job? t.ctx).bind (·.frameRoom (frameUnits (s.engineOf t).isSome))).isSome)

/-- The whole effect of a spawn at its reply (R258) (log 71, 77). -/
def spawnReply (t : Thread) (s : State) (inl : Bool) (pd : BitVec 2) (d : Reg) (ra : Nat) (r : TaskRec) (after : List Nat) :
    Spawned :=
  if !s.performed after then .wait
  else
    let (id, s) := s.takeTid
    let (h, s) : Option Word × State := match s.allocNote t.cluster t.ctx (some id) with
      | some (h, s') => (some h, s')
      | none => (none, s)
    let answer (v : Word) (ok : Bool) : Delivery := { Delivery.scalar d v with pd := pd, pv := ok }
    let record (s : State) (v : Word) : State := (s.modCore t.coreId fun c =>
      c.withStore (c.localStore.write (ra + 40) 8 v.toNat)).bill t.tid t.ctx (spadCost 8)
    let deps := r.deps.map fun w => (w, s.inputState t.ctx w)
    let s := s.tickFree
    let failure := inputFailure deps
    let waits := (deps.filter fun e => e.2 == .waits).map (·.1)
    let ready := r.subs.isEmpty && deps.all fun e => e.2 == .resolved
    let hint := r.hintCore t.coreId
    match h, failure with
    | some h, some (st, cause, v) =>
      let s := match s.noteOf t.ctx h with
        | some n => s.transition (handleHome h) h n st cause v
        | none => s
      .done (record s h) (answer h true)
    | _, _ =>
      let held := heldRecord id t.ctx (BitVec.ofNat 64 ra) r h hint t.tid s.now waits ready
      match (if ready && h.isSome then s.walkPlace t.ctx r hint t.cluster else none) with
      | some (c, p) => .done (record (s.start (s.taskThread held c p)) (h.getD 0#64)) (answer (h.getD 0#64) true)
      | none =>
        if inl && ready && (!r.pin || hint == t.coreId) && s.inlineRoom t then
          let child := s.taskThread held t.coreId t.lastPhase
          match h with
          | some h => .inline s child (answer h true)
          | none => .inline s { child with caller := some (t.tid, d) } { Delivery.none' with pd := pd, pv := true, empty := some d }
        else match h with
          | some h =>
            if s.storeAccepts (coreCluster hint) then .done (record (s.storeRecord held) h) (answer h true)
            else
              let s := match s.noteOf t.ctx h with
                | some n => s.freeNote (handleHome h) n false
                | none => s
              .done s (answer 2#64 false)
          | none => .done s (answer 1#64 false)

/-- Start an inline child in the phase of its caller, which goes to a free slot or to a frame, ready at once (R259) (log 71). -/
def State.startInline (s : State) (t : Thread) (child : Thread) : State :=
  let t := (t.park s.now (wake .yield 0 0#64)).becomeReady s.now
  let t := { t with run := t.run.fire }
  let s := if s.slotFree t.coreId then s.setThread { t with loc := .slot t.coreId t.lastPhase }
    else match (s.job? t.ctx).bind (·.frameRoom (frameUnits (s.engineOf t).isSome)) with
      | some va =>
        let s := s.modJob t.ctx fun j => { j with frames := j.frames ++ [(va, frameUnits (s.engineOf t).isSome)] }
        let s := match s.engineOf t with
          | some e => s.setEngine t.cluster (e.stopAt 0)
          | none => s
        (s.setThread t).saveDone t va false
      | none => s.setThread t
  s.start child

/-- `spawn` (R258). -/
def execSpawn (o : OpQ) (s : State) : Host.Outcome State Fault Refusal :=
  issue (.spawn o) (fun t s => match ready t s 0#2 [o.a] [o.d] with
    | some stop => .error stop
    | none =>
      let ra := srcVal t s 0#2 o.a
      match recordStop ra t s with
      | some stop => .error stop
      | none =>
        let im := Memory.read (s.near t).spad ra.toNat 128
        let (t, s) := payFor t s (spadCost (64 + 16 * recordSubs im))
        let p : Pending := .spawn o.i o.pd o.d ra.toNat (taskRecord im) (s.earlier t.tid)
        atSync true 0#2 ra [o.a] p (fun t s => waitFor 0#2 ra [o.a] p t s) t s) s

/-! ### Touch, resolution, cancellation (R260-R263, R265) -/

/-- The local checks on a handle (R245). -/
def withHandle (t : Thread) (s : State) (h : Word) (k : Thread → State → Done) : Done :=
  if s.handleOk h then k t s else .error (.trap .notAHandle h)

/-- `touch` and `touch.p` (R260). -/
def touchOp (o : OpQ) (p : Bool) (t : Thread) (s : State) : Done :=
  match ready t s 0#2 [o.a] [o.d] with
  | some stop => .error stop
  | none =>
    let h := srcVal t s 0#2 o.a
    let op : NoteOp := ⟨.touch, h, 0#64, 0#8, t.tid, t.ctx, t.coreId, true, [], false, none⟩
    let q : Pending := .touch p o.pd o.d h none
    withHandle t s h (atSync false 0#2 h [o.a] (.noteOp op q) fun t s =>
      .ok ((t.leave s.now (wake .future 0 h) q).holding [o.a], s.sendNote op))

/-- `touch` (R260). -/
def execTouch (o : OpQ) (s : State) : Host.Outcome State Fault Refusal := issue (.touch o) (touchOp o false) s
/-- `touch.p` (R260). -/
def execTouchP (o : OpQ) (s : State) : Host.Outcome State Fault Refusal := issue (.touchP o) (touchOp o true) s

/-- A transition sent to a note's home after a release (R261): posted with pd = 0, else the thread awaits the answer. While the release of
a posted form waits, its thread is at a blocking point of kind MEMORY with operand a (log 52). -/
def transitionOp (o : OpQ) (kind : NoteKind) (srcs : List Reg) (t : Thread) (s : State) : Done :=
  match ready t s 0#2 (o.a :: srcs) [] with
  | some stop => .error stop
  | none =>
    let h := srcVal t s 0#2 o.a
    let v := srcs.head?.elim 0#64 (srcVal t s 0#2)
    let after := s.earlier t.tid
    let op (wants : Bool) (after : List Nat) : NoteOp := ⟨kind, h, v, 0#8, t.tid, t.ctx, t.coreId, wants, after, false, none⟩
    let named := o.a :: srcs
    if o.pd = 0#2 then
      withHandle t s h (atSync true 0#2 h named (.postNote kind h v after) fun t s =>
        if after.isEmpty then .ok (t.advance, (consume t s named).sendNote (op false []))
        else waitFor 0#2 h named (.postNote kind h v after) t s)
    else
      let p : Pending := .note h o.pd none
      withHandle t s h (atSync true 0#2 h named (.noteOp (op true after) p) fun t s =>
        waitFor 0#2 h named p t (s.sendNote (op true after)))

/-- `fres` (R261). -/
def execFres (o : OpQ) (s : State) : Host.Outcome State Fault Refusal := issue (.fres o) (transitionOp o .resolve [o.b]) s
/-- `fres.first` (R261). -/
def execFresFirst (o : OpQ) (s : State) : Host.Outcome State Fault Refusal :=
  issue (.fresFirst o) (transitionOp o .resolveFirst [o.b]) s
/-- `fpois` (R261): CAUSE 0. -/
def execFpois (o : OpQ) (s : State) : Host.Outcome State Fault Refusal := issue (.fpois o) (transitionOp o .poison [o.b]) s
/-- `fcan` (R262). -/
def execFcan (o : OpQ) (s : State) : Host.Outcome State Fault Refusal := issue (.fcan o) (transitionOp o .cancel []) s

/-- `fcanq` (R263). -/
def execFcanq (o : OpQ) (s : State) : Host.Outcome State Fault Refusal :=
  issue (.fcanq o) (fun t s => .ok (finishWith t s [] fun u =>
    { u with c := u.c.setPred o.pd.toNat u.csr.creq, creqAck := u.creqAck || u.csr.creq })) s

/-- `frel` (R265): posted; to a note of another package it goes after its issuer's stores (R432). -/
def execFrel (o : OpQ) (s : State) : Host.Outcome State Fault Refusal :=
  issue (.frel o) (fun t s => match ready t s 0#2 [o.a] [] with
    | some stop => .error stop
    | none =>
      let h := srcVal t s 0#2 o.a
      withHandle t s h fun t s => .ok (t.advance,
        (consume t s [o.a]).sendNote ⟨.free, h, 0#64, 0#8, t.tid, t.ctx, t.coreId, false,
          if s.isHere h then [] else s.earlier t.tid, false, none⟩)) s

/-! ### Query, create and read (R264, R266, R267) -/

/-- `fq` (R264). -/
def execFq (o : OpQ) (s : State) : Host.Outcome State Fault Refusal :=
  issue (.fq o) (fun t s => match ready t s 0#2 [o.a] [o.d] with
    | some stop => .error stop
    | none =>
      let h := srcVal t s 0#2 o.a
      withHandle t s h (waitFor 0#2 h [o.a] (.fq h o.d))) s
/-- The state word of a note (R264). -/
def Note.word (n : Note) : Word :=
  BitVec.ofNat 64 (min n.waiters.length 255 * 2 ^ 16 + (if n.state = .poisoned then n.cause.toNat * 2 ^ 8 else 0)
    + n.spilled.toNat * 16 + n.relq.toNat * 8 + n.state.code)
/-- A state word with the fields of a free value: STATE is one of the five codes, CAUSE only with POISONED, WAITERS and RELQ only with
PENDING, SPILLED only with a terminal state (R246, R264) (log 33). -/
def freeStateWord (x : Nat) : Word :=
  let st := x % 5
  BitVec.ofNat 64 (st + (if st = 1 then x / 8 % 2 * 8 + x / 2 ^ 16 % 256 * 2 ^ 16 else 0) + (if 2 ≤ st then x / 16 % 2 * 16 else 0)
    + (if st = 3 then x / 2 ^ 8 % 256 * 2 ^ 8 else 0))
/-- The home's answer to `fq`: of a note of another package a free state word (log 33). -/
def replyFq (t : Thread) (s : State) (h : Word) (d : Reg) : Option (State × Delivery) :=
  if s.isHere h then some (s, .scalar d (((s.noteOf t.ctx h).map Note.word).getD 0#64))
  else some (s.tickFree, .scalar d (freeStateWord (Config.remoteState s.freeCtr).toNat))

/-- `fnew` (R266). -/
def execFnew (o : OpQ) (s : State) : Host.Outcome State Fault Refusal :=
  issue (.fnew o) (fun t s => match ready t s 0#2 [] [o.d] with
    | some stop => .error stop
    | none => waitFor 0#2 0#64 [] (.fnew o.pd o.d) t s) s
/-- The allocation's answer (R266). -/
def replyFnew (t : Thread) (s : State) (pd : BitVec 2) (d : Reg) : Option (State × Delivery) :=
  let answer (v : Word) (ok : Bool) : Delivery := { Delivery.scalar d v with pd := pd, pv := ok }
  match s.allocNote t.cluster t.ctx none with
  | some (h, s) => some (s, answer h true)
  | none => some (s, answer 1#64 false)

/-- `ftask.q` (R267). -/
def execFtaskQ (o : OpQ) (s : State) : Host.Outcome State Fault Refusal :=
  issue (.ftaskQ o) (fun t s => match ready t s 0#2 [] [o.d] with
    | some stop => .error stop
    | none =>
      let v := match o.b.toNat with
        | 0 => t.note.getD 0#64
        | 1 => t.in0
        | _ => t.in1
      .ok (finish t s 0#2 [] o.d v)) s

/-! ### Replies -/

/-- The answer to an awaited transition (R261). -/
def replyNote (s : State) (h : Word) (pd : BitVec 2) (r : Option NoteReply) : Option (State × Delivery) :=
  match r with
  | none => none
  | some .badHandle => some (s, .trapped .notAHandle h)
  | some (.won b) => some (s, { Delivery.none' with pd := pd, pv := b })
  | some _ => some (s, { Delivery.none' with pd := pd, pv := false })

/-- A posted transition whose release is done (R261). -/
def replyPostNote (t : Thread) (s : State) (kind : NoteKind) (h v : Word) (after : List Nat) : Option (State × Delivery) :=
  if s.performed after then
    some (s.sendNote ⟨kind, h, v, 0#8, t.tid, t.ctx, t.coreId, false, [], false, none⟩, Delivery.none')
  else none

/-- A touch's answer, with its acquire (R260). -/
def replyTouch (t : Thread) (s : State) (p : Bool) (pd : BitVec 2) (d : Reg) (h : Word) (r : Option NoteReply) :
    Option (State × Delivery) :=
  match r with
  | none => none
  | some .badHandle => some (s, .trapped .notAHandle h)
  | some (.won _) => none
  | some (.resolved v) => some (s.dropCopies t, { Delivery.scalar d v with pd := pd, pv := true })
  | some (.poisoned _ v) =>
    some (s.dropCopies t, if p then { Delivery.scalar d v with pd := pd, pv := false } else .trapped .futurePoisoned h)
  | some .cancelled =>
    some (s.dropCopies t, if p then { Delivery.scalar d 0#64 with pd := pd, pv := false } else .trapped .futureCancelled h)

/-! ### Subscription fetches (R253, R255) and dispatch (R253, R304) -/

/-- A held record's failed subscription piece (R255). -/
def State.failHeld (s : State) (cl : Nat) (h : Held) (c : Cause) (va : Nat) : State :=
  (s.discardHeld cl h).failNote h.note .poison c.code (BitVec.ofNat 64 va) h.id h.ctx h.hint

/-- Record that a piece has been fetched; the last one makes a record ready that waits for no input (R252). -/
def State.pieceFetched (s : State) (cl id : Nat) (p : Nat × Piece) (cursor : Nat) : State :=
  s.modCluster cl fun c => { c with records := c.records.map fun h =>
    if h.id = id then
      let pieces := h.pieces.filter (· != p)
      let ready := pieces.isEmpty && h.waits.isEmpty && h.readyAt.isNone
      { h with
        pieces := pieces, cursor := assign h.cursor p.1 cursor,
        readyAt := if ready then some s.now else h.readyAt, agedAt := if ready then s.now else h.agedAt }
    else h }

/-- Perform piece `p` of a held record's subscriptions (R253): its bytes are written to the tile store and set layout tags (log 75, 76). -/
def State.fetchPiece (s : State) (cl : Nat) (h : Held) (p : Nat × Piece) : Option State :=
  match h.r.subs[p.1]? with
  | none => none
  | some e =>
    let d := tileDesc e.2
    let cursor := lookupD h.cursor p.1 0
    match s.tilePieceAt h.ctx (.sub cl h.id p.1 p.2.off) cl d.dest d.swz d.codec cursor p.2 with
    | .wait => none
    | .page s => some s
    | .fail c va => some (s.failHeld cl h c va)
    | .ok s cursor pj =>
      let s := (s.bill h.spawner h.ctx pj).pieceFetched cl h.id p cursor
      some (match (s.cluster cl).records.find? fun k => k.id == h.id with
        | some k => if k.readyAt.isSome && h.readyAt.isNone then s.placeHeld cl k else s
        | none => s)

/-- SUBSCRIPTION_FETCH_DONE (R253, R255): piece number `sub` of those a held record still waits for; the blocks of a coded
tile come in order. -/
def execSubscriptionFetchDone (cl record sub : Nat) (s : State) : Host.Outcome State Fault Refusal :=
  match (s.cluster cl).records.find? fun h => h.id == record with
  | none => .refused .notEnabled
  | some h => match h.pieces[sub]? with
    | none => .refused .notEnabled
    | some p =>
      let coded := (h.r.subs[p.1]?).any fun e => (tileDesc e.2).codec
      if coded && (h.pieces.take sub).any (fun q => q.1 == p.1) then .refused .notEnabled
      else match s.fetchPiece cl h p with
        | some s => .next s
        | none => .refused .notEnabled

end Sys2Proof.Machine
end

