-- ==== Sys2Proof/Machine/Queues.lean ====
section
/-! DEFINITION. Queues in global memory (R273-R290). -/

namespace Sys2Proof.Machine

/-! ### Descriptors (R273-R275) -/

/-- A queue descriptor as it stands at its home. -/
structure QDesc where
  resv : Word
  tail : Word
  head : Word
  base : Word
  cfg : Word
  map : Word
  wake : Word
  deriving DecidableEq, Repr

/-- Read a descriptor at its home. -/
def State.qdescAt (s : State) (pa : Nat) : QDesc :=
  let f (i : Nat) : Word := BitVec.ofNat 64 (s.peek (pa + 8 * i) 8)
  ⟨f 0, f 1, f 2, f 3, f 4, f 5, f 6⟩
/-- A job's descriptor; none where its page has no translation. -/
def State.qdesc (s : State) (ctx q : Nat) : Option QDesc := (s.jobPhys ctx q).map s.qdescAt
/-- Write one dword of a descriptor at its home. -/
def State.qsetAt (s : State) (pa i : Nat) (v : Word) : State := s.poke (pa + 8 * i) 8 v.toNat
/-- The same by the descriptor's virtual address. -/
def State.qset (s : State) (ctx q i : Nat) (v : Word) : State := s.jobWrite ctx (q + 8 * i) 8 v.toNat

def QDesc.logn (d : QDesc) : Nat := entryField d.cfg 0 5
def QDesc.slots (d : QDesc) : Nat := 2 ^ d.logn
def QDesc.kind (d : QDesc) : Nat := entryField d.cfg 8 2
def QDesc.ext (d : QDesc) : Bool := d.cfg.getLsbD 23
/-- The preferred cluster, numbered 64·die + cluster. -/
def QDesc.wanted (d : QDesc) : Nat := entryField d.cfg 16 7
def QDesc.mapped (d : QDesc) : Bool := d.map.getLsbD 63
/-- The address of the slot of an index (R273). -/
def QDesc.slotVa (d : QDesc) (i : Word) : Nat := d.base.toNat + 64 * (i.toNat % d.slots)

/-- Whether a leaf covers a range that starts at an address. Where no valid leaf stands there the page's size is not known, and
the range is taken to lie within one: the access to it meets the fault (log 130). -/
def State.onePage (s : State) (ctx va n : Nat) : Bool :=
  match s.leaf [] 128 ctx va with
  | .ok (_, level) => va / 2 ^ levelShift level == (va + n - 1) / 2 ^ levelShift level
  | .error _ => true

/-- Whether a descriptor is malformed (R274) (log 130). -/
def State.qmalformed (s : State) (ctx : Nat) (d : QDesc) : Bool :=
  entryField d.cfg 24 40 != 0 || entryField d.cfg 10 6 != 0 || entryField d.cfg 5 3 != 0 || decide (2 ≤ d.kind)
    || d.logn == 0 || decide (16 < d.logn) || d.base.toNat % (64 * d.slots) != 0 || decide (2 ^ 52 ≤ d.base.toNat)
    || !s.onePage ctx d.base.toNat (64 * d.slots)

/-- WAKE bits (R275). -/
def State.qwake (s : State) (pa : Nat) (d : QDesc) (bits : Word) : State := s.qsetAt pa 6 (d.wake ||| bits)
/-- Set WAKE.BAD and report it (R278, R280, R281, R289). -/
def State.qbad (s : State) (ctx q pa : Nat) (d : QDesc) (info1 : Word) : State :=
  (s.qwake pa d 2#64).report ctx 5 0 (BitVec.ofNat 64 q) info1 []

/-- Ask firmware to map a queue (R281). -/
def State.askMap (s : State) (ctx q : Nat) : State :=
  s.modJob ctx fun j => if j.mapAsked.contains q then j else { j with mapAsked := j.mapAsked ++ [q] }

/-! ### Records and waiters (R277, R279, R286) -/

/-- Whether the slot of index i holds its record (R277, R279). -/
def State.seqMatches (s : State) (ctx : Nat) (d : QDesc) (i : Word) : Bool := s.jobRead ctx (d.slotVa i) 8 == i.toNat
/-- Whether the read of slot i meets UE (R279). -/
def State.slotBad (s : State) (ctx : Nat) (d : QDesc) (i : Word) : Bool :=
  match s.jobPhys ctx (d.slotVa i) with
  | some pa => (s.poisonAt pa 64).isSome
  | none => false
/-- Deliverable records from HEAD on, at most `n` (R279). A slot whose read meets UE counts as the last one: the `qpop` that
reaches it takes UE. -/
def State.deliverable (s : State) (ctx : Nat) (d : QDesc) : Nat → Word → Nat
  | 0, _ => 0
  | n + 1, i =>
    if !i.ult d.tail then 0
    else if s.slotBad ctx d i then 1
    else if s.seqMatches ctx d i then 1 + s.deliverable ctx d n (i + 1#64)
    else 0

/-- Units available under a key: room of a ring, or deliverable records of a mapped queue (R286-R288). -/
def State.queueUnits (s : State) (key : QKey) : Nat :=
  match key with
  | .push ctx q => match s.qdesc ctx q with
    | some d => d.slots - (d.resv - d.head).toNat
    | none => 0
  | .pop ctx q => match s.qdesc ctx q with
    | some d => if d.mapped then s.deliverable ctx d (min d.slots (s.qwaits.length + 1)) d.head else 0
    | none => 0
  | _ => 0

/-- Units held for waiters other than one thread (R286). -/
def State.heldFor (s : State) (key : QKey) (tid : Nat) : Nat :=
  (s.qwaits.filter fun w => w.key == key && w.hold.isSome && w.tid != tid).length
/-- Whether a thread's own registration holds a unit. -/
def State.holdsUnit (s : State) (key : QKey) (tid : Nat) : Bool :=
  s.qwaits.any fun w => w.key == key && w.tid == tid && w.hold.isSome
/-- Whether a request may take a unit now (R286). -/
def State.mayTake (s : State) (key : QKey) (tid units : Nat) : Bool :=
  decide (s.heldFor key tid < units)
/-- A request that is served gives up its registration (log 80). -/
def State.unregister (s : State) (key : QKey) (tid : Nat) : State :=
  { s with qwaits := s.qwaits.filter fun w => !(w.key == key && w.tid == tid) }

/-- Whether a waiter may be held a unit while `free` are held for no one (R286): it has no hold, and more units have become
available since one lapsed. -/
def QWait.eligible (w : QWait) (key : QKey) (free : Nat) : Bool :=
  w.key == key && w.hold.isNone && match w.passed with
    | some n => decide (n < free)
    | none => true
/-- Wake one waiter with a hold: the oldest that may have one (R286). -/
def State.holdNext (s : State) (key : QKey) (free : Nat) : State :=
  match s.qwaits.find? fun w => w.eligible key free with
  | none => s
  | some w =>
    let s := { s with qwaits := s.qwaits.map fun x => if x = w then { w with hold := some s.now, passed := none } else x }
    match s.thread? w.tid with
    | some t => s.wakeThread t
    | none => s
/-- A waiter whose hold has lapsed counts no more units as passed than are free. -/
def QWait.settled (w : QWait) (key : QKey) (free : Nat) : QWait :=
  if w.key = key then { w with passed := w.passed.map fun n => min n free } else w
/-- Hold the units that became available for the oldest waiters (R286). -/
def State.grantUnits (s : State) (key : QKey) (units : Nat) : Nat → State
  | 0 => s
  | n + 1 =>
    let free := units - s.heldFor key 0
    if 0 < free ∧ (s.qwaits.any fun w => w.eligible key free) then (s.holdNext key free).grantUnits key units n else s
/-- The same for every waiter of a key (log 80). -/
def State.grantKey (s : State) (key : QKey) (units : Nat) : State :=
  let s := s.grantUnits key units s.qwaits.length
  let free := units - s.heldFor key 0
  { s with qwaits := s.qwaits.map fun w => w.settled key free }

/-- The QUEUE wait of a queue instruction (R285). -/
def queueWake (pop : Bool) (q : Word) : Wake :=
  wake .queue (pop.toNat * 2 ^ 30 + q.toNat / 64 % 2 ^ 30) q
/-- Register a waiter and park it (R285, R286): a wait that has begun goes on, else it begins now (R143) (log 81). -/
def State.parkQueue (s : State) (t : Thread) (key : QKey) (ext : Bool) (w : Wake) : State :=
  let mine (x : QWait) : Bool := x.key == key && x.tid == t.tid
  let s : State := if s.qwaits.any mine then
      { s with qwaits := s.qwaits.map fun (x : QWait) => if mine x then { x with hold := none, passed := none } else x }
    else { s with qwaits := s.qwaits ++ [⟨key, t.tid, none, none, ext⟩] }
  let rec' : WaitRec := match t.wait with
    | some r => if r.since = t.lastIssue then ⟨t.pc, s.now, t.csr.wlimit.toNat, false⟩ else r
    | none => ⟨t.pc, s.now, t.csr.wlimit.toNat, false⟩
  s.repark { t with wait := some rec' } w

/-! ### Tail writes (R278, R281, R282) -/

/-- The teller reads again the slot it waits on (R279). -/
def State.pollQueue (s : State) (ctx q : Nat) : State := s.grantKey (.pop ctx q) (s.queueUnits (.pop ctx q))

/-- A tail write at its descriptor's home (R278), by the descriptor's physical address. -/
def State.tailWriteAt (s : State) (ctx q pa : Nat) (v : Word) : State :=
  let d := s.qdescAt pa
  if s.qmalformed ctx d then s.qbad ctx q pa d 0#64
  else
    let dlt := (v - d.tail).toNat
    let s := if 1 ≤ dlt ∧ dlt ≤ d.slots then s.qsetAt pa 1 v
      else if dlt = 0 ∨ 2 ^ 63 ≤ dlt then
        let n := min (entryField d.wake 32 16 + 1) 0xFFFF
        s.qsetAt pa 6 ((d.wake &&& ~~~(0xFFFF#64 <<< 32)) ||| (BitVec.ofNat 64 n <<< 32))
      else s.qbad ctx q pa d 0#64
    let d := s.qdescAt pa
    if d.mapped then s.pollQueue ctx q
    else
      let s := s.qwake pa d 1#64
      if d.kind = 1 then s.askMap ctx q else s
/-- A tail write of the host or another package, which is translated where it arrives (R278). -/
def State.tailWrite (s : State) (ctx q : Nat) (v : Word) : State :=
  match s.jobPhys ctx q with
  | some pa => s.tailWriteAt ctx q pa v
  | none => s

/-- Whether an earlier tail write goes from the same core to the same cluster as another, which it precedes then (R427). -/
def TailOp.sameWay (a : TailOp) (s : State) (b : TailOp) : Bool :=
  match a.pa, b.pa with
  | some p, some q => homeOf p == homeOf q && (s.thread? a.tid).map (·.coreId) == (s.thread? b.tid).map (·.coreId)
  | _, _ => false

/-- TAIL_WRITE (R278, R289): a posted tail write is performed after the stores it follows. -/
def execTailWrite (index : Nat) (s : State) : Host.Outcome State Fault Refusal :=
  match s.tails[index]? with
  | none => .refused .notEnabled
  | some o =>
    let s' : State := { s with tails := s.tails.eraseIdx index }
    let pa := o.pa.getD ((s.jobPhys o.ctx o.q).getD o.q)
    if !s.performed o.after || !s.awake pa || (s.tails.take index).any (·.sameWay s o) then .refused .notEnabled
    else .next (match o.pa with
      | some pa => s'.tailWriteAt o.ctx o.q pa o.v
      | none => s'.tailWrite o.ctx o.q o.v)

/-- QUEUE_SLOT_POLL (R279): a mapping teller reads again the slot it waits on. -/
def execQueueSlotPoll (ctx queue : Nat) (s : State) : Host.Outcome State Fault Refusal :=
  if s.clusters.any fun c => c.slots.any fun m => m.ctx == ctx && m.q == queue then .next (s.pollQueue ctx queue)
  else .refused .notEnabled

/-! ### Mapping (R281-R283) -/

/-- Record a delivery in the mapping slot (R281). -/
def State.touchSlot (s : State) (ctx q : Nat) : State :=
  { s with clusters := s.clusters.map fun c => { c with slots := c.slots.map fun m =>
      if m.ctx = ctx ∧ m.q = q then { m with last := s.now } else m } }

/-- Clusters a job owns. -/
def State.ownedBy (s : State) (ctx : Nat) : List Cluster := s.clusters.filter fun c => c.owner == some ctx
/-- Whether firmware may map a queue to a slot of a cluster (R281): the wanted cluster, or the nearest with a free slot. -/
def State.mapsTo (s : State) (ctx : Nat) (d : QDesc) (cl slot : Nat) : Bool :=
  let c := s.cluster cl
  let room (c : Cluster) : Bool := decide (c.slots.length < Config.queueSlots)
  c.owner == some ctx && room c && decide (slot < Config.queueSlots) && c.slots.all (fun m => m.slot != slot)
    && (s.ownedBy ctx).all fun k => !room k || decide (hops cl d.wanted ≤ hops k.id d.wanted)

/-- QUEUE_MAP (R281, R282): firmware maps a queue that was asked for, or the first of its list. -/
def execQueueMap (ctx queue cl slot : Nat) (s : State) : Host.Outcome State Fault Refusal :=
  match s.job? ctx, s.jobPhys ctx queue with
  | some j, some pa =>
    let d := s.qdescAt pa
    if !(j.mapAsked.contains queue || j.remap.head? == some queue) || d.mapped then .refused .notEnabled
    else
      let s := s.modJob ctx fun j =>
        { j with mapAsked := j.mapAsked.filter (· != queue), remap := j.remap.filter (· != queue) }
      if s.qmalformed ctx d then .next (s.qbad ctx queue pa d 0#64)
      else if !s.mapsTo ctx d cl slot then .refused .notEnabled
      else
        let m := BitVec.ofNat 64 (2 ^ 63 + cl * 2 ^ 8 + slot)
        let s := ((s.qset ctx queue 5 m).qset ctx queue 6 (d.wake &&& ~~~1#64)).modCluster cl fun c =>
          { c with slots := c.slots ++ [⟨slot, ctx, queue, s.now⟩] }
        .next (if d.wake.getLsbD 0 || d.head != d.tail then s.pollQueue ctx queue else s)
  | _, _ => .refused .notEnabled

/-- Unmap a queue (R282): its holds are dropped, its waiting pops issue again (log 80). -/
def State.unmapQueue (s : State) (ctx q : Nat) : State :=
  let key := QKey.pop ctx q
  let waiters := s.qwaits.filter fun (w : QWait) => w.key == key
  let s : State := { s with
    qwaits := s.qwaits.filter (fun (w : QWait) => w.key != key),
    clusters := s.clusters.map fun c => { c with slots := c.slots.filter fun m => !(m.ctx == ctx && m.q == q) } }
  let s := match s.qdesc ctx q with
    | some d =>
      let s := s.qset ctx q 5 (d.map &&& ~~~(1#64 <<< 63))
      if (d.wake.getLsbD 0 || d.head != d.tail) && (d.kind == 1 || !waiters.isEmpty) then
        s.modJob ctx fun j => { j with remap := j.remap ++ [q] }
      else s
    | none => s
  waiters.foldl (fun s w => match s.thread? w.tid with
    | some t => s.wakeThread t
    | none => s) s

/-- Whether a queue that is to be mapped finds no slot in the clusters its job owns, and needs one of a cluster: the owned one
nearest to the one it asks for (R281). -/
def State.needsSlotOf (s : State) (ctx : Nat) (c : Cluster) (q : Nat) : Bool :=
  (s.qdesc ctx q).any fun d => !d.mapped && c.owner == some ctx
    && (s.ownedBy ctx).all fun k => decide (Config.queueSlots ≤ k.slots.length)
      && decide (hops c.id d.wanted ≤ hops k.id d.wanted)
/-- QUEUE_UNMAP (R281): firmware takes the slot with the oldest last delivery of a full cluster for a queue that needs one (log 80). -/
def execQueueUnmap (ctx queue : Nat) (s : State) : Host.Outcome State Fault Refusal :=
  match s.clusters.find? fun c => c.slots.any fun m => m.ctx == ctx && m.q == queue with
  | none => .refused .notEnabled
  | some c =>
    let needed := (s.job? ctx).any fun j => (j.mapAsked ++ j.remap).any (s.needsSlotOf ctx c)
    let oldest := c.slots.any fun m => m.ctx == ctx && m.q == queue && c.slots.all fun n => decide (m.last ≤ n.last)
    if needed && oldest && decide (Config.queueSlots ≤ c.slots.length) then .next (s.unmapQueue ctx queue)
    else .refused .notEnabled

/-- A hold lapses (R286): it passes to the next waiter that may have one; those whose holds have lapsed wait for units that
become available later. -/
def State.lapse (s : State) (w : QWait) : State :=
  let units := match w.key with
    | .push _ _ => s.queueUnits w.key
    | .pop _ _ => s.queueUnits w.key
    | _ => s.heldFor w.key 0
  let s := { s with qwaits := s.qwaits.map fun x => if x = w then { w with hold := none, passed := some units } else x }
  let s := s.holdNext w.key (units - s.heldFor w.key 0)
  let free := units - s.heldFor w.key 0
  { s with qwaits := s.qwaits.map fun x =>
      if x.key = w.key ∧ x.passed.isSome then { x with passed := some free } else x }

/-- HOLD_EXPIRE (R286): a woken waiter that has not issued again within 4,096 cycles loses its hold to the next. -/
def execHoldExpire (tid : Nat) (s : State) : Host.Outcome State Fault Refusal :=
  match s.qwaits.find? fun w => w.tid == tid && w.hold.isSome with
  | some w =>
    if (w.hold.getD 0) + 4096 ≤ s.now then
      .next (s.lapse w)
    else .refused .notEnabled
  | none => .refused .notEnabled

/-! ### The instructions (R285-R289) -/

/-- What the checks of a queue instruction come to (R285): they wait for a translation (R388), they end it, or it goes on. -/
inductive QChecked where
  | wait
  | stop (c : Cause) (v : Word)
  | page (need : Need) (va : Word) (w : WalkStop)
  | ok (p : Pending)
/-- Checks of a descriptor address (R285): no race metadata, no count of R149. `rest` goes on with its translation. -/
def descChecked (need : Need) (q : Word) (t : Thread) (s : State) (rest : Nat → QChecked) : QChecked :=
  match s.access t need q.toNat 64 with
  | .asleep => .wait
  | .access => .stop .access q
  | .ue => .stop .ue q
  | .page w => .page need q w
  | .ok pa _ => match (if need = .write then none else s.poisonVa q pa 64 fun _ => true) with
    | some x => .stop .ue x
    | none => rest pa
/-- Checks of a record address (R285). -/
def recordAddr (r : Word) (t : Thread) (s : State) : Option (Cause × Word) :=
  if r.toNat % 64 ≠ 0 then some (.misaligned, r)
  else if (s.near t).size < r.toNat + 64 then some (.access, r)
  else none

/-- A queue instruction after its operands (R285): a descriptor that misses the translation caches leaves the rotation for a walk
(R198) with the operation `p`, which `checked` completes; then `rest` goes on with it. -/
def queueOp (need : Need) (q : Word) (srcs : List Reg) (p : Pending) (checked : Thread → State → QChecked)
    (rest : Pending → Thread → State → Done) (t : Thread) (s : State) : Done :=
  if q.toNat % 64 ≠ 0 then .error (.trap .misaligned q)
  else if !s.translated t need q.toNat then waitFor 0#2 q srcs (.walk need q 64 s.nextId p) t s
  else match checked t s with
    | .wait => waitFor 0#2 q srcs (.walk need q 64 s.nextId p) t s
    | .stop c v => .error (.trap c v)
    | .page need va w => pageWait need va w t s
    | .ok p => rest p t s

/-- The checks of `qpush` (R287), in order: the descriptor, the record, the descriptor's fields, the ring. -/
def pushChecked (n : Bool) (pd : BitVec 2) (d : Reg) (q : Word) (num r : Nat) (after : List Nat) (t : Thread) (s : State) : QChecked :=
  descChecked .atomic q t s fun pa => match recordAddr (BitVec.ofNat 64 r) t s with
    | some (c, v) => .stop c v
    | none =>
      let k := s.qdescAt pa
      if s.qmalformed t.ctx k then .stop .access q
      else match s.access t .write k.base.toNat (64 * k.slots) with
        | .asleep => .wait
        | .access => .stop .access k.base
        | .ue => .stop .ue k.base
        | .page w => .page .write k.base w
        | .ok ring _ => .ok (.qpush n pd d q pa num r k.ext (k.base.toNat, ring) after)
/-- `qpush` (R287). -/
def execQpush (o : OpQ) (s : State) : Host.Outcome State Fault Refusal :=
  issue (.qpush o) (fun t s => match ready t s 0#2 [o.a, o.b] [o.d] with
    | some stop => .error stop
    | none =>
      let q := srcVal t s 0#2 o.a
      let r := (srcVal t s 0#2 o.b).toNat
      let after := s.earlier t.tid
      queueOp .atomic q [o.a, o.b] (.qpush o.i o.pd o.d q 0 0 r false (0, 0) after)
        (pushChecked o.i o.pd o.d q s.nextId r after)
        (fun p => atSync true 0#2 q [o.a, o.b] p (waitFor 0#2 q [o.a, o.b] p)) t s) s

/-- The answer to a form that fails (R287, R288). -/
def failed (pd : BitVec 2) (d : Reg) : Delivery := { Delivery.scalar d (BitVec.allOnes 64) with pd := pd, pv := false }

/-- A reply, a wait for more, or a park with a registration. -/
inductive QueueReply where
  | wait
  | done (s : State) (r : Delivery)
  | goOn (s : State) (p : Pending)
  | park (s : State)

/-- The reservation of a `qpush` at its descriptor's home (R287): the record is read where a slot is reserved. `ring` is BASE with
the translation that was checked (log 78). -/
def replyQpush (t : Thread) (s : State) (n : Bool) (pd : BitVec 2) (d : Reg) (q : Word) (pa num r : Nat) (ext : Bool)
    (ring : Nat × Nat) (after : List Nat) : QueueReply :=
  if !s.performed after || !s.bufferRoom pa then .wait
  else
    let k := s.qdescAt pa
    let key := QKey.push t.ctx q.toNat
    if s.mayTake key t.tid (k.slots - (k.resv - k.head).toNat) then
      match (s.near t).badAt (r + 8) 56 with
      | some b => .done (s.unregister key t.tid) (.trapped .ue (BitVec.ofNat 64 b))
      | none =>
        let off := 64 * (k.resv.toNat % k.slots)
        let data := Memory.read (s.near t).spad (r + 8) 56
        let s := (s.qsetAt pa 0 (k.resv + 1#64)).unregister key t.tid
        .goOn (s.bill t.tid t.ctx (spadCost 56)) (.qput pd d q pa num k.resv.toNat data (ring.1 + off, ring.2 + off))
    else if n then .done s (failed pd d)
    else .park (s.parkQueue t key ext (queueWake false q))

/-- The write of a reserved slot and its tail write (R287) (log 78). -/
def replyQput (t : Thread) (s : State) (pd : BitVec 2) (d : Reg) (q : Word) (pa idx data : Nat) (slot : Nat × Nat) : QueueReply :=
  if !s.bufferRoom slot.2 then .wait
  else
    let i := BitVec.ofNat 64 idx
    let s := (s.poke slot.2 64 (idx + 2 ^ 64 * data)).homeCharge t.tid t.ctx t.unit slot.2 64
    .done (s.tailWriteAt t.ctx q.toNat pa (i + 1#64)) { Delivery.scalar d i with pd := pd, pv := true }

/-- The checks of `qpop` (R288). -/
def popChecked (n : Bool) (pd : BitVec 2) (d : Reg) (q : Word) (num r : Nat) (t : Thread) (s : State) : QChecked :=
  descChecked .atomic q t s fun pa => match recordAddr (BitVec.ofNat 64 r) t s with
    | some (c, v) => .stop c v
    | none =>
      let k := s.qdescAt pa
      if s.qmalformed t.ctx k || k.kind != 0 then .stop .access q else .ok (.qpop n pd d q pa num r k.ext)
/-- `qpop` (R288). -/
def execQpop (o : OpQ) (s : State) : Host.Outcome State Fault Refusal :=
  issue (.qpop o) (fun t s => match ready t s 0#2 [o.a, o.b] [o.d] with
    | some stop => .error stop
    | none =>
      let q := srcVal t s 0#2 o.a
      let r := (srcVal t s 0#2 o.b).toNat
      queueOp .atomic q [o.a, o.b] (.qpop o.i o.pd o.d q 0 0 r false) (popChecked o.i o.pd o.d q s.nextId r)
        (fun p => atSync false 0#2 q [o.a, o.b] p (waitFor 0#2 q [o.a, o.b] p)) t s) s

/-- A pop request at its queue's home and teller (R283, R288) (log 78). -/
def replyQpop (t : Thread) (s : State) (n : Bool) (pd : BitVec 2) (d : Reg) (q : Word) (pa r : Nat) (ext : Bool) : QueueReply :=
  let k := s.qdescAt pa
  let key := QKey.pop t.ctx q.toNat
  if !s.bufferRoom pa then .wait
  else if !k.mapped then
    let s := (s.qwake pa k 1#64).askMap t.ctx q.toNat
    if n then .done s (failed pd d) else .park (s.parkQueue t key ext (queueWake true q))
  else if s.mayTake key t.tid (s.queueUnits key) then
    match s.jobPhys t.ctx (k.slotVa k.head) with
    | none => .wait
    | some slot =>
      if !s.awake slot then .wait
      else if (s.poisonAt slot 64).isSome then
        .done (s.unregister key t.tid) (.trapped .ue (BitVec.ofNat 64 (k.slotVa k.head)))
      else
        let bytes := s.peek slot 64
        let s := s.modCore t.coreId fun c => c.withStore (c.localStore.write r 64 bytes)
        let s := (((s.qsetAt pa 2 (k.head + 1#64)).unregister key t.tid).touchSlot t.ctx q.toNat).dropCopies t
        let s := (s.homeCharge t.tid t.ctx t.unit slot 64).bill t.tid t.ctx (spadCost 64)
        .done (s.pollQueue t.ctx q.toNat) { Delivery.scalar d k.head with pd := pd, pv := true }
  else if n then .done s (failed pd d)
  else .park (s.parkQueue t key ext (queueWake true q))

/-- Post a tail write (R289). -/
def State.postTail (s : State) (t : Thread) (q : Nat) (v : Word) (pa num : Nat) : State :=
  { s with tails := s.tails ++ [⟨t.ctx, q, v, some pa, num, t.tid, []⟩], nextId := max s.nextId (num + 1) }
/-- The checks of `qtail` (R289). -/
def tailChecked (q v : Word) (num : Nat) (after : List Nat) (t : Thread) (s : State) : QChecked :=
  descChecked .write q t s fun pa => .ok (.qtail q v pa num after)
/-- `qtail` (R289). -/
def execQtail (o : OpQ) (s : State) : Host.Outcome State Fault Refusal :=
  issue (.qtail o) (fun t s => match ready t s 0#2 [o.a, o.b] [] with
    | some stop => .error stop
    | none =>
      let q := srcVal t s 0#2 o.a
      let v := srcVal t s 0#2 o.b
      let after := s.earlier t.tid
      queueOp .write q [o.a, o.b] (.qtail q v 0 0 after) (tailChecked q v s.nextId after)
        (fun p => atSync true 0#2 q [o.a, o.b] p fun t s => match after, p with
          | [], .qtail _ _ pa num _ => .ok (t.advance, (consume t s [o.a, o.b]).postTail t q.toNat v pa num)
          | _, _ => waitFor 0#2 q [o.a, o.b] p t s) t s) s
/-- A tail write whose release is done is posted (R289). -/
def replyQtail (t : Thread) (s : State) (q v : Word) (pa num : Nat) (after : List Nat) : Option (State × Delivery) :=
  if s.performed after then some (s.postTail t q.toNat v pa num, Delivery.none') else none

/-! ### Spawn queues (R280, R457) -/

/-- The task record in a spawn-queue record's 64 bytes (R280). -/
def spawnImage (x : Nat) : Nat := slice x 8 40 + 2 ^ 384 * slice x 48 16
/-- The first failing field of a spawn-queue record: its offset in the queue record (R280, R457). -/
def State.badSpawn (s : State) (ctx from' x : Nat) : Option Nat :=
  let im := spawnImage x
  let n := recordSubs im
  let clean := im - n * 2 ^ 71
  let place (off : Nat) : Nat := if off < 40 then off + 8 else off
  match s.badRecord ctx from' clean with
  | some b => if n ≠ 0 ∧ ¬ (b.off = 0 ∨ b.off = 8 ∨ b.off = 12) then some 16 else some (place b.off)
  | none => if n ≠ 0 then some 16 else none

/-- Make a record from its image a task or a held record of a walk that starts at a cluster (R280): none where it has no
place yet. Its task has no note; a failed input discards it (R255) (log 79). -/
def State.placeRecord (s : State) (ctx : Nat) (va : Word) (r : TaskRec) (from' : Nat) : Option State :=
  let hint := r.hintCore (clusterCore from' 0)
  let deps := r.deps.map fun w => (w, s.inputState ctx w)
  if (inputFailure deps).isSome then some s
  else
    let waits := (deps.filter fun e => e.2 == .waits).map (·.1)
    let ready := deps.all fun e => e.2 == .resolved
    let (id, s) := s.takeTid
    let held := heldRecord id ctx va r none hint 0 s.now waits ready
    match (if ready then s.walkPlace ctx r hint from' else none) with
    | some (c, p) => some (s.start (s.taskThread held c p))
    | none => if s.storeAccepts (coreCluster hint) then some (s.storeRecord held) else none

/-- SPAWN_QUEUE_CONSUME (R280): the mapping teller turns record HEAD of a spawn queue into a task (log 79). -/
def execSpawnQueueConsume (ctx queue : Nat) (s : State) : Host.Outcome State Fault Refusal :=
  match (s.clusters.find? fun c => c.slots.any fun m => m.ctx == ctx && m.q == queue), s.qdesc ctx queue with
  | some c, some d =>
    if d.kind != 1 || !d.mapped || s.deliverable ctx d 1 d.head == 0 then .refused .notEnabled
    else match s.jobPhys ctx (d.slotVa d.head) with
      | none => .refused .notEnabled
      | some pa =>
        if (s.poisonAt pa 64).isSome || !s.awake pa then .refused .notEnabled
        else
          let x := s.peek pa 64
          let next (s : State) : State := (s.qset ctx queue 2 (d.head + 1#64)).touchSlot ctx queue
          match s.badSpawn ctx (clusterCore c.id 0) x with
          | some off => .next ((next s).qbad ctx queue ((s.jobPhys ctx queue).getD 0) d (BitVec.ofNat 64 (d.head.toNat * 256 + off)))
          | none =>
            match s.placeRecord ctx (BitVec.ofNat 64 (d.slotVa d.head)) (taskRecord (spawnImage x)) c.id with
            | some s => .next (next s)
            | none => .refused .notEnabled
  | _, _ => .refused .notEnabled

end Sys2Proof.Machine
end

