-- ==== Sys2Proof/Machine/Channels.lean ====
section
/-! DEFINITION. Channels between the stages of a pipeline (R291-R296, R302). -/

namespace Sys2Proof.Machine

/-! ### Pipelines and their channels -/

def State.pipe? (s : State) (id : Nat) : Option Pipeline := s.pipelines.find? fun p => p.id == id
def State.modPipe (s : State) (id : Nat) (f : Pipeline → Pipeline) : State :=
  { s with pipelines := s.pipelines.map fun p => if p.id = id then f p else p }
def Pipeline.chan? (p : Pipeline) (n : Nat) : Option Chan := p.chans.find? fun c => c.n == n
def Pipeline.modChan (p : Pipeline) (n : Nat) (f : Chan → Chan) : Pipeline :=
  { p with chans := p.chans.map fun c => if c.n = n then f c else c }
/-- A channel by its pipeline's number and its own. -/
def State.chan? (s : State) (id n : Nat) : Option Chan := (s.pipe? id).bind fun p => p.chan? n
def State.modChan (s : State) (id n : Nat) (f : Chan → Chan) : State := s.modPipe id fun p => p.modChan n f

def Chan.fromLoader (c : Chan) : Bool := c.prod == 0xFF
def Chan.toStorer (c : Chan) : Bool := c.cons == 0xFF
/-- Records in the buffer (R296): those of a channel whose consumer is gone are discarded (R299). -/
def Chan.count (c : Chan) : Nat := if c.gone then 0 else c.sent - c.recvd
/-- The buffer address of a record's slot (R293). -/
def Chan.slotAt (c : Chan) (i : Nat) : Nat := c.buf + 64 * (i % c.allow)

/-- Units available to senders and to receivers (R286). -/
def Chan.room (c : Chan) : Nat := if c.gone then 0 else c.allow - (c.sent - c.recvd)

/-- What a task does with a channel (R292). -/
inductive ChanUse where
  | send | recv | close | query
  deriving DecidableEq, Repr

/-- The checks of R292: the channel, or ACCESS with the channel value. -/
def chanFor (use : ChanUse) (t : Thread) (s : State) (v : Word) : Except Stop (Nat × Chan) :=
  let bad : Except Stop (Nat × Chan) := .error (.trap .access v)
  match t.pipeline.bind s.pipe? with
  | none => bad
  | some p =>
    if 63 < v.toNat ∨ p.nchan ≤ v.toNat then bad
    else match p.chan? v.toNat with
      | none => bad
      | some c =>
        let sends := c.prod == t.csr.stage.toNat
        let ok := match use with
          | .send => sends && !t.closed.contains c.n
          | .close => sends && !t.closed.contains c.n
          | .recv => c.cons == t.csr.stage.toNat
          | .query => true
        if ok then .ok (p.id, c) else bad

/-! ### Storer records (R301) -/

/-- The fields of a storer record. -/
structure StoreRec where
  va : Word
  tdesc : Word
  barctl : Word
  deriving DecidableEq, Repr
def storeRec (x : Nat) : StoreRec :=
  let w (i : Nat) : Word := BitVec.ofNat 64 (slice x (8 * i) 8)
  ⟨w 0, w 1, w 2⟩
def StoreRec.barv (r : StoreRec) : Bool := r.barctl.getLsbD 39
def StoreRec.barrier (r : StoreRec) : Option (Nat × Nat) :=
  if r.barv then some (coreAt (entryField r.barctl 56 8) (entryField r.barctl 48 8), entryField r.barctl 40 8) else none

/-- The checks of a storer record at its `chsend` (R301): those of R243 on the tile and row 3 of R172 on the barrier (log 83). -/
def State.storeRecOk (s : State) (t : Thread) (r : StoreRec) : Bool :=
  let d := tileDesc r.tdesc
  decide (r.va.toNat < 2 ^ 52) && tileConds.all (fun c => !c d) && s.holds t.ctx t.cluster
    && entryField r.barctl 0 39 == 0
    && (!r.barv || (decide (entryField r.barctl 56 8 < 64) && decide (entryField r.barctl 48 8 < 32)
      && s.owns t.ctx (coreAt (entryField r.barctl 56 8) (entryField r.barctl 48 8))))

/-! ### The instructions -/

/-- The QUEUE wait of a channel instruction (R285). -/
def chanWake (recv : Bool) (ch : Nat) : Wake := wake .queue ((2 + recv.toNat) * 2 ^ 30 + ch) 0#64

/-- `chsend` (R293); its wait names no address (log 46). -/
def execChsend (o : OpQ) (s : State) : Host.Outcome State Fault Refusal :=
  issue (.chsend o) (fun t s => match ready t s 0#2 [o.a, o.b] [] with
    | some stop => .error stop
    | none =>
      let v := srcVal t s 0#2 o.a
      let r := srcVal t s 0#2 o.b
      match chanFor .send t s v with
      | .error stop => .error stop
      | .ok (_, c) => match recordAddr r t s with
        | some (k, x) => .error (.trap k x)
        | none =>
          let l := s.near t
          match (if c.toStorer then l.badAt r.toNat 64 else none) with
          | some b => .error (.trap .ue (BitVec.ofNat 64 b))
          | none =>
            if c.toStorer && !s.storeRecOk t (storeRec (Memory.read l.spad r.toNat 64)) then .error (.trap .access r)
            else
              let p : Pending := .chsend o.i o.pd c.n r.toNat (s.earlier t.tid)
              atSync true 0#2 0#64 [o.a, o.b] p (fun t s => waitFor 0#2 0#64 [o.a, o.b] p t s) t s) s

/-- A delivery of a predicate alone. -/
def Delivery.pred (pd : BitVec 2) (b : Bool) : Delivery := { Delivery.none' with pd := pd, pv := b }

/-- A `chsend` at its buffer's teller (R293). -/
def replyChsend (t : Thread) (s : State) (n : Bool) (pd : BitVec 2) (ch r : Nat) (after : List Nat) : QueueReply :=
  if !s.performed after then .wait
  else match t.pipeline.bind fun p => (s.chan? p ch).map fun c => (p, c) with
    | none => .wait
    | some (p, c) =>
      let key := QKey.send p ch
      if c.gone then .done (s.unregister key t.tid) (.pred pd false)
      else if s.mayTake key t.tid c.room then
        match (s.near t).badAt r 64 with
        | some b => .done (s.unregister key t.tid) (.trapped .ue (BitVec.ofNat 64 b))
        | none =>
          let x := Memory.read (s.near t).spad r 64
          let s := (s.modCluster c.cluster fun k => k.tileWrite 0 (c.slotAt c.sent) 64 x).unregister key t.tid
          let s := s.bill t.tid t.ctx (spadCost 64 + tileCost 64)
          .done (s.modChan p ch fun c => { c with sent := c.sent + 1, senders := c.senders ++ [(c.sent, (t.tid, t.coreId))] })
            (.pred pd true)
      else if n then .done s (.pred pd false)
      else .park (s.parkQueue t key false (chanWake false ch))

/-- `chrecv` (R294) (log 46). -/
def execChrecv (o : OpQ) (s : State) : Host.Outcome State Fault Refusal :=
  issue (.chrecv o) (fun t s => match ready t s 0#2 [o.a, o.b] [o.d] with
    | some stop => .error stop
    | none =>
      let v := srcVal t s 0#2 o.a
      let r := srcVal t s 0#2 o.b
      match chanFor .recv t s v with
      | .error stop => .error stop
      | .ok (_, c) => match recordAddr r t s with
        | some (k, x) => .error (.trap k x)
        | none =>
          let p : Pending := .chrecv o.i o.pd o.d c.n r.toNat
          atSync false 0#2 0#64 [o.a, o.b] p (fun t s => waitFor 0#2 0#64 [o.a, o.b] p t s) t s) s

/-- A `chrecv` at its buffer's teller (R294): on a loader channel it releases the tile slot of the receiver's last record (R300). -/
def replyChrecv (t : Thread) (s : State) (n : Bool) (pd : BitVec 2) (d : Reg) (ch r : Nat) : QueueReply :=
  match t.pipeline.bind fun p => (s.chan? p ch).map fun c => (p, c) with
  | none => .wait
  | some (p, c) =>
    let key := QKey.recv p ch
    let s := s.modChan p ch fun c => { c with taken := c.taken.filter fun e => e.2 != t.tid }
    if s.mayTake key t.tid c.count then
      let k := s.cluster c.cluster
      let a := c.slotAt c.recvd
      match k.tileBad 0 a 64 with
      | some b => .done (s.unregister key t.tid) (.trapped .ue (BitVec.ofNat 64 b))
      | none =>
        let s := s.modCore t.coreId fun core => core.withStore (core.localStore.write r 64 (k.tileRead 0 a 64))
        let s := ((s.unregister key t.tid).dropCopies t).bill t.tid t.ctx (spadCost 64 + tileCost 64)
        .done (s.modChan p ch fun c => { c with
            recvd := c.recvd + 1, senders := c.senders.filter fun e => e.1 != c.recvd,
            taken := if c.fromLoader then c.taken ++ [(c.recvd, t.tid)] else c.taken })
          { Delivery.scalar d (BitVec.ofNat 64 c.recvd) with pd := pd, pv := true }
    else if c.opened = 0 then
      .done (s.unregister key t.tid) { Delivery.scalar d (BitVec.ofNat 64 c.sent) with pd := pd, pv := false }
    else if n then .done s (failed pd d)
    else .park (s.parkQueue t key false (chanWake true ch))

/-- Decrement OPEN once for a task (R295) (log 82). -/
def State.closeChan (s : State) (t : Thread) (ch : Nat) : State :=
  match t.pipeline with
  | some p =>
    (s.modChan p ch fun c => { c with opened := c.opened - 1 }).modThread t.tid fun u => { u with closed := u.closed ++ [ch] }
  | none => s

/-- `chclose` (R295) (log 46). -/
def execChclose (o : OpQ) (s : State) : Host.Outcome State Fault Refusal :=
  issue (.chclose o) (fun t s => match ready t s 0#2 [o.a] [] with
    | some stop => .error stop
    | none => match chanFor .close t s (srcVal t s 0#2 o.a) with
      | .error stop => .error stop
      | .ok (_, c) =>
        let after := s.earlier t.tid
        atSync true 0#2 0#64 [o.a] (.chclose c.n after) (fun t s =>
          if after.isEmpty then .ok ({ t.advance with closed := t.closed ++ [c.n] }, (consume t s [o.a]).closeChan t c.n)
          else waitFor 0#2 0#64 [o.a] (.chclose c.n after) t s) t s) s
/-- A closing whose release is done (R295). -/
def replyChclose (t : Thread) (s : State) (ch : Nat) (after : List Nat) : Option (State × Delivery) :=
  if s.performed after then some (s.closeChan t ch, Delivery.none') else none

/-- `chq` (R296). -/
def execChq (o : OpQ) (s : State) : Host.Outcome State Fault Refusal :=
  issue (.chq o) (fun t s => match ready t s 0#2 [o.a] [o.d] with
    | some stop => .error stop
    | none => match chanFor .query t s (srcVal t s 0#2 o.a) with
      | .error stop => .error stop
      | .ok (_, c) => waitFor 0#2 0#64 [o.a] (.chq o.d c.n) t s) s
/-- The word of R296 (log 82). -/
def Chan.word (c : Chan) : Word :=
  BitVec.ofNat 64 (c.gone.toNat * 2 ^ 61 + c.opened % 256 * 2 ^ 48 + c.count * 2 ^ 40 + c.allow * 2 ^ 32 + c.recvd % 2 ^ 32)
def replyChq (t : Thread) (s : State) (d : Reg) (ch : Nat) : Option (State × Delivery) :=
  (t.pipeline.bind fun p => s.chan? p ch).map fun c => (s, .scalar d c.word)

/-! ### Waking at channels (R286, R293, R294) -/

/-- Whether a thread is parked and its condition has not fired. -/
def Run.asleep : Run → Bool
  | .parked _ f => !f
  | .saving _ none f _ _ => !f
  | .restoring _ none f => !f
  | _ => false
/-- Wake every sleeper registered at a key. -/
def State.wakeKey (s : State) (key : QKey) : State :=
  (s.qwaits.filter fun w => w.key == key).foldl (fun s w => match s.thread? w.tid with
    | some t => if t.run.asleep then s.wakeThread t else s
    | none => s) s
/-- Wake what a channel's state lets go on: units for the oldest waiters; every sender once the consumer is gone; every
receiver once the channel is closed (R294). -/
def State.wakeChan (s : State) (p : Nat) (c : Chan) : State :=
  let s := if c.gone then s.wakeKey (.send p c.n) else s.grantKey (.send p c.n) c.room
  let s := s.grantKey (.recv p c.n) c.count
  if c.opened = 0 then s.wakeKey (.recv p c.n) else s
def State.wakeChans (s : State) : State :=
  s.pipelines.foldl (fun s p => p.chans.foldl (fun s c => s.wakeChan p.id c) s) s

end Sys2Proof.Machine
end

