-- ==== Sys2Proof/Machine/Pipelines.lean ====
section
/-! DEFINITION. Launching pipelines, releasing their stages (R297-R299), and the loader and storer streams (R300, R301). -/

namespace Sys2Proof.Machine

/-! ### The table (R297, R298) -/

/-- `n` bytes of a pipeline table, at most 8, from offset `off`. -/
def State.tableField (s : State) (ctx va off n : Nat) : Nat := s.jobRead ctx (va + off) n

/-- The cores of a rectangle in ascending Y, then X. -/
def rectCores (rect : Word) : List Nat :=
  (List.range 32).flatMap fun y => ((List.range 64).map fun x => coreAt x y).filter fun c => inRect rect c
/-- Whether a rectangle is a MODE 1 scope (R214), whatever core names it. -/
def rectOk (v : Word) : Bool :=
  scopeMode v == 1 && entryField v 32 30 == 0 && decide (entryField v 0 8 ≤ entryField v 16 8)
    && decide (entryField v 8 8 ≤ entryField v 24 8) && decide (entryField v 16 8 ≤ 63) && decide (entryField v 24 8 ≤ 31)

/-- A used stage of a table. -/
def State.readStage (s : State) (ctx va k : Nat) : Option Stage :=
  let f (off n : Nat) : Nat := s.tableField ctx va (16 + 32 * k + off) n
  if f 0 4 = 0xFFFFFFFF then none
  else some { s := k, entry := f 0 4, budget := f 4 4, rect := BitVec.ofNat 64 (f 8 8), phases := f 16 1, prio := f 17 1,
              arg := BitVec.ofNat 64 (f 24 8), live := [], released := false }
def State.readStages (s : State) (ctx va : Nat) : List Stage := (List.range 16).filterMap fun k => s.readStage ctx va k

/-- The (core, phase) pairs of a stage, by ascending Y, then X, then phase (R298). -/
def Stage.places (g : Stage) : List (Nat × Nat) :=
  (rectCores g.rect).flatMap fun c => (List.range g.phases).map fun p => (c, p)

/-- A channel of a table at launch (R298): OPEN is its number of senders. -/
def State.readChan (s : State) (ctx va : Nat) (stages : List Stage) (k : Nat) : Chan :=
  let f (off n : Nat) : Nat := s.tableField ctx va (528 + 64 * k + off) n
  let w (off : Nat) : Word := BitVec.ofNat 64 (f off 8)
  let prod := f 0 1
  { n := k, prod := prod, cons := f 1 1, allow := f 2 1, buf := f 4 4, cluster := 64 * f 8 1 + f 9 1, sent := 0, recvd := 0,
    opened := if prod = 0xFF then 1 else ((stages.find? fun g => g.s == prod).map fun g => g.places.length).getD 0,
    gone := false, taken := [], senders := [],
    loader := if prod = 0xFF then
        some { va := f 16 8, stride := f 24 8, tdesc := w 32, slotsz := f 40 4, count := f 44 4, nextTile := 0, pieces := [],
               cursor := 0, active := false, status := 0, failva := 0 }
      else none,
    storing := none }

/-- The first condition of a list that fails, as an offset (log 84). -/
def firstOffset (l : List (Bool × Nat)) : Option Nat := (l.find? fun e => e.1).map (·.2)

/-- The first offending field of a used or unused stage entry (R298). -/
def State.badStage (s : State) (ctx va : Nat) (stages : List Stage) (k : Nat) : Option Nat :=
  let o := 16 + 32 * k
  let rsv := s.tableField ctx va (o + 18) 6 != 0
  match stages.find? fun g => g.s == k with
  | none => firstOffset [(rsv, o + 18)]
  | some g =>
    let twice := stages.any fun h => decide (h.s < k) && h.places.any fun p => g.places.contains p
    firstOffset [(!rectOk g.rect || (rectCores g.rect).any (fun c => !s.owns ctx c) || twice, o + 8),
      (g.phases == 0 || decide (7 < g.phases), o + 16), (rsv, o + 18)]

/-- The first offending field of a channel entry (R298). -/
def State.badChan (s : State) (ctx va : Nat) (stages : List Stage) (k : Nat) : Option Nat :=
  let o := 528 + 64 * k
  let c := s.readChan ctx va stages k
  let used (n : Nat) : Bool := stages.any fun g => g.s == n
  let d := tileDesc ((c.loader.map (·.tdesc)).getD 0#64)
  let size := (c.loader.map (·.slotsz)).getD 0
  let consumers := ((stages.find? fun g => g.s == c.cons).map fun g => g.places.length).getD 0
  firstOffset [
    ((!c.fromLoader && !used c.prod) || (c.fromLoader && c.toStorer)
      || (!c.fromLoader && !c.toStorer && decide (c.cons ≤ c.prod)), o),
    (!c.toStorer && !used c.cons, o + 1),
    (c.allow == 0 || decide (64 < c.allow) || (c.fromLoader && decide (c.allow ≤ consumers)), o + 2),
    (s.tableField ctx va (o + 3) 1 != 0, o + 3),
    (decide (4194304 < c.buf + 64 * c.allow), o + 4),
    (decide (127 < c.cluster) || decide (63 < s.tableField ctx va (o + 9) 1) || !s.holds ctx c.cluster, o + 8),
    (s.tableField ctx va (o + 10) 6 != 0, o + 10),
    (c.loader.any fun l => decide (2 ^ 52 ≤ l.va), o + 16),
    (c.fromLoader && tileConds.any fun t => t d, o + 32),
    (c.fromLoader && decide (4194304 < d.dest + c.allow * size), o + 40),
    (s.tableField ctx va (o + 48) 8 != 0 || s.tableField ctx va (o + 56) 8 != 0, o + 48)]

/-- The byte offset of the first field for which firmware refuses a table (R298) (log 84). -/
def State.badTable (s : State) (ctx va : Nat) : Option Nat :=
  let stages := s.readStages ctx va
  let nchan := s.tableField ctx va 8 1
  match firstOffset [(decide (64 < nchan), 8), (s.tableField ctx va 9 7 != 0, 9)] with
  | some o => some o
  | none => match (List.range 16).findSome? fun k => s.badStage ctx va stages k with
    | some o => some o
    | none => (List.range nchan).findSome? fun k => s.badChan ctx va stages k

/-- Launch a pipeline from a table, or report why it is refused (R298): its phases are reserved from now on. -/
def State.launchPipeline (s : State) (ctx va : Nat) : State :=
  match s.badTable ctx va with
  | some off => s.report ctx 7 0 (BitVec.ofNat 64 va) (BitVec.ofNat 64 off) []
  | none =>
    let stages := s.readStages ctx va
    let nchan := s.tableField ctx va 8 1
    let p : Pipeline :=
      { id := s.nextId, ctx := ctx, table := va, done := BitVec.ofNat 64 (s.tableField ctx va 0 8), nchan := nchan,
        placed := false, killed := 0, stages := stages, chans := (List.range nchan).map fun k => s.readChan ctx va stages k,
        closing := [] }
    { s with pipelines := s.pipelines ++ [p], nextId := s.nextId + 1 }

/-! ### Placement and release (R298, R299) -/

/-- Whether every named phase of a pipeline is free (R298); a free phase has its slot (R74). -/
def State.canPlace (s : State) (p : Pipeline) : Bool :=
  (p.stages.flatMap Stage.places).all fun e => s.phaseEmpty e.1 e.2

/-- The record a stage's task starts from (R298) (log 84). -/
def Stage.record (g : Stage) (rank n : Nat) : TaskRec :=
  { entry := g.entry, budget := g.budget, prio := g.prio, stage := g.s, radius := 0, pin := true, hintv := false, dep0 := false,
    dep1 := false, nin := 0, tx := 0, ty := 0, tz := 0, hintx := 0, hinty := 0, arg0 := rank, arg1 := n,
    arg2 := g.arg.toNat % 2 ^ 32, arg3 := g.arg.toNat / 2 ^ 32, in0 := 0#64, in1 := 0#64, subs := [] }

/-- Place one task of a stage. -/
def State.placeTask (s : State) (p : Pipeline) (g : Stage) (n rank : Nat) (at_ : Nat × Nat) : State :=
  let (id, s) := s.takeTid
  let h := heldRecord id p.ctx (BitVec.ofNat 64 (p.table + 16 + 32 * g.s)) (g.record rank n) none at_.1 0 s.now [] true
  let t := s.taskThread h at_.1 at_.2
  (s.start { t with pipeline := some p.id }).modPipe p.id fun q =>
    { q with stages := q.stages.map fun k => if k.s = g.s then { k with live := k.live ++ [id] } else k }
/-- Place the tasks of a stage in rank order. -/
def State.placeStage (s : State) (p : Pipeline) (g : Stage) : State :=
  let places := g.places
  (places.zipIdx).foldl (fun s e => s.placeTask p g places.length e.2 e.1) s

/-- PIPELINE_PLACE (R298): every named phase is free, and all the tasks are placed. -/
def execPipelinePlace (pipe : Nat) (s : State) : Host.Outcome State Fault Refusal :=
  match s.pipe? pipe with
  | some p =>
    if p.placed || s.quiesce.isSome || !s.canPlace p then .refused .notEnabled
    else .next (p.stages.foldl (fun s g => s.placeStage p g) (s.modPipe pipe fun q => { q with placed := true }))
  | none => .refused .notEnabled

/-- Whether a pipeline has nothing left to do: every stage is released and every storer record is written (R299). -/
def Pipeline.allDone (p : Pipeline) : Bool :=
  p.placed && p.stages.all (·.released) && p.chans.all fun c => !c.toStorer || (c.count == 0 && c.storing.isNone)
/-- Take away the pipelines that are over. -/
def State.reapPipelines (s : State) : State := { s with pipelines := s.pipelines.filter fun p => !p.allDone }

/-- STAGE_RELEASE (R299): from the sink back to the source; the lowest stage ends the pipeline and resolves DONE. -/
def execStageRelease (pipe stage : Nat) (s : State) : Host.Outcome State Fault Refusal :=
  match s.pipe? pipe with
  | none => .refused .notEnabled
  | some p => match p.stages.find? fun g => g.s == stage with
    | none => .refused .notEnabled
    | some g =>
      if !p.placed || g.released || !g.live.isEmpty || p.stages.any (fun h => decide (stage < h.s) && !h.released) then
        .refused .notEnabled
      else
        let s := s.modPipe pipe fun p => { p with
          stages := p.stages.map fun h => if h.s = stage then { h with released := true } else h,
          chans := p.chans.map fun c => if c.cons = stage then { c with gone := true, taken := [], senders := [] } else c }
        let s := s.wakeChans
        let last := p.stages.all fun h => decide (stage ≤ h.s)
        let s := if last && p.done != 0#64 then
            s.sendNote ⟨.resolve, p.done, BitVec.ofNat 64 p.killed, 0#8, 0, p.ctx, 0, false, [], false, none⟩
          else s
        .next s.reapPipelines

/-! ### The loader (R300) -/

/-- Whether the slot of a tile is free. -/
def Chan.slotFreeFor (c : Chan) (n : Nat) : Bool :=
  decide (n < c.allow) || (decide (n - c.allow < c.recvd) && c.taken.all fun e => e.1 != n - c.allow)
def Loader.tileVa (l : Loader) (n : Nat) : Nat := l.va + n * l.stride
def Loader.slot (l : Loader) (c : Chan) : Nat := (tileDesc l.tdesc).dest + l.nextTile % c.allow * l.slotsz

/-- LOADER_TILE_START (R300): the loader begins its next tile once its slot is free (log 85). -/
def execLoaderTileStart (pipe chan : Nat) (s : State) : Host.Outcome State Fault Refusal :=
  match s.chan? pipe chan with
  | none => .refused .notEnabled
  | some c => match c.loader with
    | none => .refused .notEnabled
    | some l =>
      if l.active || c.gone || decide (l.count ≤ l.nextTile) || !c.slotFreeFor l.nextTile
          || !((s.pipe? pipe).any (·.placed)) then .refused .notEnabled
      else
        let va := l.tileVa l.nextTile
        .next (s.modChan pipe chan fun c => { c with loader := some { l with
          pieces := tilePieces va (tileDesc l.tdesc), cursor := va, active := true, status := 0, failva := 0 } })

/-- A loader's piece has failed: the record reports the first (R300) (log 85). -/
def Loader.fail (l : Loader) (cause va : Nat) : Loader :=
  if l.status = 0 then { l with status := cause, failva := va } else l

/-- The codes of the causes a stream can meet (R300, R301). -/
def streamCause (c : Cause) : Nat := if c = .ue then 0x05 else 0x03

/-- What a pass over the pieces of a tile gives: the state, the tile's job with the pieces kept, the energy, and whether anything
has come of it. -/
structure Pass (α : Type) where
  s : State
  job : α
  pj : Nat
  moved : Bool

/-- Go over the pieces left of a loader's tile: one that waits for a page or a stack is kept, and the others go on; the blocks of a
coded tile come in order, and one that fails leaves no address for the next, so it fails the rest (log 76) (log 85). -/
def State.loadPieces (ctx pipe : Nat) (c : Chan) : List Piece → Pass Loader → Pass Loader
  | [], a => a
  | p :: ps, a =>
    let l := a.job
    let d := tileDesc l.tdesc
    let keep (a : Pass Loader) : Pass Loader :=
      if d.codec then { a with job := { l with pieces := l.pieces ++ p :: ps } }
      else State.loadPieces ctx pipe c ps { a with job := { l with pieces := l.pieces ++ [p] } }
    match a.s.tilePieceAt ctx (.loader pipe c.n p.off) c.cluster (l.slot c) d.swz d.codec l.cursor p with
    | .wait => keep a
    | .page s => keep { a with s := s, moved := true }
    | .fail cause va =>
      let l := l.fail (streamCause cause) va
      if d.codec then { a with job := l, moved := true } else State.loadPieces ctx pipe c ps { a with job := l, moved := true }
    | .ok s cursor cost => State.loadPieces ctx pipe c ps ⟨s, { l with cursor := cursor }, a.pj + cost, true⟩

/-- The record of a loaded tile (R300). -/
def Loader.record (l : Loader) (c : Chan) : Nat :=
  l.nextTile + 2 ^ 64 * l.tileVa l.nextTile + 2 ^ 128 * l.slot c + 2 ^ 192 * l.status + 2 ^ 256 * l.failva

/-- LOADER_TILE_DONE (R300): the pieces of the tile are performed or have failed, and record n is sent; the channel closes
after the last (log 85). -/
def execLoaderTileDone (pipe chan : Nat) (s : State) : Host.Outcome State Fault Refusal :=
  match s.pipe? pipe, s.chan? pipe chan with
  | some p, some c => match c.loader with
    | none => .refused .notEnabled
    | some l =>
      if !l.active || c.gone then .refused .notEnabled
      else
        let a := State.loadPieces p.ctx pipe c l.pieces ⟨s, { l with pieces := [] }, 0, l.pieces.isEmpty⟩
        let l' := a.job
        let s := a.s.modJob p.ctx fun j => { j with energy := j.energy + a.pj }
        if !a.moved then .refused .notEnabled
        else if !l'.pieces.isEmpty then .next (s.modChan pipe chan fun c => { c with loader := some l' })
        else
          let s := s.modCluster c.cluster fun k => k.tileWrite 0 (c.slotAt c.sent) 64 (l'.record c)
          let n := l.nextTile + 1
          .next (s.modChan pipe chan fun c => { c with
            sent := c.sent + 1, opened := if n = l.count then c.opened - 1 else c.opened,
            loader := some { l' with active := false, nextTile := n } })
  | _, _ => .refused .notEnabled

/-! ### The storer (R301) -/

/-- STORER_RECORD (R301): the storer takes the next record of its channel. -/
def execStorerRecord (pipe chan : Nat) (s : State) : Host.Outcome State Fault Refusal :=
  match s.chan? pipe chan with
  | none => .refused .notEnabled
  | some c =>
    if !c.toStorer || c.storing.isSome || c.count == 0 then .refused .notEnabled
    else
      let r := storeRec ((s.cluster c.cluster).tileRead 0 (c.slotAt c.recvd) 64)
      let from' := ((c.senders.find? fun e => e.1 == c.recvd).map (·.2)).getD (0, 0)
      let job : StorerJob :=
        { sender := from'.1, senderCore := from'.2, va := r.va.toNat, tdesc := r.tdesc, bar := r.barrier,
          pieces := tilePieces r.va.toNat (tileDesc r.tdesc), cursor := r.va.toNat }
      .next (s.modChan pipe chan fun c => { c with storing := some job })

/-- What one piece of a storer's tile gives: the state, the next block's address, the bytes written and the energy. -/
inductive TileStored where
  | ok (s : State) (cursor n pj : Nat)
  | wait
  | page (s : State)
  | fail (c : Cause) (va : Nat)

/-- Write the pieces of a checked run. -/
def State.storeLines (s : State) (v base : Nat) (lines : List (Nat × Piece)) : State :=
  lines.foldl (fun s l => s.poke l.1 l.2.len (slice v (l.2.off - base) l.2.len)) s

/-- Write one piece of a tile, or encode one block of a coded one, from the sender's tile store (R175, R177, R301). -/
def State.storePiece (s : State) (ctx : Nat) (who : FaultWaiter) (j : StorerJob) (p : Piece) : TileStored :=
  let d := tileDesc j.tdesc
  let cl := coreCluster j.senderCore
  let k := s.cluster cl
  match k.tileBad d.swz (d.dest + p.off) p.len with
  | some _ => .fail .ue (if d.codec then j.cursor else p.va)
  | none =>
    let v := k.tileRead d.swz (d.dest + p.off) p.len
    let write (v base n : Nat) (ps : List Piece) : TileStored :=
      match s.checkRun ctx .write who ps with
      | .ok lines s =>
        if !s.roomFor (lines.map (·.1)) then .wait else
        let (s, pj) := s.linesCost (cl / 64) lines
        .ok (s.storeLines v base lines) (j.cursor + n) n (pj + tileCost p.len)
      | .wait => .wait
      | .page s => .page s
      | .fail c va => .fail c va
    if d.codec then
      let (block, n) := exb8Encode ((List.range 32).map fun i => slice v i 1)
      write block 0 n (piecesOf j.cursor n 0)
    else write v p.off p.len [p]

/-- Go over the pieces left of a storer's record (R301), as `loadPieces` does. A failing piece stops the rest, which is reported. -/
def State.storePieces (ctx pipe chan : Nat) : List Piece → Pass StorerJob → Pass StorerJob
  | [], a => a
  | p :: ps, a =>
    let j := a.job
    let keep (a : Pass StorerJob) : Pass StorerJob :=
      if (tileDesc j.tdesc).codec then { a with job := { j with pieces := j.pieces ++ p :: ps } }
      else State.storePieces ctx pipe chan ps { a with job := { j with pieces := j.pieces ++ [p] } }
    match a.s.storePiece ctx (.storer pipe chan p.off) j p with
    | .wait => keep a
    | .page s => keep { a with s := s, moved := true }
    | .fail c va =>
      { a with
        s := a.s.report ctx 8 (streamCause c) (BitVec.ofNat 64 va) (coordOf a.s.chip j.senderCore) [],
        job := { j with pieces := [] }, moved := true }
    | .ok s cursor n cost =>
      State.storePieces ctx pipe chan ps ⟨s.deliverTo j.bar n, { j with cursor := cursor }, a.pj + cost, true⟩

/-- The storer goes on to the next record, and the slot frees (R301). -/
def Chan.stored (c : Chan) : Chan :=
  { c with storing := none, recvd := c.recvd + 1, senders := c.senders.filter fun e => e.1 != c.recvd }

/-- STORER_RECORD_DONE (R301): every piece of the record is performed, or one has failed. -/
def execStorerRecordDone (pipe chan : Nat) (s : State) : Host.Outcome State Fault Refusal :=
  match s.pipe? pipe, s.chan? pipe chan with
  | some p, some c => match c.storing with
    | none => .refused .notEnabled
    | some j =>
      let a := State.storePieces p.ctx pipe chan j.pieces ⟨s, { j with pieces := [] }, 0, j.pieces.isEmpty⟩
      let s := a.s.bill j.sender p.ctx a.pj
      if !a.moved then .refused .notEnabled
      else if a.job.pieces.isEmpty then .next (s.modChan pipe chan Chan.stored).reapPipelines
      else .next (s.modChan pipe chan fun c => { c with storing := some a.job })
  | _, _ => .refused .notEnabled

/-- A fault's server denies or poisons the page that a piece of a loader or a storer waits on (R204, R300, R301) (log 86). -/
def State.streamFault (s : State) (who : FaultWaiter) (page cause : Nat) : State :=
  match who with
  | .loader pipe chan piece => match s.chan? pipe chan with
    | some c => match c.loader with
      | some l =>
        let codec := (tileDesc l.tdesc).codec
        match l.pieces.find? fun p => p.off == piece with
        | some p =>
          let va := if codec then (if l.cursor / 65536 = page then l.cursor else page * 65536) else p.va
          let l := { l.fail cause va with pieces := if codec then [] else l.pieces.filter (· != p) }
          s.modChan pipe chan fun c => { c with loader := some l }
        | none => s
      | none => s
    | none => s
  | .storer pipe chan piece => match s.pipe? pipe, s.chan? pipe chan with
    | some p, some c => match c.storing with
      | some j =>
        let va := if (tileDesc j.tdesc).codec then (if j.cursor / 65536 = page then j.cursor else page * 65536)
          else ((j.pieces.find? fun p => p.off == piece).map (·.va)).getD (page * 65536)
        (s.report p.ctx 8 cause (BitVec.ofNat 64 va) (coordOf s.chip j.senderCore) []).modChan pipe chan Chan.stored
      | none => s
    | _, _ => s
  | _ => s

end Sys2Proof.Machine
end

