-- ==== Sys2Proof/Machine/Rows.lean ====
section
/-! DEFINITION. Row operations (R378-R384), and what the base dies do with the stacks (R387-R391). -/

namespace Sys2Proof.Machine

/-! ### Stack events (R391, R425) -/

/-- Write a stack event record to function 0's ring (R391, R426). -/
def State.stackEvent (s : State) (type stack die count pa cap ctx : Nat) : State :=
  s.postEvent 0 2 ctx
    (type + 2 ^ 8 * stack + 2 ^ 16 * die + 2 ^ 32 * count + 2 ^ 64 * pa + 2 ^ 128 * s.now + 2 ^ 192 * cap)
/-- Report an uncorrectable line (R389-R391) (log 89). -/
def State.ueEvent (s : State) (pa ctx : Nat) : State :=
  let die := ((s.place pa).map fun p => p.bank / 128).getD 0xFF
  s.stackEvent 2 (stackOf pa) die 0 (pa / 128 * 128) 0 ctx

/-- Whether two ranges of `n` bytes meet. -/
def meets (a b n : Nat) : Bool := decide (a < b + n) && decide (b < a + n)

/-! ### Issue and waiting (R379, R383) -/

/-- The checks of R379, in order. -/
def mrowStop (copy : Bool) (len dst src : Word) : Option Stop :=
  let beyond (a : Word) : Bool := decide (2 ^ 52 < a.toNat + len.toNat)
  if len = 0#64 ∨ len.toNat % 1024 ≠ 0 ∨ 2 ^ 30 < len.toNat then some (.trap .access len)
  else if dst.toNat % 1024 ≠ 0 then some (.trap .misaligned dst)
  else if copy && src.toNat % 1024 != 0 then some (.trap .misaligned src)
  else if beyond dst then some (.trap .access dst)
  else if copy && beyond src then some (.trap .access src)
  else if copy && dst != src && meets dst.toNat src.toNat len.toNat then some (.trap .access dst)
  else none

/-- A row operation enters its core's row queue (R379). -/
def State.addRow (s : State) (core : Nat) (op : RowOp) : State :=
  ({ s with nextId := s.nextId + 1 } : State).modCore core fun c => { c with rowq := c.rowq ++ [op] }

/-- A row operation at issue (R379). -/
def mrowOp (o : OpR) (copy : Bool) (t : Thread) (s : State) : Done :=
  match ready t s o.w (o.d :: o.a :: (if copy then [o.b] else [])) [] with
  | some stop => .error stop
  | none =>
    let len := srcVal t s o.w o.d
    let dst := srcVal t s o.w o.a
    let src := if copy then srcVal t s o.w o.b else dst
    match mrowStop copy len dst src with
    | some stop => .error stop
    | none =>
      let srcs := o.d :: o.a :: (if copy then [o.b] else [])
      let op : RowOp :=
        { id := s.nextId, tid := t.tid, ctx := t.ctx, num := t.rissued + 1#64, copy := copy, dst := dst.toNat, src := src.toNat,
          len := len.toNat, left := List.range (len.toNat / 1024), after := s.earlier t.tid, issuedAt := s.now, early := [] }
      taking .rowq t.coreId (decide ((s.core t.coreId).rowq.length < Config.rowEntries)) o.w dst srcs
        (.rowOp o.d t.coreId { op with id := 0 }) (fun t s =>
          .ok (finish { t with rissued := op.num } (s.addRow t.coreId op) o.w srcs o.d op.num)) t s

/-- `mrow.zero` (R379). -/
def execMrowZero (o : OpR) (s : State) : Host.Outcome State Fault Refusal := issue (.mrowZero o) (mrowOp o false) s
/-- `mrow.copy` (R379). -/
def execMrowCopy (o : OpR) (s : State) : Host.Outcome State Fault Refusal := issue (.mrowCopy o) (mrowOp o true) s

/-- A wait on one of a thread's own timelines (R237, R383, R408): `tl` of `issued` operations are complete (log 94). -/
def ownTimelineWait (w : BitVec 2) (a : Reg) (detail : Nat) (tl issued : Thread → Word) (t : Thread) (s : State) : Done :=
  match ready t s w [a] [] with
  | some stop => .error stop
  | none =>
    let n := srcVal t s w a
    if (issued t).ult n then .error (.trap .access n)
    else if n.ule (tl t) then
      atSync false w n [a] (.done true) (fun t s => .ok (t.advance, (consume t s [a]).dropCopies t)) t s
    else .error (.park (wake .timeline detail n))

/-- `mrow.wait` (R383). -/
def execMrowWait (o : OpR) (s : State) : Host.Outcome State Fault Refusal :=
  issue (.mrowWait o) (ownTimelineWait o.w o.a 0x02000000 (·.rtl) (·.rissued)) s
/-- `mrow.tl` (R383). -/
def execMrowTl (o : OpR) (s : State) : Host.Outcome State Fault Refusal :=
  issue (.mrowTl o) (fun t s => scalarOp o.w [] o.d (fun _ => t.rtl) t s) s
/-- `mrow.iss` (R383). -/
def execMrowIss (o : OpR) (s : State) : Host.Outcome State Fault Refusal :=
  issue (.mrowIss o) (fun t s => scalarOp o.w [] o.d (fun _ => t.rissued) t s) s

/-! ### Chunks (R380-R382) -/

def State.rowOp? (s : State) (core id : Nat) : Option RowOp := (s.core core).rowq.find? fun r => r.id == id

/-- The largest n such that operations 1 to n are complete: the numbers given are those still in progress (R381, R408). -/
def timelineAt (issued : Word) (open' : List Word) : Word := open'.foldl (fun m n => if n ≤ m then n - 1#64 else m) issued
/-- RTL of a thread follows its operations (R381). -/
def State.settleRows (s : State) (tid : Nat) : State :=
  let open' := (s.cores.flatMap fun c => c.rowq.filter fun r => r.tid == tid).map (·.num)
  s.modThread tid fun t => { t with rtl := timelineAt t.rissued open' }
/-- Free the entry of a row operation. -/
def State.dropRowOp (s : State) (core id : Nat) : State :=
  s.modCore core fun c => { c with rowq := c.rowq.filter fun r => r.id != id }

/-- A row operation stops (R382): its task is killed, or the failure is reported where the task has ended (log 86). -/
def State.failRowOp (s : State) (core : Nat) (r : RowOp) (c : Cause) (va : Nat) : State :=
  let s := s.dropRowOp core r.id
  match s.thread? r.tid with
  | some t => s.kill t c (BitVec.ofNat 64 va)
  | none => s.report r.ctx 9 c.code.toNat (BitVec.ofNat 64 va) r.num []

/-- Distinct DRAM rows a kilobyte touches. -/
def State.rowsOf (s : State) (pa : Nat) : Nat :=
  (((List.range 8).filterMap fun i => (s.place (pa + 128 * i)).map fun p => (p.stack, p.bank, p.row)).eraseDups).length
/-- Whether a copy stays inside the DRAM (R380). -/
def State.inDram (s : State) (dst src : Nat) : Bool :=
  match s.place dst, s.place src with
  | some d, some p => d.bankLocal && p.bankLocal && d.stack == p.stack && d.bank == p.bank && d.row / 1024 == p.row / 1024
  | _, _ => false
/-- Picojoules of a chunk: its activates, the lines that pass the base die, and those that cross between the dies (R316, R380)
(log 87). -/
def State.chunkCost (s : State) (copy : Bool) (dst src : Nat) : Nat :=
  let bankLocal := (s.place dst).any fun p => p.bankLocal
  if !copy then (if bankLocal then 900 else 8 * 900 + 8 * 800)
  else if s.inDram dst src then 2 * 900
  else 900 * (s.rowsOf src + s.rowsOf dst) + 16 * 800 + (if stackOf src / 6 = stackOf dst / 6 then 0 else 8 * 154)

/-- Drop the L1 copies of a range (R381) (log 87). -/
def Core.dropRange (c : Core) (pa n : Nat) (keep : L1Line → Bool) : Core :=
  { c with l1 := c.l1.filter fun l => decide (l.pa + 128 ≤ pa) || decide (pa + n ≤ l.pa) || keep l }
def State.dropRange (s : State) (pa n : Nat) (keep : L1Line → Bool) : State :=
  { s with cores := s.cores.map fun c => c.dropRange pa n keep }

/-- Copy `n` bytes of physical memory with their poison (R380, R392): an uncorrectable word arrives poisoned and is reported. -/
def State.copyBytes (s : State) (dst src n ctx : Nat) : State :=
  let bad := s.poison.filter fun w => decide (src ≤ w) && decide (w < src + n)
  let s : State := { s with
    mem := Memory.write s.mem dst n (s.peek src n),
    poison := (bad.map fun w => dst + (w - src)) ++ s.poison.filter fun w => !(decide (dst ≤ w) && decide (w < dst + n)) }
  bad.foldl (fun s w => s.ueEvent w ctx) s

/-- What a chunk does once it is checked (R380, R381): a copy onto itself writes nothing, and the bytes written before it stay. Of the
L1 copies of its destination, those of before the issue are dropped; one filled since may have been made after its drop (log 27)
(log 87). -/
def State.performChunk (s : State) (r : RowOp) (k dst src : Nat) : State :=
  let cost := s.chunkCost r.copy dst src
  let kept := (r.early.filter fun b => b / 1024 == k).map fun b => (dst + b % 1024, s.peek (dst + b % 1024) 1)
  let s := if !r.copy then
      { s with mem := Memory.write s.mem dst 1024 0, poison := s.poison.filter fun w => !(decide (dst ≤ w) && decide (w < dst + 1024)) }
    else if dst = src then s
    else s.copyBytes dst src 1024 r.ctx
  let s : State := { s with mem := kept.foldl (fun m e => Memory.write m e.1 1 e.2) s.mem }
  let late := Config.newByte s.freeCtr
  ((s.tickFree).dropRange dst 1024 fun l => late && decide (r.issuedAt < l.filled)).bill r.tid r.ctx cost

/-- One chunk of a row operation (R380): its destination is checked, then its source (log 87). -/
def State.rowChunk (s : State) (core : Nat) (r : RowOp) (k : Nat) : Option State :=
  let who := FaultWaiter.rowop core r.id k
  let check (need : Need) (va : Nat) : Checked := s.checkPiece r.ctx (some core) need va 1024 who none
  let go (dst src : Nat) : State :=
    let left := r.left.filter (· != k)
    let s := s.performChunk r k dst src
    if left.isEmpty then (s.dropRowOp core r.id).settleRows r.tid
    else s.modCore core fun c => { c with rowq := c.rowq.map fun x => if x.id = r.id then { r with left := left } else x }
  match check .write (r.dst + 1024 * k) with
  | .wait => none
  | .page s' => some s'
  | .fail c _ => some (s.failRowOp core r c (r.dst + 1024 * k))
  | .ok dst _ =>
    if !r.copy then some (go dst dst)
    else match check .read (r.src + 1024 * k) with
      | .wait => none
      | .page s' => some s'
      | .fail c _ => some (s.failRowOp core r c (r.src + 1024 * k))
      | .ok src _ => some (go dst src)

/-- One destination byte of a row operation is written before its chunk (R381, R13); none where its chunk could not be performed (log 27). -/
def earlyRow (core id b : Nat) (s : State) : Option State :=
  match s.rowOp? core id with
  | none => none
  | some r =>
    let k := b / 1024
    let check (need : Need) (va : Nat) : Checked := s.checkPiece r.ctx (some core) need va 1 (.rowop core id k) none
    if !r.left.contains k || r.early.contains b || !s.performed r.after then none
    else
      let go (dst v : Nat) : State :=
        ({ s with mem := Memory.write s.mem dst 1 v } : State).modCore core fun c =>
          { c with rowq := c.rowq.map fun x => if x.id = id then { r with early := b :: r.early } else x }
      match check .write (r.dst + b) with
      | .ok dst _ => if !r.copy then some (go dst 0)
        else match check .read (r.src + b) with
          | .ok src _ => if (s.poisonAt src 1).isSome then none else some (go dst (s.peek src 1))
          | _ => none
      | _ => none

/-- ROW_CHUNK_DONE (R380-R382): chunk `chunk` of an operation is performed, after its issuer's earlier stores. -/
def execRowChunkDone (core id chunk : Nat) (s : State) : Host.Outcome State Fault Refusal :=
  match s.rowOp? core id with
  | none => .refused .notEnabled
  | some r =>
    if !r.left.contains chunk || !s.performed r.after then .refused .notEnabled
    else match s.rowChunk core r chunk with
      | some s => .next s
      | none => .refused .notEnabled

/-! ### The base dies (R377, R387-R391) -/

/-- POSTED_WRITE_BUFFER_DRAIN (R377, R388): the oldest entry of a base die's buffer leaves for the DRAM. -/
def execPostedWriteBufferDrain (stack : Nat) (s : State) : Host.Outcome State Fault Refusal :=
  let k := s.stack stack
  match k.wbuf with
  | _ :: rest => if k.selfRefresh.isNone then .next (s.setStack { k with wbuf := rest }) else .refused .notEnabled
  | [] => .refused .notEnabled

/-- BANK_REFRESH (R387): a refresh changes only time. -/
def execBankRefresh (stack bank : Nat) (s : State) : Host.Outcome State Fault Refusal :=
  if (s.stack stack).online && decide (bank < 2048) && decide (stack < 12) then .next s else .refused .notEnabled

/-- SELF_REFRESH_ENTRY (R388). -/
def execSelfRefreshEntry (stack temp : Nat) (s : State) : Host.Outcome State Fault Refusal :=
  let k := s.stack stack
  if k.online && k.selfRefresh.isNone && decide (s.critTemp ≤ temp) then
    .next (s.setStack { k with selfRefresh := some s.now, stalled := false })
  else .refused .notEnabled

/-- SELF_REFRESH_EXIT (R388): a stall that was reported is reported again at exit. -/
def execSelfRefreshExit (stack temp : Nat) (s : State) : Host.Outcome State Fault Refusal :=
  let k := s.stack stack
  if k.selfRefresh.isSome && decide (temp < s.exitTemp) then
    let s' := s.setStack { k with selfRefresh := none, stalled := false }
    .next (if k.stalled then s'.stackEvent 3 stack 0xFF 0 0 0 0xFFFF else s')
  else .refused .notEnabled

/-- STACK_STALL (R388): 2 ms in self-refresh. -/
def execStackStall (stack : Nat) (s : State) : Host.Outcome State Fault Refusal :=
  let k := s.stack stack
  match k.selfRefresh with
  | some t0 =>
    if !k.stalled && decide (t0 + 2000000 ≤ s.now) then
      .next ((s.setStack { k with stalled := true }).stackEvent 3 stack 0xFF 0 0 0 0xFFFF)
    else .refused .notEnabled
  | none => .refused .notEnabled

/-- PATROL_SCRUB (R390): a line of a present stack is read; an uncorrectable burst is reported. -/
def execPatrolScrub (line : Nat) (s : State) : Host.Outcome State Fault Refusal :=
  if line % 128 != 0 || !s.present line || !s.awake line then .refused .notEnabled
  else .next (if (s.poisonAt line 128).isSome then s.ueEvent line 0xFFFF else s)

/-- CE_THRESH (R391): a DRAM die's corrected errors of one second exceed the threshold. -/
def execCeThresh (stack die count : Nat) (s : State) : Host.Outcome State Fault Refusal :=
  let k := s.stack stack
  if decide (stack < 12) && k.online && k.dies.getLsbD die && decide (s.ceThresh < count) && decide (count < 2 ^ 32) then
    .next (s.stackEvent 1 stack die count 0 0 0xFFFF)
  else .refused .notEnabled

end Sys2Proof.Machine
end

