-- ==== Sys2Proof/Machine/Attention.lean ====
section
/-! DEFINITION. Bank attention (R395-R419). -/

namespace Sys2Proof.Machine

/-! ### Records (R400-R402) -/

/-- The empty record (R400). -/
def AqRec.blank (dim stack page bank : Nat) (num : Word) : AqRec :=
  { m := 0xFF800000#32, s := 0#32, empty := true, err := false, merged := false, dim := dim, stack := stack, page := page,
    bank := bank, errmask := 0#64, errpos := 0xFFFFFFFF, npos := 0, num := num, a := List.replicate dim 0#32 }
def AqRec.flags (r : AqRec) : Nat := r.empty.toNat + 2 * r.err.toNat + 4 * r.merged.toNat
/-- Bytes of a record. -/
def recordBytes (dim : Nat) : Nat := 64 + 4 * dim
/-- A list of F32 patterns as one number, element 0 lowest. -/
def packWords (l : List W32) : Nat := l.foldr (fun x acc => x.toNat + 2 ^ 32 * acc) 0
/-- The bytes of a record (R400). -/
def AqRec.image (r : AqRec) : Nat :=
  r.m.toNat + 2 ^ 32 * r.s.toNat + 2 ^ 64 * (r.flags + 2 ^ 8 * r.dim + 2 ^ 16 * r.stack + 2 ^ 24 * r.page + 2 ^ 32 * r.bank)
    + 2 ^ 128 * r.errmask.toNat + 2 ^ 192 * r.errpos + 2 ^ 224 * r.npos + 2 ^ 256 * r.num.toNat + 2 ^ 512 * packWords r.a
/-- A record from its bytes. -/
def readRecord (x : Nat) : AqRec :=
  let f (off n : Nat) : Nat := slice x off n
  let fl := f 8 1
  { m := BitVec.ofNat 32 (f 0 4), s := BitVec.ofNat 32 (f 4 4), empty := fl % 2 == 1, err := fl / 2 % 2 == 1,
    merged := fl / 4 % 2 == 1, dim := f 9 1, stack := f 10 1, page := f 11 1, bank := f 12 2,
    errmask := BitVec.ofNat 64 (f 16 8), errpos := f 24 4, npos := f 28 4, num := BitVec.ofNat 64 (f 32 8),
    a := (List.range (f 9 1)).map fun k => BitVec.ofNat 32 (f (64 + 4 * k) 4) }

/-- The arithmetic of R401 on F32 patterns. -/
def subF (x y : Nat) : Nat := roundNe (addNum 0 (decodeFloat f32 x) (negNum (decodeFloat f32 y)))
def maxF (x y : Nat) : Nat := roundNe (maxNum (decodeFloat f32 x) (decodeFloat f32 y))
/-- The weighted sum of two elements of a merge. -/
def blend (x fx y fy : Nat) : W32 := BitVec.ofNat 32 (addF (mulF x fx) (mulF y fy))

/-- The triple of a merge (R401). -/
def mergeTriple (x y : AqRec) : W32 × W32 × List W32 :=
  if x.empty && y.empty then (0xFF800000#32, 0#32, List.replicate x.dim 0#32)
  else if y.empty then (x.m, x.s, x.a)
  else if x.empty then (y.m, y.s, y.a)
  else
    let m := maxF x.m.toNat y.m.toNat
    let fx := expeDef (subF x.m.toNat m)
    let fy := expeDef (subF y.m.toNat m)
    (BitVec.ofNat 32 m, blend x.s.toNat fx y.s.toNat fy, List.zipWith (fun a b => blend a.toNat fx b.toNat fy) x.a y.a)
/-- The merge of two records (R401); the result keeps the first one's bookkeeping, which the caller sets. -/
def mergeRec (x y : AqRec) : AqRec :=
  let z := mergeTriple x y
  { x with
    m := z.1, s := z.2.1, a := z.2.2, empty := x.empty && y.empty, err := x.err || y.err, errmask := x.errmask ||| y.errmask,
    errpos := min x.errpos y.errpos, npos := min (x.npos + y.npos) 0xFFFFFFFF }

/-- Element k of a vector of B16s. -/
def b16At (v k : Nat) : Nat := v / 2 ^ (16 * k) % 2 ^ 16
/-- The score of a key (R402). -/
def score (dim : Nat) (scale : W32) (q key : Nat) : Nat :=
  let dot := (List.range (dim / 16)).foldl (fun acc j =>
    accumulate acc ((List.range 16).map fun i =>
      mulNum (decodeFloat b16 (b16At q (16 * j + i))) (decodeFloat b16 (b16At key (16 * j + i))))) 0
  mulF scale.toNat dot
/-- A position's own record (R402); a B16 is widened exactly. -/
def positionRec (d : AqDesc) (key val : Nat) : AqRec :=
  { AqRec.blank d.dim 0 0 0 0#64 with
    m := BitVec.ofNat 32 (score d.dim d.scale d.q key), s := 0x3F800000#32, empty := false, npos := 1,
    a := (List.range d.dim).map fun k => BitVec.ofNat 32 (roundNe (decodeFloat b16 (b16At val k))) }

/-! ### Posting (R398, R399) -/

/-- Positions a row holds (R395). -/
def rowPositions (dim : Nat) : Nat := 1024 / (4 * dim)
/-- A descriptor and the vector behind it (R398) (log 91). -/
def readDesc (x : Nat) : AqDesc :=
  let f (off n : Nat) : Nat := slice x off n
  { table := f 0 8, len := f 8 4, scale := BitVec.ofNat 32 (f 12 4), res := f 16 4, npg := f 20 1, dim := f 21 1,
    banks := f 22 1 % 2 == 1, q := f 64 256 % 256 ^ (2 * f 21 1) }
/-- Bytes of a query's results (R398). -/
def AqDesc.resultBytes (d : AqDesc) : Nat := if d.banks then d.npg * recordBytes d.dim else recordBytes d.dim

/-- Whether a descriptor's fields are refused (R399); `x` is its 64 bytes. -/
def AqDesc.bad (d : AqDesc) (x : Nat) : Bool :=
  slice x 23 41 != 0 || decide (2 ≤ slice x 22 1) || (d.dim != 64 && d.dim != 128) || d.npg == 0 || decide (64 < d.npg)
    || d.scale.toNat / 2 ^ 23 % 256 == 255 || decide (d.npg * 64 * rowPositions d.dim < d.len) || d.table % 8 != 0
    || decide (2 ^ 52 ≤ d.table)

/-- The checks of `aq.post` in the scratchpad (R399). -/
def postStop (r : Word) (t : Thread) (s : State) : Option Stop :=
  let l := s.near t
  let a := r.toNat
  let dim := Memory.read l.spad (a + 21) 1
  let d := readDesc (Memory.read l.spad a 320)
  if a % 64 ≠ 0 then some (.trap .misaligned r)
  else if l.size < a + 64 ∨ l.size < a + 64 + 2 * dim then some (.trap .access r)
  else match l.badAt a (64 + 2 * dim) with
    | some b => some (.trap .ue (BitVec.ofNat 64 b))
    | none =>
      if d.bad (Memory.read l.spad a 64) then some (.trap .access r)
      else if d.res % 64 ≠ 0 ∨ l.size < d.res + d.resultBytes then some (.trap .access (BitVec.ofNat 64 d.res))
      else none

/-- Query entries of a core in use (R399): posted queries, and posts still at their table. -/
def State.queriesOf (s : State) (core : Nat) : Nat :=
  (s.queries.filter fun q => q.core == core).length
    + (s.threads.filter fun t => match t.run.pending with
      | some (.aqPost _ c _ _) => c == core
      | _ => false).length

/-- `aq.post` (R399) (log 91). -/
def execAqPost (o : OpR) (s : State) : Host.Outcome State Fault Refusal :=
  issue (.aqPost o) (fun t s => match ready t s o.w [o.a] [o.d] with
    | some stop => .error stop
    | none =>
      let r := srcVal t s o.w o.a
      match postStop r t s with
      | some stop => .error stop
      | none =>
        let d := readDesc (Memory.read (s.near t).spad r.toNat 320)
        let p : Pending := .aqPost o.d t.coreId d (s.earlier t.tid)
        let (t, s) := payFor t s (spadCost (64 + 2 * d.dim))
        taking .query t.coreId (decide (s.queriesOf t.coreId < Config.queryEntries)) o.w r [o.a] p (waitFor o.w r [o.a] p) t s) s

/-- The result of a post's table read and translations (R399). -/
inductive Posted where
  | ok (pages : List (Nat × Nat)) (stack : Nat) (vas : List Nat)
  | wait
  | page (va : Nat) (stop : WalkStop)
  | stop (c : Cause) (v : Word)
  deriving DecidableEq, Repr

/-- The dwords of the table from entry g on (R399). -/
def State.postTable (s : State) (ctx core table g : Nat) : Nat → Except Posted (List Nat)
  | 0 => .ok []
  | n + 1 =>
    let va := table + 8 * g
    match s.xlate ctx (some core) .read va with
    | .asleep => .error .wait
    | .access => .error (.stop .access (BitVec.ofNat 64 va))
    | .ue => .error (.stop .ue (BitVec.ofNat 64 va))
    | .page w => .error (.page va w)
    | .ok pa _ =>
      if !s.awake pa then .error .wait
      else match s.poisonVa (BitVec.ofNat 64 va) pa 8 fun _ => true with
        | some x => .error (.stop .ue x)
        | none => match s.postTable ctx core table (g + 1) n with
          | .ok l => .ok (s.peek pa 8 :: l)
          | .error e => .error e
/-- The translations of the pages named (R196, R399); `seen` are those before. -/
def State.postPages (s : State) (ctx core : Nat) (stack : Option Nat) (seen : List (Nat × Nat)) : List Nat → Posted
  | [] => .ok seen (stack.getD 0) []
  | v :: vs =>
    let bad (c : Cause) : Posted := .stop c (BitVec.ofNat 64 v)
    if v % 65536 ≠ 0 then bad .access
    else match s.xlate ctx (some core) .read v with
      | .asleep => .wait
      | .access => bad .access
      | .ue => bad .ue
      | .page w => .page v w
      | .ok pa leaf => match s.place pa with
        | some p =>
          if !leafLocal leaf || stack.any (· != p.stack) || seen.any (fun e => e.2 == p.bank) then bad .access
          else s.postPages ctx core (some p.stack) (seen ++ [(pa, p.bank)]) vs
        | none => bad .access
def State.posted (s : State) (ctx core : Nat) (d : AqDesc) : Posted :=
  match s.postTable ctx core d.table 0 d.npg with
  | .ok vs => match s.postPages ctx core none [] vs with
    | .ok pages stack _ => .ok pages stack vs
    | p => p
  | .error e => e

/-- What a post's next event does, after its issuer's earlier stores (R237, R399): a fault is raised once and served by R202-R204 while
the post stays a blocking point of kind MEMORY; a trap frees the entry; else the query is numbered and on its way to its controller. -/
def replyAqPost (t : Thread) (s : State) (d : Reg) (core : Nat) (x : AqDesc) (after : List Nat) : QueueReply :=
  if !s.performed after then .wait else
  match s.posted t.ctx core x with
  | .wait => .wait
  | .page va w =>
    if s.faulting (.thread t.tid) then .wait
    else .goOn (s.raiseFault t.ctx va .read w (.thread t.tid) (coordOf s.chip core)) (.aqPost d core x after)
  | .stop c v => .done s (.trapped c v)
  | .ok pages stack vas =>
    let n := t.qissued + 1#64
    let q : Query :=
      { id := s.nextId, tid := t.tid, ctx := t.ctx, core := core, stack := stack, num := n, desc := x, handed := false, early := [],
        pages := (pages.zipIdx).map fun e => (e.1, (0, AqRec.blank x.dim stack e.2 e.1.2 n)), vas := vas,
        after := after }
    let s : State := { s with queries := s.queries ++ [q], nextId := s.nextId + 1 }
    .done (s.modThread t.tid fun t => { t with qissued := n }) (.scalar d n)

/-! ### Scanning and completion (R403, R404, R408-R419) -/

/-- The first position of a page's row, and the positions of that row below L (R395). -/
def AqDesc.rowStart (d : AqDesc) (g row : Nat) : Nat := (row * d.npg + g) * rowPositions d.dim
def AqDesc.rowOf (d : AqDesc) (g row : Nat) : List Nat :=
  (List.range (rowPositions d.dim)).filterMap fun i => if d.rowStart g row + i < d.len then some (d.rowStart g row + i) else none
/-- Whether a page of a query has been scanned. -/
def AqDesc.pageDone (d : AqDesc) (g : Nat) (p : (Nat × Nat) × (Nat × AqRec)) : Bool :=
  p.2.2.err || decide (d.len ≤ d.rowStart g p.2.1)
def Query.done (q : Query) : Bool := (q.pages.zipIdx).all fun e => q.desc.pageDone e.2 e.1

def State.query? (s : State) (id : Nat) : Option Query := s.queries.find? fun q => q.id == id

/-- QUERY_HANDOVER (R415): a query enters its stack's controller, which holds 256 (log 93). -/
def execQueryHandover (query : Nat) (s : State) : Host.Outcome State Fault Refusal :=
  match s.query? query with
  | some q =>
    if q.handed || decide (Config.controllerQueries ≤ (s.queries.filter fun k => k.handed && k.stack == q.stack).length) then
      .refused .notEnabled
    else .next { s with queries := (s.queries.filter fun k => k.id != query) ++ [{ q with handed := true }] }
  | none => .refused .notEnabled

/-- Whether an earlier query of the controller still scans a bank (R415) (log 93). -/
def State.bankTaken (s : State) (q : Query) (bank : Nat) : Bool :=
  (s.queries.takeWhile fun k => k.id != q.id).any fun k => k.handed && k.stack == q.stack
    && (k.pages.zipIdx).any fun e => e.1.1.2 == bank && !k.desc.pageDone e.2 e.1

/-- One row of a page (R403, R410, R416): each vector is read at once; an uncorrectable word of a position below L ends the
page. -/
def State.scanRow (s : State) (q : Query) (g : Nat) (p : (Nat × Nat) × (Nat × AqRec)) :
    State × ((Nat × Nat) × (Nat × AqRec)) :=
  let d := q.desc
  let at_ (pos : Nat) : Nat := p.1.1 + 1024 * p.2.1 + 4 * d.dim * (pos % rowPositions d.dim)
  let ps := d.rowOf g p.2.1
  match ps.find? fun pos => (s.poisonAt (at_ pos) (4 * d.dim)).isSome with
  | some pos =>
    let line := (s.poisonAt (at_ pos) (4 * d.dim)).getD 0
    let r := { AqRec.blank d.dim q.stack g p.1.2 q.num with err := true, errmask := 1#64 <<< g, errpos := pos }
    (s.ueEvent line q.ctx, (p.1, (p.2.1 + 1, r)))
  | none =>
    let r := ps.foldl (fun r pos =>
      mergeRec r (positionRec d (s.peek (at_ pos) (2 * d.dim)) (s.peek (at_ pos + 2 * d.dim) (2 * d.dim)))) p.2.2
    (s, (p.1, (p.2.1 + 1, r)))

/-- SCAN_STEP (R412, R415): a bank unit scans the next row of a page of the query it serves, after the poster's stores (log 93). -/
def execScanStep (query page : Nat) (s : State) : Host.Outcome State Fault Refusal :=
  match s.query? query with
  | none => .refused .notEnabled
  | some q => match q.pages[page]? with
    | none => .refused .notEnabled
    | some p =>
      if !q.handed || q.desc.pageDone page p || !s.performed q.after || s.bankTaken q p.1.2 || !s.awake p.1.1 then
        .refused .notEnabled
      else
        let (s, p') := s.scanRow q page p
        .next { s with queries := s.queries.map fun k => if k.id = query then { k with pages := k.pages.set page p' } else k }

/-- Sort records by stack bank number. -/
def insertRec (r : AqRec) : List AqRec → List AqRec
  | [] => [r]
  | x :: xs => if r.bank ≤ x.bank then r :: x :: xs else x :: insertRec r xs
def sortRecs : List AqRec → List AqRec
  | [] => []
  | x :: xs => insertRec x (sortRecs xs)

/-- The merged record of a query (R404): in ascending order of stack bank number. -/
def Query.merged (q : Query) : AqRec :=
  let z := (sortRecs (q.pages.map fun p => p.2.2)).foldl mergeRec (AqRec.blank q.desc.dim q.stack 0xFF 0xFFFF q.num)
  { z with merged := true }
/-- The bytes a query writes. -/
def Query.result (q : Query) : Nat :=
  if q.desc.banks then
    (q.pages.zipIdx).foldl (fun n e => n + e.1.2.2.image * 256 ^ (e.2 * recordBytes q.desc.dim)) 0
  else q.merged.image
/-- QTL of a thread follows its queries (R408). -/
def State.settleQueries (s : State) (tid : Nat) : State :=
  let open' := (s.queries.filter fun q => q.tid == tid).map (·.num)
  s.modThread tid fun t => { t with qtl := timelineAt t.qissued open' }

/-- Whether a query's results stand (R403, R404). -/
def State.scanned (s : State) (q : Query) : Bool := q.handed && q.done && s.performed q.after
/-- One result byte of a query is written before its completion (R409, R13) (log 27). -/
def earlyQuery (id b : Nat) (s : State) : Option State :=
  match s.query? id with
  | none => none
  | some q =>
    if !s.scanned q || decide (q.desc.resultBytes ≤ b) || q.early.contains b then none
    else
      let s := s.modCore q.core fun c => c.withStore (c.localStore.write (q.desc.res + b) 1 (slice q.result b 1))
      some { s with queries := s.queries.map fun k => if k.id = id then { k with early := b :: k.early } else k }

/-- QUERY_COMPLETE (R404, R408, R409, R419): the results are written to the core where the post issued; bytes written before stay
(log 27). -/
def execQueryComplete (query : Nat) (s : State) : Host.Outcome State Fault Refusal :=
  match s.query? query with
  | none => .refused .notEnabled
  | some q =>
    if !s.scanned q then .refused .notEnabled
    else
      let d := q.desc
      let rows := q.pages.foldl (fun n p => n + p.2.1) 0
      let v := keepEarly q.early 0 d.resultBytes q.result (Memory.read (s.core q.core).spad d.res d.resultBytes)
      let s := s.modCore q.core fun c => c.withStore (c.localStore.write d.res d.resultBytes v)
      let s : State := { s with queries := s.queries.filter fun k => k.id != query }
      .next ((s.settleQueries q.tid).bill q.tid q.ctx (8 * d.dim * d.len + 900 * rows))

/-! ### Merge and normalise on the core (R405-R407) -/

/-- Whether a record's head is acceptable (R405 step 3) (log 92). -/
def headOk (x : Nat) : Bool :=
  (slice x 9 1 == 64 || slice x 9 1 == 128) && decide (slice x 8 1 < 8) && slice x 14 2 == 0 && slice x 40 24 == 0

/-- The first of some addresses that meets a condition (log 92). -/
def firstOf (l : List Word) (f : Word → Bool) (c : Cause) : Option Stop := (l.find? f).map fun v => .trap c v

/-- The checks of R405: `recs` are the record operands, `ext` the operands with their bytes (log 92). -/
def recordStops (addrs recs : List Word) (ext : Nat → List (Word × Nat)) (l : LocalStore) : Option Stop :=
  let head (a : Word) : Nat := Memory.read l.spad a.toNat 64
  let dim := (recs.head?.map fun a => slice (head a) 9 1).getD 0
  let steps : List (Unit → Option Stop) := [
    fun _ => firstOf addrs (fun a => a.toNat % 64 != 0) .misaligned,
    fun _ => firstOf recs (fun a => decide (l.size < a.toNat + 64)) .access,
    fun _ => firstOf recs (fun a => !headOk (head a)) .access,
    fun _ => firstOf (recs.drop 1) (fun a => slice (head a) 9 1 != dim) .access,
    fun _ => ((ext dim).find? fun e => decide (l.size < e.1.toNat + e.2)).map fun e => .trap .access e.1,
    fun _ => (recs.findSome? fun a => l.badAt a.toNat (recordBytes dim)).map fun b => .trap .ue (BitVec.ofNat 64 b)]
  steps.findSome? fun f => f ()

/-- The word that `aq.merge` and `aq.norm` give (R406, R407). -/
def AqRec.word (r : AqRec) : Word := BitVec.ofNat 64 (r.npos * 2 ^ 32 + r.flags)

/-- Leave the rotation with the bytes and the word to write at the reply (R405); `first` is the value of a. -/
def leaveWith (o : OpR) (first : Word) (addr size v : Nat) (d : Word) (dim : Nat) (t : Thread) (s : State) : Done :=
  let (t, s) := payFor t s (spadCost size)
  waitFor o.w first [o.a, o.b] (.aqBytes t.coreId addr size v o.d d (s.now + 8 + dim / 4)) t s

/-- `aq.merge` (R405, R406). -/
def execAqMerge (o : OpR) (s : State) : Host.Outcome State Fault Refusal :=
  issue (.aqMerge o) (fun t s => match ready t s o.w [o.a, o.b] [o.d] with
    | some stop => .error stop
    | none =>
      let a := srcVal t s o.w o.a
      let b := srcVal t s o.w o.b
      let l := s.near t
      match recordStops [a, b] [a, b] (fun dim => [(a, recordBytes dim), (b, recordBytes dim)]) l with
      | some stop => .error stop
      | none =>
        let dim := Memory.read l.spad (a.toNat + 9) 1
        let x := readRecord (Memory.read l.spad a.toNat (recordBytes dim))
        let y := readRecord (Memory.read l.spad b.toNat (recordBytes dim))
        let z := { mergeRec x y with
          merged := true, page := 0xFF, bank := 0xFFFF, stack := if x.stack = y.stack then x.stack else 0xFF }
        let (t, s) := payFor t s (2 * spadCost (recordBytes dim))
        leaveWith o a a.toNat (recordBytes dim) z.image z.word dim t s) s

/-- The output of `aq.norm` (R407). -/
def normOut (r : AqRec) (f : FloatFmt) (bytes : Nat) : Nat :=
  if r.empty then 0
  else
    let k := decodeFloat f32 (rcpDef r.s.toNat)
    r.a.foldr (fun x acc => roundFmt f 0 false (mulNum (decodeFloat f32 x.toNat) k) + 256 ^ bytes * acc) 0
/-- `aq.norm` and `aq.norm.b`: `bytes` bytes an element (R405, R407). -/
def aqNorm (o : OpR) (f : FloatFmt) (bytes : Nat) (t : Thread) (s : State) : Done :=
  match ready t s o.w [o.a, o.b] [o.d] with
  | some stop => .error stop
  | none =>
    let a := srcVal t s o.w o.a
    let b := srcVal t s o.w o.b
    let l := s.near t
    match recordStops [a, b] [a] (fun dim => [(a, recordBytes dim), (b, bytes * dim)]) l with
    | some stop => .error stop
    | none =>
      let dim := Memory.read l.spad (a.toNat + 9) 1
      let x := readRecord (Memory.read l.spad a.toNat (recordBytes dim))
      let (t, s) := payFor t s (spadCost (recordBytes dim))
      leaveWith o a b.toNat (bytes * dim) (normOut x f bytes) x.word dim t s
/-- `aq.norm` (R407). -/
def execAqNorm (o : OpR) (s : State) : Host.Outcome State Fault Refusal := issue (.aqNorm o) (aqNorm o f32 4) s
/-- `aq.norm.b` (R407). -/
def execAqNormB (o : OpR) (s : State) : Host.Outcome State Fault Refusal := issue (.aqNormB o) (aqNorm o b16 2) s

/-- The reply cycle of `aq.merge` and `aq.norm` (R405). -/
def replyAqBytes (s : State) (core addr size v : Nat) (d : Reg) (dval : Word) (due : Nat) : Option (State × Delivery) :=
  if s.now < due then none
  else some (s.modCore core fun c => c.withStore (c.localStore.write addr size v), .scalar d dval)

/-- `aq.wait` (R408). -/
def execAqWait (o : OpR) (s : State) : Host.Outcome State Fault Refusal :=
  issue (.aqWait o) (ownTimelineWait o.w o.a 0x03000000 (·.qtl) (·.qissued)) s
/-- `aq.tl` (R408). -/
def execAqTl (o : OpR) (s : State) : Host.Outcome State Fault Refusal :=
  issue (.aqTl o) (fun t s => scalarOp o.w [] o.d (fun _ => t.qtl) t s) s
/-- `aq.iss` (R408). -/
def execAqIss (o : OpR) (s : State) : Host.Outcome State Fault Refusal :=
  issue (.aqIss o) (fun t s => scalarOp o.w [] o.d (fun _ => t.qissued) t s) s

end Sys2Proof.Machine
end

