-- ==== Sys2Proof/Machine/Branch.lean ====
section
/-! DEFINITION. Branches, jumps and predicates (R119-R124). -/

namespace Sys2Proof.Machine

/-- Where a taken branch goes: PC + 4·sext(off) (R44). -/
def target (pc : Word) (off : BitVec n) : Word := pc + (off.signExtend 64 <<< 2)

/-- A register-compare branch (R119): a port source is consumed whether or not it is taken. -/
def branchOp (o : OpB) (cond : Word → Word → Bool) (t : Thread) (s : State) : Done :=
  match ready t s 0#2 [o.a, o.b] [] with
  | some stop => .error stop
  | none =>
    let u := t.advance
    .ok ({ u with pc := if cond (srcVal t s 0#2 o.a) (srcVal t s 0#2 o.b) then target t.pc o.off else u.pc },
      consume t s [o.a, o.b])

/-- `beq` (R119). -/
def execBeq (o : OpB) (s : State) : Host.Outcome State Fault Refusal := issue (.beq o) (branchOp o fun x y => x == y) s
/-- `bne` (R119). -/
def execBne (o : OpB) (s : State) : Host.Outcome State Fault Refusal := issue (.bne o) (branchOp o fun x y => x != y) s
/-- `blt` (R119): signed. -/
def execBlt (o : OpB) (s : State) : Host.Outcome State Fault Refusal := issue (.blt o) (branchOp o fun x y => x.slt y) s
/-- `bge` (R119): signed. -/
def execBge (o : OpB) (s : State) : Host.Outcome State Fault Refusal := issue (.bge o) (branchOp o fun x y => !x.slt y) s
/-- `bltz` (R119): unsigned. -/
def execBltz (o : OpB) (s : State) : Host.Outcome State Fault Refusal := issue (.bltz o) (branchOp o fun x y => x.ult y) s

/-- A predicate branch (R120), taken when the predicate has the value `want`. -/
def predBranch (o : OpP) (want : Bool) (t : Thread) (s : State) : Done :=
  let u := t.advance
  .ok ({ u with pc := if t.c.pred o.p.toNat = want then target t.pc o.off else u.pc }, s)
/-- `bp` (R120). -/
def execBp (o : OpP) (s : State) : Host.Outcome State Fault Refusal := issue (.bp o) (predBranch o true) s
/-- `bnp` (R120). -/
def execBnp (o : OpP) (s : State) : Host.Outcome State Fault Refusal := issue (.bnp o) (predBranch o false) s

/-- `jal` (R121): the link value is a scalar result. -/
def execJal (o : OpJ) (s : State) : Host.Outcome State Fault Refusal :=
  issue (.jal o) (fun t s =>
    let (u, s') := finish t s 0#2 [] o.d (t.pc + 4#64)
    .ok ({ u with pc := target t.pc o.off }, s')) s

/-- `jr` (R122): a target that is not a multiple of 4 raises MISALIGNED and d is not written. -/
def execJr (o : OpJr) (s : State) : Host.Outcome State Fault Refusal :=
  issue (.jr o) (fun t s => match ready t s 0#2 [o.a] [] with
    | some stop => .error stop
    | none =>
      let x := srcVal t s 0#2 o.a + o.imm.signExtend 64
      if x &&& 3#64 ≠ 0#64 then .error (.trap .misaligned x)
      else
        let (u, s') := finish t s 0#2 [] o.d (t.pc + 4#64)
        .ok ({ u with pc := x }, s')) s

/-- `pnez` (R124). -/
def execPnez (o : OpR) (s : State) : Host.Outcome State Fault Refusal :=
  issue (.pnez o) (predOp o.w [o.a] o.d fun _ v => v o.a != 0#64) s
/-- `peq` (R124). -/
def execPeq (o : OpR) (s : State) : Host.Outcome State Fault Refusal :=
  issue (.peq o) (predOp o.w [o.a, o.b] o.d fun _ v => v o.a == v o.b) s
/-- `plt` (R124): signed. -/
def execPlt (o : OpR) (s : State) : Host.Outcome State Fault Refusal :=
  issue (.plt o) (predOp o.w [o.a, o.b] o.d fun _ v => (v o.a).slt (v o.b)) s
/-- `pltz` (R124): unsigned. -/
def execPltz (o : OpR) (s : State) : Host.Outcome State Fault Refusal :=
  issue (.pltz o) (predOp o.w [o.a, o.b] o.d fun _ v => (v o.a).ult (v o.b)) s
/-- `pand` (R124). -/
def execPand (o : OpR) (s : State) : Host.Outcome State Fault Refusal :=
  issue (.pand o) (predOp o.w [] o.d fun t _ => t.c.pred o.a.toNat && t.c.pred o.b.toNat) s
/-- `por` (R124). -/
def execPor (o : OpR) (s : State) : Host.Outcome State Fault Refusal :=
  issue (.por o) (predOp o.w [] o.d fun t _ => t.c.pred o.a.toNat || t.c.pred o.b.toNat) s
/-- `pxor` (R124). -/
def execPxor (o : OpR) (s : State) : Host.Outcome State Fault Refusal :=
  issue (.pxor o) (predOp o.w [] o.d fun t _ => t.c.pred o.a.toNat != t.c.pred o.b.toNat) s
/-- `pnot` (R124). -/
def execPnot (o : OpR) (s : State) : Host.Outcome State Fault Refusal :=
  issue (.pnot o) (predOp o.w [] o.d fun t _ => !t.c.pred o.a.toNat) s
/-- `pget` (R124): the only one of them with a scalar result. -/
def execPget (o : OpR) (s : State) : Host.Outcome State Fault Refusal :=
  issue (.pget o) (fun t s => scalarOp 0#2 [] o.d (fun _ => bit64 (t.c.pred o.a.toNat)) t s) s

/-- `brk` (R124, R125): trap BREAK with TVAL 0. -/
def execBrk (o : OpR) (s : State) : Host.Outcome State Fault Refusal :=
  issue (.brk o) (fun _ _ => .error (.trap .brk 0#64)) s
/-- `ecall` (R124, R125): trap ECALL with TVAL the value of a. The trap changes nothing else, so a port source keeps its
value (R129). -/
def execEcall (o : OpR) (s : State) : Host.Outcome State Fault Refusal :=
  issue (.ecall o) (fun t s => match ready t s o.w [o.a] [] with
    | some stop => .error stop
    | none => .error (.trap .ecall (srcVal t s o.w o.a))) s
/-- `eret` (R58, R128): the return from a trap handler. -/
def execEret (o : OpR) (s : State) : Host.Outcome State Fault Refusal :=
  issue (.eret o) (fun t s =>
    if t.csr.tpfx.getLsbD 32 && !validFmt (t.csr.tpfx.extractLsb' 0 32) then
      .error (.trap .prefixMisuse ((t.csr.tpfx.extractLsb' 0 32).zeroExtend 64))
    else .ok (t.leaveTrap, s)) s

end Sys2Proof.Machine
end

