-- ==== Sys2Proof/Machine/Encoder.lean ====
section
/-! DEFINITION. Encoder streams and remote puts at issue (R433-R438). -/

namespace Sys2Proof.Machine

/-! ### `fab.put` (R433) -/

/-- The checks of `fab.put` (R433), in order; `x` is the descriptor (log 96). -/
def fabPutStop (a : Word) (t : Thread) (s : State) : Option Stop :=
  let l := s.near t
  let x := Memory.read l.spad a.toNat 64
  let f (off n : Nat) : Nat := slice x off n
  let note := BitVec.ofNat 64 (f 32 8)
  if a.toNat % 64 ≠ 0 then some (.trap .misaligned a)
  else if l.size < a.toNat + 64 then some (.trap .access a)
  else match l.badAt a.toNat 64 with
    | some b => some (.trap .ue (BitVec.ofNat 64 b))
    | none =>
      if f 25 7 ≠ 0 ∨ f 40 24 ≠ 0 ∨ 64 ≤ f 24 1 ∨ f 16 4 = 0 ∨ 1048576 < f 16 4 ∨ f 20 2 = s.chip.toNat
          ∨ s.reached (f 20 2) = false ∨ 2 ^ 52 ≤ f 0 8 ∨ 2 ^ 52 ≤ f 8 8 then some (.trap .access a)
      else if note ≠ 0#64 ∧ s.handleOk note = false then some (.trap .notAHandle note)
      else none

/-- The messages of a put (R433): at most 4,096 bytes each. -/
def putMessages (src len : Nat) : List Piece :=
  (List.range ((len + 4095) / 4096)).map fun i => ⟨src + 4096 * i, min 4096 (len - 4096 * i), 4096 * i⟩

/-- The queue entry of a put's descriptor (R433): its number is given when it enters the queue; `cursor` keeps SRC. -/
def remotePut (t : Thread) (s : State) (x : Nat) : Xfer :=
  let f (off n : Nat) : Nat := slice x off n
  { id := 0, entry := 0, tid := t.tid, ctx := t.ctx, tag := f 24 1,
    kind := .remote (f 20 2) (f 22 2) (f 8 8) (f 16 4) (BitVec.ofNat 64 (f 32 8)) 0, core := t.coreId, addr := 0, space := 0,
    swz := 0, codec := false, len := f 16 4, bar := none, region := t.region.seq, pieces := putMessages (f 0 8) (f 16 4),
    buf := 0, after := s.earlier t.tid, cursor := f 0 8, acked := 0, early := [] }

/-- `fab.put` (R433) (log 96). -/
def execFabPut (o : OpR) (s : State) : Host.Outcome State Fault Refusal :=
  issueLate (packR 0x28#6 o 3#6) (WellFormed.fabPutOk o) (fun t s => match ready t s o.w [o.a] [] with
    | some stop => .error stop
    | none =>
      let a := srcVal t s o.w o.a
      match fabPutStop a t s with
      | some stop => .error stop
      | none =>
        let x := remotePut t s (Memory.read (s.near t).spad a.toNat 64)
        let (t, s) := payFor t s (spadCost 64)
        taking .xfer t.coreId (decide ((s.core t.coreId).xq.length < Config.transferEntries)) o.w (BitVec.ofNat 64 x.cursor) [o.a]
          (.enqueue x) (fun t s => .ok ((t.tagIssue x.tag).advance, (consume t s [o.a]).enqueue x)) t s) s

/-! ### Encoder streams (R434-R438) -/

/-- An open stream of a job, by its stream word. -/
def State.streamFor (s : State) (ctx : Nat) (w : Word) : Option Stream :=
  s.streams.find? fun k => k.n == w.toNat && k.ctx == ctx && decide (w.toNat < 64)
def State.setStream (s : State) (k : Stream) : State :=
  { s with streams := s.streams.map fun j => if j.n = k.n then k else j }

/-- Whether a field of a frame descriptor breaks R436 (R437). -/
def State.badFrame (s : State) (k : Stream) (x : Nat) : Bool :=
  let f (off n : Nat) : Nat := slice x off n
  let note := BitVec.ofNat 64 (f 48 8)
  f 28 2 % 64 != 0 || decide (f 28 2 < k.width) || f 30 2 != 0 || f 32 8 % 32 != 0 || decide (2 ≤ f 40 1)
    || (k.codec == 1 && decide (51 < f 41 1)) || f 42 2 != 0 || f 56 8 != 0 || (note != 0#64 && !s.handleOk note)

/-- The frame of a descriptor (R436); its number is the stream's next. -/
def frameOf (t : Thread) (s : State) (x : Nat) (n : Word) : Frame :=
  let f (off m : Nat) : Nat := slice x off m
  { num := n, tid := t.tid, luma := f 0 8, chroma := f 8 8, out := f 16 8, outcap := f 24 4, pitch := f 28 2, stat := f 32 8,
    force := f 40 1 % 2 == 1, qp := f 41 1, target := f 44 4, note := BitVec.ofNat 64 (f 48 8), after := s.earlier t.tid }

/-- `enc.post` (R437). -/
def execEncPost (o : OpR) (s : State) : Host.Outcome State Fault Refusal :=
  issueLate (packR 0x28#6 o 0#6) (WellFormed.encPostOk o) (fun t s => match ready t s o.w [o.a, o.b] [o.d] with
    | some stop => .error stop
    | none =>
      let a := srcVal t s o.w o.a
      let b := srcVal t s o.w o.b
      let l := s.near t
      if a.toNat % 64 ≠ 0 then .error (.trap .misaligned a)
      else if l.size < a.toNat + 64 then .error (.trap .access a)
      else match s.streamFor t.ctx b with
        | none => .error (.trap .access b)
        | some k => match l.badAt a.toNat 64 with
          | some e => .error (.trap .ue (BitVec.ofNat 64 e))
          | none =>
            let x := Memory.read l.spad a.toNat 64
            if s.badFrame k x then .error (.trap .access a)
            else
              let n := k.eissued + 1#64
              let frame := frameOf t s x n
              let (t, s) := payFor t s (spadCost 64)
              taking (.frame k.n) 0 (decide (k.frames.length < Config.frameEntries)) o.w a [o.a, o.b] (.frame o.d k.n frame)
                (fun t s => .ok (finish t (s.setStream { k with eissued := n, frames := k.frames ++ [frame] }) o.w [o.a, o.b] o.d n))
                t s) s

/-- `enc.wait` (R438) (log 94). -/
def execEncWait (o : OpR) (s : State) : Host.Outcome State Fault Refusal :=
  issueLate (packR 0x28#6 o 1#6) (WellFormed.encWaitOk o) (fun t s => match ready t s o.w [o.a, o.b] [] with
    | some stop => .error stop
    | none =>
      let a := srcVal t s o.w o.a
      let b := srcVal t s o.w o.b
      match s.streamFor t.ctx a with
      | none => .error (.trap .access a)
      | some k =>
        if k.eissued < b then .error (.trap .access b)
        else if b ≤ k.etl then
          atSync false o.w b [o.a, o.b] (.done true) (fun t s => .ok (t.advance, (consume t s [o.a, o.b]).dropCopies t)) t s
        else .error (.park (wake .timeline (0x04000000 + k.n) b))) s

/-- `enc.tl` (R438). -/
def execEncTl (o : OpR) (s : State) : Host.Outcome State Fault Refusal :=
  issueLate (packR 0x28#6 o 2#6) (WellFormed.encTlOk o) (fun t s => match ready t s o.w [o.a] [o.d] with
    | some stop => .error stop
    | none =>
      let a := srcVal t s o.w o.a
      match s.streamFor t.ctx a with
      | none => .error (.trap .access a)
      | some k => waitFor o.w 0#64 [o.a] (.encTl o.d k.n) t s) s
/-- The answer to `enc.tl`; of a stream closed meanwhile, ACCESS as for one that is not open. -/
def replyEncTl (t : Thread) (s : State) (d : Reg) (n : Nat) : Option (State × Delivery) :=
  match s.streamFor t.ctx (BitVec.ofNat 64 n) with
  | some k => some (s, .scalar d k.etl)
  | none => some (s, .trapped .access (BitVec.ofNat 64 n))

/-- A frame that has waited for an entry takes it (R437), with the next number; where its stream has been closed meanwhile, ACCESS as for
one that is not open. -/
def replyFrame (s : State) (d : Reg) (n : Nat) (f : Frame) : State × Delivery :=
  match s.streams.find? fun k => k.n == n with
  | some k =>
    let num := k.eissued + 1#64
    (s.setStream { k with eissued := num, frames := k.frames ++ [{ f with num := num }] }, .scalar d num)
  | none => (s, .trapped .access (BitVec.ofNat 64 n))

/-- What the check of one of a frame's buffers gives. -/
inductive BufferCheck where
  | ok
  | wait
  | page (s : State)
  | bad (status : Nat)

/-- The 64 KiB pages of a range, each by its first address. -/
def pageBases (va n : Nat) : List Nat :=
  if n = 0 then [] else (List.range ((va + n - 1) / 65536 - va / 65536 + 1)).map fun i => (va / 65536 + i) * 65536

/-- Check a range page by page; `used` tells which of its bytes a read needs (R389, R437). -/
def State.checkBuffer (s : State) (ctx : Nat) (need : Need) (who : FaultWaiter) (used : Nat → Bool) : List Nat → BufferCheck
  | [] => .ok
  | va :: rest =>
    match s.checkPiece ctx none need va 1 who none with
    | .wait => .wait
    | .page s' => .page s'
    | .fail c _ => .bad (if c = .ue then 3 else 2)
    | .ok pa _ =>
      let base := pa / 65536 * 65536
      let hit (w : Nat) : Bool := w / 65536 * 65536 == base && (List.range 8).any fun i => used (va + (w - base) + i)
      if need == .read && s.poison.any hit then .bad 3 else s.checkBuffer ctx need who used rest

/-- Whether an address lies in a row of a plane. -/
def inPlane (va width rows pitch a : Nat) : Bool :=
  decide (va ≤ a) && decide ((a - va) / pitch < rows) && decide ((a - va) % pitch < width)
/-- Check a plane (R434). -/
def State.checkPlane (s : State) (ctx : Nat) (who : FaultWaiter) (va width rows pitch : Nat) : BufferCheck :=
  s.checkBuffer ctx .read who (inPlane va width rows pitch) (pageBases va (pitch * (rows - 1) + width))

/-- The first check that is not passed. -/
def firstCheck : List (Unit → BufferCheck) → BufferCheck
  | [] => .ok
  | f :: fs => match f () with
    | .ok => firstCheck fs
    | r => r

/-- Write bytes of the bitstream, each a free value (log 24), where the tables still allow it. -/
def State.writeBits (s : State) (ctx va : Nat) : Nat → Nat → State
  | 0, _ => s
  | n + 1, i => (s.jobWrite ctx (va + i) 1 (Config.bitstream s.freeCtr i).toNat).writeBits ctx va n (i + 1)

/-- Whether a frame must be a keyframe (R434, R436, R437): the first of its stream, one that asks for it, one after a failed frame, or
one that the keyframe interval makes due (log 95). -/
def Stream.keyDue (k : Stream) (f : Frame) : Bool := f.force || k.nextKey || decide (k.keyint ≤ k.sinceKey)
/-- The end of a frame (R437): its bitstream, its status record, ETL, its note. A status record that may not be written is
not (log 95). -/
def State.endFrame (s : State) (k : Stream) (f : Frame) (status n : Nat) (stat : Bool) : State :=
  let key := k.keyDue f || Config.keyFrame s.freeCtr
  let s := (if status < 2 then s.writeBits k.ctx f.out n 0 else s).tickFree
  let word := f.num.toNat + 2 ^ 64 * (n + 2 ^ 32 * status + 2 ^ 40 * key.toNat) + 2 ^ 128 * s.now
  let s := if stat then s.jobWrite k.ctx f.stat 32 word else s
  let s := s.setStream { k with
    etl := f.num, frames := k.frames.drop 1, nextKey := status != 0, sinceKey := if key then 1 else k.sinceKey + 1 }
  if f.note = 0#64 then s
  else s.sendNote ⟨.resolve, f.note, BitVec.ofNat 64 (f.num.toNat * 256 + status), 0#8, f.tid, k.ctx, 0, false, [], false, none⟩

/-- FRAME_COMPLETE (R437): the oldest frame of a stream completes with a bitstream of `bytes` bytes; page faults are served
first (log 24, 95). -/
def execFrameComplete (stream bytes : Nat) (s : State) : Host.Outcome State Fault Refusal :=
  match s.streams.find? fun k => k.n == stream with
  | none => .refused .notEnabled
  | some k => match k.frames.head? with
    | none => .refused .notEnabled
    | some f =>
      let who := FaultWaiter.encoder stream
      let n := min bytes f.outcap
      let stat := s.checkBuffer k.ctx .write who (fun _ => true) (pageBases f.stat 32)
      let writes : Bool := match stat with
        | .ok => true
        | _ => false
      let rest := firstCheck [fun _ => s.checkPlane k.ctx who f.luma k.width k.height f.pitch,
        fun _ => s.checkPlane k.ctx who f.chroma k.width (k.height / 2) f.pitch,
        fun _ => s.checkBuffer k.ctx .write who (fun _ => true) (pageBases f.out n)]
      if s.faulting who || !s.performed f.after || decide (2 ^ 32 ≤ bytes) then .refused .notEnabled
      else match rest, stat with
        | .wait, _ => .refused .notEnabled
        | .page s, _ => .next s
        | _, .wait => .refused .notEnabled
        | _, .page s => .next s
        | .bad status, _ => .next (s.endFrame k f status 0 writes)
        | .ok, _ => .next (s.endFrame k f (if f.outcap < bytes then 1 else 0) n writes)

/-- A fault's server denies or poisons a page that an encoder waits on (R204, R437): the frame completes with the status. -/
def State.encoderFault (s : State) (stream status : Nat) : State :=
  match s.streams.find? fun k => k.n == stream with
  | some k => match k.frames.head? with
    | some f =>
      let stat : Bool := match s.checkBuffer k.ctx .write (.encoder stream) (fun _ => true) (pageBases f.stat 32) with
        | .ok => true
        | _ => false
      s.endFrame k f status 0 stat
    | none => s
  | none => s

end Sys2Proof.Machine
end

