-- ==== Sys2Proof/Machine/Privileged.lean ====
section
/-! DEFINITION. Ownership of cores and clusters (R75, R76, R445, R448), and the privileged instructions of opcode 0x29
(R444-R447). -/

namespace Sys2Proof.Machine

/-! ### Grants (R445, R448) -/

/-- What a grant or a revocation names. `rsv` says that a field is outside its set. -/
structure Grant where
  cl : Nat
  cores : Nat
  ctx : Nat
  reg : Nat
  l1 : Nat
  tagged : Nat
  vault : Nat
  rsv : Bool
  deriving DecidableEq, Repr

/-- The grant record of R445, from its 64 bytes. -/
def grantOf (x : Nat) : Grant :=
  let f (off n : Nat) : Nat := slice x off n
  { cl := 64 * f 0 1 + f 1 1, cores := f 2 2, ctx := f 4 2, reg := f 6 1, l1 := f 7 1, tagged := f 8 1, vault := f 16 8,
    rsv := decide (2 ≤ f 0 1) || decide (64 ≤ f 1 1) || f 2 2 == 0 || decide (4096 ≤ f 4 2) || f 9 7 != 0 || f 24 40 != 0 }

/-- The cores a grant names. -/
def Grant.named (g : Grant) : List Nat := ((List.range 16).filter fun k => g.cores / 2 ^ k % 2 == 1).map (clusterCore g.cl)

/-- Whether a split keeps R73 and its tagged region lies in the scratchpad (R97). -/
def splitOk (reg l1 tagged : Nat) : Bool :=
  decide (6 ≤ reg ∧ reg ≤ 24) && decide (4 ≤ l1 ∧ l1 ≤ 48) && l1 % 4 == 0 && decide (reg + l1 + tagged ≤ 64)

/-- Whether a vault address is 4 MiB-aligned and present (R445). -/
def State.vaultOk (s : State) (pa : Nat) : Bool := pa % 2 ^ 22 == 0 && s.present pa

/-- The status of a grant's checks (R445); where more than one fails, the reserved fields first, then the lowest (log 97). -/
def State.grantStatus (s : State) (g : Grant) : Nat :=
  let k := s.cluster g.cl
  if g.rsv then 6
  else if g.named.any fun c => (s.core c).owner.any (· != g.ctx) then 1
  else if !splitOk g.reg g.l1 g.tagged then 2
  else if k.owner.any (· != g.ctx) || (k.owner.isNone && !s.vaultOk g.vault) then 3
  else if !k.released then 4
  else 0

/-- Whether a core holds a task, a restore, a handler or a transfer of its job (R445). -/
def State.coreBusy (s : State) (core : Nat) : Bool :=
  !(s.core core).xq.isEmpty || s.threads.any fun t => match t.loc with
    | .phase c _ => c == core
    | .slot c _ => c == core
    | _ => false

/-- The status of a revocation's checks (R445). -/
def State.revokeStatus (s : State) (g : Grant) : Nat :=
  if g.rsv then 6
  else if g.named.any fun c => (s.core c).owner != some g.ctx then 1
  else if g.named.any fun c => s.coreBusy c then 5
  else 0

/-- Zero a range of HBM; its poison is cleared and no L1 copy of it stays (R447, R448). -/
def State.zeroRange (s : State) (pa n : Nat) : State :=
  ({ s with mem := Memory.clear s.mem pa n,
            poison := s.poison.filter fun w => decide (w + 8 ≤ pa) || decide (pa + n ≤ w) } : State).dropRange pa n fun _ => false

/-- A core given to a job: all of it zero (R76, R162, R182), with its split and owner tags (R185). -/
def Core.granted (id : Nat) (g : Grant) : Core :=
  { Core.blank id with owner := some g.ctx, poolReg := g.reg, poolSpad := 64 - g.reg - g.l1, poolL1 := g.l1, tagged := g.tagged }

/-- A cluster whose resources no job holds: zero, but for the generations, each of which has advanced over the notes
it named (R271, R448) (log 97). -/
def Cluster.freed (k : Cluster) : Cluster :=
  { k with
    owner := none, tile := [], tileUE := [], ltags := [], engines := [], dslots := [], notes := [],
    gens := k.notes.foldl (fun g n => assign g n.index ((lookupD g n.index 0 + 1) % 2 ^ 24)) k.gens,
    records := [], contracts := [], ending := [], slots := [], vault := 0 }

/-- Free a cluster's resources and zero its vault (R271, R448). -/
def State.freeCluster (s : State) (cl : Nat) : State :=
  let k := s.cluster cl
  (s.zeroRange k.vault (2 ^ 22)).setCluster k.freed

/-- Perform a grant (R445, R448): the cluster's resources if the job does not hold them yet, then the named cores; a core
that the job owns already is left as it is (log 97). -/
def State.grant (s : State) (g : Grant) : State :=
  let k := s.cluster g.cl
  let s := if k.owner.isSome then s
    else (s.zeroRange g.vault (2 ^ 22)).setCluster { k.freed with owner := some g.ctx, vault := g.vault }
  g.named.foldl (fun s c => if s.owns g.ctx c then s else s.setCore (Core.granted c g)) s

/-- Perform a revocation (R445, R448): the cores become unowned; with the job's last core of the cluster its resources (log 97). -/
def State.revoke (s : State) (g : Grant) : State :=
  let s := g.named.foldl (fun s c => s.setCore (Core.blank c)) s
  if (List.range 16).any fun k => s.owns g.ctx (clusterCore g.cl k) then s
  else if s.holds g.ctx g.cl then s.freeCluster g.cl
  else s

/-! ### The instructions (R444-R447) -/

/-- `own.grant` and `own.revoke` (R445): the record is read at issue. -/
def ownOp (o : OpR) (grant : Bool) (t : Thread) (s : State) : Done :=
  match ready t s o.w [o.a] [o.d] with
  | some stop => .error stop
  | none =>
    let a := srcVal t s o.w o.a
    let l := s.near t
    if a.toNat % 64 ≠ 0 then .error (.trap .misaligned a)
    else if l.size < a.toNat + 64 then .error (.trap .access a)
    else match l.badAt a.toNat 64 with
      | some e => .error (.trap .ue (BitVec.ofNat 64 e))
      | none => waitFor o.w a [o.a] (.own grant o.d (Memory.read l.spad a.toNat 64)) t s

/-- `own.grant` (R445). -/
def execOwnGrant (o : OpR) (s : State) : Host.Outcome State Fault Refusal :=
  issueLate (packR 0x29#6 o 0#6) (WellFormed.ownGrantOk o) (ownOp o true) s
/-- `own.revoke` (R445). -/
def execOwnRevoke (o : OpR) (s : State) : Host.Outcome State Fault Refusal :=
  issueLate (packR 0x29#6 o 1#6) (WellFormed.ownRevokeOk o) (ownOp o false) s
/-- The reply of `own.grant` and `own.revoke`: all is checked, then done, and d receives the status (R445). One that zeroes a
vault waits for the vault's stacks (R388). -/
def replyOwn (s : State) (grant : Bool) (d : Reg) (rec : Nat) : Option (State × Delivery) :=
  let g := grantOf rec
  let status := if grant then s.grantStatus g else s.revokeStatus g
  let s' := if status ≠ 0 then s else if grant then s.grant g else s.revoke g
  if (s'.cluster g.cl).owner != (s.cluster g.cl).owner && !s.rangeAwake (if grant then g.vault else (s.cluster g.cl).vault) (2 ^ 22) then none
  else some (s', .scalar d (BitVec.ofNat 64 status))

/-- `pinv` (R446): the effect of `fence.tlb` for the job named by d (log 98). -/
def execPinv (o : OpR) (s : State) : Host.Outcome State Fault Refusal :=
  issueLate (packR 0x29#6 o 2#6) (WellFormed.pinvOk o) (fun t s => match ready t s o.w [o.d, o.a, o.b] [] with
    | some stop => .error stop
    | none =>
      let d := srcVal t s o.w o.d
      let a := srcVal t s o.w o.a
      let b := srcVal t s o.w o.b
      if 4095 < d.toNat then .error (.trap .access d)
      else if 2 ^ 52 ≤ a.toNat then .error (.trap .access a)
      else waitFor o.w a [o.d, o.a, o.b] (.tlb d.toNat a b (s.earlier t.tid)) t s) s

/-- `pzero` (R447). -/
def execPzero (o : OpR) (s : State) : Host.Outcome State Fault Refusal :=
  issueLate (packR 0x29#6 o 3#6) (WellFormed.pzeroOk o) (fun t s => match ready t s o.w [o.d, o.a] [o.d] with
    | some stop => .error stop
    | none =>
      let a := srcVal t s o.w o.a
      let len := (srcVal t s o.w o.d).toNat
      if len = 0 ∨ len % 65536 ≠ 0 ∨ 2 ^ 30 < len ∨ a.toNat % 65536 ≠ 0
          ∨ ((List.range (len / 65536)).any fun i => !s.present (a.toNat + 65536 * i)) then .error (.trap .access a)
      else waitFor o.w a [o.d, o.a] (.pzero o.d a.toNat len) t s) s
/-- The reply of `pzero`: every byte is zero (R447), once the range's stacks answer (R388). -/
def replyPzero (s : State) (d : Reg) (pa len : Nat) : Option (State × Delivery) :=
  if s.rangeAwake pa len then some (s.zeroRange pa len, .scalar d 0#64) else none

end Sys2Proof.Machine
end

