-- ==== Sys2Proof/Machine/Jobs.lean ====
section
/-! DEFINITION. The end of a job (R271, R316, R417, R426, R438, R448), and what ends one: the die-to-die link (R427), an
uncorrectable array word (R187), a save frame that cannot be read (R140, R454). -/

namespace Sys2Proof.Machine

/-- The tasks of a job. -/
def State.tasksOf (s : State) (ctx : Nat) : List Thread :=
  s.threads.filter fun t => t.ctx == ctx && !t.isFw && t.handler.isNone

/-- The total energy of a job (R316): its own total and every live PURSE, saturating (log 10). -/
def State.jobEnergy (s : State) (ctx : Nat) : Word :=
  BitVec.ofNat 64 (min (2 ^ 64 - 1)
    ((s.tasksOf ctx).foldl (fun n t => n + t.csr.purse.toNat) (((s.job? ctx).map (·.energy)).getD 0)))

/-- Perform all outstanding stores of a job in order (log 99). -/
def State.flushJob (s : State) (ctx : Nat) : State :=
  (s.stores.filter fun x => x.ctx == ctx).foldl (fun s x => s.performStore x) s

/-- The job whose queue or channel a waiter waits at. -/
def State.keyCtx (s : State) (k : QKey) : Nat :=
  match k with
  | .push ctx _ => ctx
  | .pop ctx _ => ctx
  | .send p _ => ((s.pipelines.find? fun x => x.id == p).map (·.ctx)).getD 4096
  | .recv p _ => ((s.pipelines.find? fun x => x.id == p).map (·.ctx)).getD 4096

/-- Take away everything of a job that is in flight or waits for the device (R271, R417, R438) (log 99). -/
def State.dropJobWork (s : State) (ctx : Nat) : State :=
  { s with
    threads := s.threads.filter fun t => t.ctx != ctx || t.isFw,
    noteOps := s.noteOps.filter fun o => o.ctx != ctx,
    tails := s.tails.filter fun o => o.ctx != ctx,
    faults := s.faults.filter fun f => f.ctx != ctx,
    qwaits := s.qwaits.filter fun w => s.keyCtx w.key != ctx,
    pipelines := s.pipelines.filter fun p => p.ctx != ctx,
    queries := s.queries.filter fun q => q.ctx != ctx,
    streams := s.streams.filter fun k => k.ctx != ctx,
    tlb := s.tlb.filter fun e => e.ctx != ctx,
    grants := s.grants.filter fun g => g.1 != ctx,
    migrations := s.migrations.filter fun m => m.ctx != ctx,
    funcs := s.funcs.map fun f =>
      { f with aperture := f.aperture.filter fun a => a.1 != ctx, doorbells := f.doorbells.filter fun d => d.2.1 != ctx } }

/-- The mappings of a job's queues are cleared with it (R281). -/
def State.clearMaps (s : State) (ctx : Nat) : State :=
  (s.clusters.flatMap fun c => c.slots.filter fun m => m.ctx == ctx).foldl (fun s m => match s.qdesc ctx m.q with
    | some d => s.qset ctx m.q 5 (d.map &&& ~~~(1#64 <<< 63))
    | none => s) s

/-- Give back a job's cores and clusters, all zero (R448). -/
def State.disown (s : State) (ctx : Nat) : State :=
  let held := (s.clusters.filter fun k => k.owner == some ctx).map (·.id)
  held.foldl (fun s cl => s.freeCluster cl) 
    { s with
      cores := s.cores.filter fun c => c.owner != some ctx, icache := s.icache.filter fun e => !s.owns ctx e.1,
      icacheUE := s.icacheUE.filter fun e => !s.owns ctx e.1 }

/-- End a job (R271): the stores it has issued are performed, its energy is reported, its function is told, and nothing of it
stays (log 99). -/
def State.endJob (s : State) (ctx reason : Nat) : State :=
  match s.job? ctx with
  | none => s
  | some j =>
    let tasks := s.tasksOf ctx
    let s := s.flushJob ctx
    let s := s.report ctx 0x0B 0 (s.jobEnergy ctx) 0#64 []
    let s := (tasks.foldl (fun s t => s.forgetRaces t.num) s).clearMaps ctx
    let s := (s.dropJobWork ctx).disown ctx
    ({ s with jobs := s.jobs.filter fun k => k.ctx != ctx } : State).postEvent j.func 0x0E ctx
      (reason + 2 ^ 64 * tasks.length + 2 ^ 128 * s.now)

/-- A save frame of a layout that the tellers do not implement (R140, R454): its address is reported and its job ends (log 69). -/
def State.frameUnread (s : State) (ctx va : Nat) : State :=
  (s.report ctx 0x0A 0 (BitVec.ofNat 64 va) (BitVec.ofNat 64 (s.jobRead ctx va 2)) []).endJob ctx 4

/-- LINK_DOWN (R427): the die-to-die link cannot deliver; every job ends. -/
def execLinkDown (s : State) : Host.Outcome State Fault Refusal :=
  let s := (s.jobs.map (·.ctx)).foldl (fun s ctx => s.endJob ctx 3) s
  .next (s.postEvent 0 0x08 0xFFFF (2 ^ 128 * s.now))

/-- FLIT_RETRY (R427): a flit is sent again, which changes only time. -/
def execFlitRetry (s : State) : Host.Outcome State Fault Refusal := .next s

/-- What the scrubber reads: whether the word is uncorrectable, and its owner tag (R185, R187). A pool address below the
register area's end lies in one of the core's context slots, taken in the order in which the state lists its contexts (log 101). -/
def State.scrubPool (s : State) (core addr : Nat) : Bool × Option Nat :=
  let c := s.core core
  let base := c.poolReg * 4096
  let here := s.threads.filter fun t => match t.loc with
    | .phase k _ => k == core
    | .slot k _ => k == core
    | _ => false
  if addr < base then ((here[addr / 3072]?).any fun t => !t.c.ue.isEmpty, c.owner)
  else (c.spadUE.contains ((addr - base) / 8 * 8), c.owner)

/-- ARRAY_SCRUB (R187): the scrubber reads a word of a core's pool or of a cluster's tile store. An uncorrectable word ends
the job of its owner tag; a line of no owner is rewritten with zero (log 101). -/
def execArrayScrub (tile : Bool) (place addr : Nat) (s : State) : Host.Outcome State Fault Refusal :=
  if tile then
    let k := s.cluster place
    if 128 ≤ place ∨ 2 ^ 22 ≤ addr then .refused .notEnabled
    else if !k.tileUE.contains (addr / 16 * 16) then .next s
    else match k.owner with
      | some ctx => .next (s.endJob ctx 2)
      | none =>
        let line := addr / 128 * 128
        .next (s.setCluster { k with tile := Memory.clear k.tile line 128, tileUE := healed k.tileUE 16 line 128 })
  else
    if 2048 ≤ place ∨ 262144 ≤ addr then .refused .notEnabled
    else match s.scrubPool place addr with
      | (false, _) => .next s
      | (true, some ctx) => .next (s.endJob ctx 2)
      | (true, none) =>
        let line := addr / 128 * 128
        .next (s.modCore place fun c => { c with spad := Memory.clear c.spad line 128, spadUE := healed c.spadUE 8 line 128 })

end Sys2Proof.Machine
end

