-- ==== Sys2Proof/Machine/Ready.lean ====
section
/-! DEFINITION. Which ready task may take which place, and which comes first (R88, R117, R137, R149, R251, R253, R304, R306, R322). -/

namespace Sys2Proof.Machine

/-! ### Places (R88, R117, R137, R149, R251, R322) -/

/-- The core from which a restore starts its walk (R137, R149). -/
def Thread.origin (t : Thread) : Nat :=
  match t.loc with
  | .frame _ _ _ (some cl) => clusterCore cl 0
  | _ => t.coreId

/-- Whether a frame holds an engine context (R138). -/
def State.frameHasEngine (s : State) (ctx va : Nat) : Bool :=
  ((s.job? ctx).map fun j => lookupD j.frames va 1).getD 1 == 17

/-- Whether a ready task may take a phase (R88, R117, R137, R251, R322). -/
def State.mayTakePhase (s : State) (t : Thread) (core phase : Nat) : Bool :=
  s.owns t.ctx core && match t.loc with
    | .slot c p => c == core && (!t.csr.pin || p == phase)
    | .frame va c p _ =>
      if t.csr.pin then c == core && p == phase
      else if t.radius = 0 then core == t.origin
      else decide (hops (coreCluster core) (coreCluster t.origin) < t.radius)
        && (!s.frameHasEngine t.ctx va.toNat || coreCluster core == coreCluster c)
    | _ => false

/-- Whether a marked task may move to its target: it is not pinned or held, it holds no engine context, and a core of its job there
may take it (R149, R322) (log 54). -/
def State.migrates (s : State) (t : Thread) : Bool :=
  let there (cl : Nat) : Bool :=
    let u := { t with loc := .frame 0#64 t.coreId t.lastPhase (some cl) }
    s.cores.any fun c => s.mayTakePhase u c.id 0
  !t.csr.pin && !t.csr.migoff && (s.engineOf t).isNone && t.migTarget.any there
/-- Whether a task's blocking point evicts it for its migration before it goes on (R149); one whose frame finds no room stays (R138)
(log 54). -/
def State.mustMigrate (s : State) (t : Thread) : Bool := t.blocked && s.migrates t && (s.evict t 0 true).isSome
/-- Whether a task's blocking point evicts it before it goes on: for its migration (R149), or at a pre-emption request (R306). -/
def State.mustLeave (s : State) (t : Thread) : Bool :=
  s.mustMigrate t || (t.request.isSome && t.blocked && (s.evict t 0 false).isSome)

/-! ### Who is ready (R304) -/

/-- Whether a task without a phase is ready: its condition has fired or its reply is there (R117, R137). -/
def Thread.waitsPhase (t : Thread) : Bool :=
  t.phase?.isNone && match t.run with
    | .runnable => true
    | .parked _ fired => fired
    | .out _ (.replied _) => true
    | _ => false

/-- The level of a record in its store (R309). -/
def State.heldLevel (s : State) (cl : Nat) (h : Held) : Nat :=
  if !(s.cluster cl).contracts.isEmpty && h.contract.isNone then max h.level.toNat 64 else h.level.toNat

/-- The keys of R304, in order. -/
def State.taskKey (s : State) (t : Thread) : List Nat := [s.level t, t.readyAt, 0, t.tid, 0, 0]
def State.recordKey (s : State) (cl : Nat) (h : Held) : List Nat :=
  [s.heldLevel cl h, h.readyAt.getD 0, 1, h.arrived, cl, h.id]
/-- Lexicographic order of keys. -/
def keyBefore : List Nat → List Nat → Bool
  | a :: as, b :: bs => decide (a < b) || (a == b && keyBefore as bs)
  | _, _ => false

/-- The ready records of a job that may take a core's phase. -/
def State.recordsFor (s : State) (ctx core : Nat) : List (Nat × Held) :=
  s.clusters.flatMap fun k =>
    (k.records.filter fun h => h.ctx == ctx && h.readyAt.isSome && h.r.inRegion h.hint core).map fun h => (k.id, h)
/-- The keys of all that is ready for a phase; records take free phases only (R251). -/
def State.rivals (s : State) (ctx core phase : Nat) (free : Bool) : List (List Nat) :=
  (s.threads.filter fun t => t.ctx == ctx && t.waitsPhase && s.mayTakePhase t core phase).map s.taskKey
    ++ if free then (s.recordsFor ctx core).map fun e => s.recordKey e.1 e.2 else []
/-- Whether a key comes before every other (log 105). -/
def foremost (key : List Nat) (rivals : List (List Nat)) : Bool := rivals.all fun k => !keyBefore k key
/-- Whether no ready task or record of a job that may run on a core, in whatever phase, has a higher priority than a level (R117)
(log 105). -/
def State.noneAbove (s : State) (ctx core level : Nat) : Bool :=
  (s.threads.all fun t => t.ctx != ctx || !t.waitsPhase || !(List.range 7).any (s.mayTakePhase t core) || decide (level ≤ s.level t))
    && (s.recordsFor ctx core).all fun e => decide (level ≤ s.heldLevel e.1 e.2)

/-! ### Making way (R126, R142) -/

/-- The free phase that an evicted task is offered first, from the core or cluster where its walk starts (R137, R252, R253) (log 70). -/
def State.restorePlace (s : State) (t : Thread) : Option (Nat × Nat) :=
  (clustersFrom t.origin).findSome? fun cl => (coresFrom cl t.origin).findSome? fun c =>
    if s.owns t.ctx c then
      ((List.range 7).find? fun p => s.mayTakePhase t c p && s.phaseFree c p).map fun p => (c, p)
    else none
/-- Whether a ready task of a level no lower than the one of a thread that yielded or overran its budget takes the thread's phase
(R117, R126, R142). -/
def State.succeeds (s : State) (t u : Thread) (core phase : Nat) : Bool :=
  u.tid != t.tid && u.waitsPhase && !s.mustLeave u && s.mayTakePhase u core phase && decide (s.level u ≤ s.level t)
    && (!u.evicted || (s.slotFree core && (s.restorePlace u).isNone && !s.frameHasEngine u.ctx (u.frameVa.getD 0)))
    && foremost (s.taskKey u) (s.rivals u.ctx core phase false) && s.noneAbove u.ctx core (s.level u)
/-- Whether a thread that yielded or overran its budget makes way for another task before it goes on (R126, R142). -/
def State.makesWay (s : State) (t : Thread) : Bool :=
  match t.loc, t.run with
  | .phase core phase, .parked w true =>
    (w.kind == .yield || w.kind == .budget) && s.threads.any fun u => u.ctx == t.ctx && s.succeeds t u core phase
  | _, _ => false

end Sys2Proof.Machine
end

