-- ==== Sys2Proof/Machine/Fetch.lean ====
section
/-! DEFINITION. A thread's slots (R113, R115, R319), its instruction fetch (R116, R442, R449), and the cycles that time may not pass
(R143, R228). -/

namespace Sys2Proof.Machine

/-! ### Slots (R113, R319) -/

/-- The first cycle of a phase at or after `now` and after its last issue (R113). -/
def slotCycle (now last phase : Nat) : Nat :=
  let m := max now (last + 1)
  m + (phase + 8 - m % 8) % 8

/-- Whether a thread's slots are never masked (R319). -/
def State.unmasked (s : State) (t : Thread) : Bool :=
  t.isFw || t.lastPhase == 7 || t.request.isSome
    || (s.cluster t.cluster).contracts.any fun k => k.band == s.level t

/-- The cycle at which a thread issues next; the slots that the duty masks pass (R319). -/
def State.issueCycle (s : State) (t : Thread) : Nat :=
  let c := slotCycle s.now t.lastIssue (t.lastPhase % 8)
  let d := s.duty
  if s.unmasked t || decide (c / 8 % 16 < d) then c else c + 8 * (16 - c / 8 % 16)

/-- Whether a thread may take its next slot (R113, R115, R136): it holds a phase and is runnable, or its condition has
fired; during an update no task goes on from a blocking point (R454), nor one that is evicted or makes way there (R126, R142, R149,
R306). A halted firmware core issues nothing (R441). -/
def State.maySlot (s : State) (t : Thread) : Bool :=
  t.phase?.isSome
    && (match t.loc with
      | .fw d n _ => !(s.fwcore d n).halted
      | _ => true)
    && (match t.run with
      | .runnable => true
      | .parked _ fired => fired && (s.quiesce.isNone || t.isFw || t.handler.isSome) && !s.mustLeave t
        && !s.makesWay t
      | _ => false)

/-! ### What time may not pass (R143, R228) -/

/-- Whether a thread's wait has ended: its condition has fired or its answer is there. -/
def Run.ended : Run → Bool
  | .runnable => true
  | .parked _ f => f
  | .saving _ none f _ _ => f
  | .out _ (.replied _) => true
  | .saving _ (some (.replied _)) _ _ _ => true
  | .out _ (.touch _ _ _ _ r) => r.isSome
  | .saving _ (some (.touch _ _ _ _ r)) _ _ _ => r.isSome
  | .restoring _ none f => f
  | .restoring _ (some (.replied _)) _ => true
  | _ => false

/-- The expiry cycle of a limited wait that has not ended (R143); expiries during an update wait for its end (R454). -/
def State.expiry? (s : State) (t : Thread) : Option Nat :=
  match t.run.wake?, t.wait with
  | some w, some r =>
    if !t.run.ended && s.quiesce.isNone && w.kind.counts && r.limit != 0 then some (r.since + r.limit) else none
  | _, _ => none
/-- The window of an announced sc operation (R228). -/
def Pending.announced : Pending → Option Nat
  | .ordered _ .sc _ _ _ _ _ _ _ _ _ w => w
  | .fence _ _ true _ _ w => w
  | _ => none
/-- The cycle at which a window clears (R228). -/
def clearingCycle (w : Nat) : Nat := 32 * (w + 1) + 16
/-- The windows announced and not cleared (R228). -/
def State.openWindows (s : State) : List Nat :=
  s.threads.filterMap fun t => (t.run.pending.bind (·.announced)).filter fun w => decide (s.cleared ≤ w)
/-- The last cycles that may pass before something must happen: an expiry of a wait at the end of its cycle (R143), or a clearing
at the start of its own (R228). -/
def State.deadlines (s : State) : List Nat := s.threads.filterMap s.expiry? ++ s.openWindows.map fun w => clearingCycle w - 1
/-- Whether a cycle may begin (log 3). -/
def State.passable (s : State) (c : Nat) : Bool := s.deadlines.all fun d => decide (c ≤ d)
/-- Whether nothing more happens in the cycles up to a deadline: no slot is left in them, and no earlier deadline. -/
def State.reachedBy (s : State) (d : Nat) : Bool :=
  s.deadlines.all (fun e => decide (d ≤ e)) && s.threads.all fun u => !s.maySlot u || decide (d < s.issueCycle u)
/-- The state at the start of the cycle after a deadline. -/
def State.pastDeadline (s : State) (d : Nat) : State := { s with cycle := BitVec.ofNat 64 (max s.now (d + 1)) }

/-- Whether no thread's slot comes before this one's, and time may reach it (R113) (log 3). -/
def State.soonest (s : State) (t : Thread) : Bool :=
  s.passable (s.issueCycle t) && s.threads.all fun u => !s.maySlot u || decide (s.issueCycle t ≤ s.issueCycle u)
/-- The thread whose slot comes next; of several in one cycle the current one, else the first listed (log 3). -/
def State.nextSlot (s : State) : Option Thread :=
  let ready := s.threads.filter s.maySlot
  match ready.map s.issueCycle with
  | [] => none
  | c :: cs =>
    let first := cs.foldl min c
    let ready := ready.filter fun t => decide (s.issueCycle t ≤ first)
    if !s.passable first then none
    else match ready.find? fun t => t.tid == s.cur with
      | some t => some t
      | none => ready.head?

/-- A thread that takes up its blocking instruction again (R136): a wait that counts goes on if it parks again, also after a budget
overrun at that instruction (R142, R143); another is over (R202) (log 53). -/
def Thread.resume (t : Thread) : Thread :=
  match t.run with
  | .parked w true => { t with run := .runnable, wait := t.wait.filter fun r => w.kind.counts || (w.kind == .budget && !r.fetch) }
  | _ => t

/-- The state at a thread's slot, which the slot uses up, whatever comes of it (R113, R130). -/
def State.atSlot (s : State) (t : Thread) : State :=
  let now := s.issueCycle t
  { s.setThread { t.resume with lastIssue := now } with cur := t.tid, cycle := BitVec.ofNat 64 now }

/-! ### Fetch (R116) -/

/-- What a fetch gives (R116); one that misses leaves the rotation with what it awaits. -/
inductive Fetched where
  | word (w : W32)
  | miss (p : Pending)
  | access
  | ue
  | page (stop : WalkStop)
  deriving DecidableEq, Repr

/-- The word of the boot ROM at a physical address (log 28). -/
def romWord (pa : Nat) : W32 := Config.romByte (pa + 3) ++ Config.romByte (pa + 2) ++ Config.romByte (pa + 1) ++ Config.romByte pa
/-- Whether an instruction cache holds the line of an address (R116) (log 45). -/
def State.cached (s : State) (unit pa : Nat) : Bool := s.icache.contains (unit, pa / 128 * 128)
/-- A line enters an instruction cache (R116). -/
def State.cacheLine (s : State) (unit pa : Nat) : State :=
  if s.cached unit pa then s
  else
    let line := pa / 128 * 128
    { s with icache := (unit, line) :: s.icache, icacheUE := s.icacheUE.filter fun w => !(w.1 == unit && w.2 / 128 * 128 == line) }

/-- Fetch the word at a thread's PC: from its instruction cache, whose lines hold what memory holds (log 45), or on a firmware core
where no HBM stands from the boot ROM, whose bytes are free values (log 28). -/
def State.fetch (s : State) (t : Thread) : Fetched :=
  let va := t.pc.toNat
  let walk : Fetched := .miss (.walk .fetch t.pc 4 s.nextId (.fetch t.pc))
  if !s.translated t .fetch va then walk
  else match s.access t .fetch va 4 with
    | .asleep => walk
    | .access => .access
    | .ue => .ue
    | .page w => .page w
    | .ok pa _ =>
      if t.isFw && !s.present pa then .word (romWord pa)
      else if !s.cached t.unit pa then .miss (.fetch t.pc)
      else if (s.poisonAt pa 4).isSome || s.icacheUE.contains (t.unit, pa / 4 * 4) then .ue
      else .word (BitVec.ofNat 32 (s.peek pa 4))

/-- A thread parked before its instruction issues: a wait that the instruction has begun stays, and one begun now is none of its own
(R143) (log 53). -/
def Thread.parkedAside (t u : Thread) : Thread :=
  { u with wait := u.wait.map fun r => { r with fetch := r.fetch || t.wait.isNone } }
/-- Leave the rotation for a fetch that misses (R116). -/
def Thread.missFetch (t : Thread) (now : Nat) (p : Pending) : Thread := t.parkedAside (t.leave now (memWake 0#2 t.pc) p)
/-- What the reply of a fetch leaves: the thread fetches again, at its next slot (R115, R116). -/
def Thread.refetch (now : Nat) (t : Thread) : Thread :=
  let run : Run := match t.run with
    | .out w _ => if t.phase?.isSome then .runnable else .parked w true
    | .saving w _ _ va m => .saving w none true va m
    | .restoring w _ _ => .restoring w none true
    | r => r
  let t := { t with run := run, wait := t.wait.filter fun r => !r.fetch }
  if t.phase?.isSome then t else t.becomeReady now
/-- The reply of a fetch: its line is there, unless its stack does not answer (R116, R388). -/
def State.fetchReply (s : State) (t : Thread) (va : Word) : Option State :=
  match s.access t .fetch va.toNat 4 with
  | .asleep => none
  | .ok pa _ => if s.awake pa then some ((s.cacheLine t.unit pa).modThread t.tid (Thread.refetch s.now)) else none
  | _ => some (s.modThread t.tid (Thread.refetch s.now))

end Sys2Proof.Machine
end

