-- ==== Sys2Proof/Machine/Sched.lean ====
section
/-! DEFINITION. The tellers' scheduling (R117, R118, R137, R141-R149, R304-R306): lending, eviction, restore, budgets, wait
limits, the all-asleep detector, ageing and pre-emption; and dispatch from the record stores (R253, R254). -/

namespace Sys2Proof.Machine

/-! ### Phases and slots (R74, R117) -/

/-- The thread that holds a phase. -/
def State.holder (s : State) (core phase : Nat) : Option Thread := s.threads.find? fun t => t.loc == .phase core phase

/-- Whether a phase may be lent away from its thread to a task of a level (R117, R126, R142): it is parked or out of the rotation, and
what it awaits has not come; one that yielded or overran its budget makes way for a task of equal or higher priority. -/
def State.lendable (s : State) (t : Thread) (level : Nat) : Bool :=
  t.handler.isNone && !s.mustLeave t && match t.run with
    | .parked w fired => !fired || ((w.kind == .yield || w.kind == .budget) && decide (level ≤ s.level t))
    | .out _ _ => !t.run.ended
    | _ => false

/-- Take a phase for a ready task of a level: from no one, or from a thread that goes to a resident slot, where there is one or the
task leaves one (R74, R117). -/
def State.vacate (s : State) (core phase level : Nat) (swap : Bool) : Option State :=
  match s.holder core phase with
  | none => if s.phaseFree core phase then some s else none
  | some h =>
    if s.lendable h level && (swap || s.slotFree core) then some (s.setThread { h with loc := .slot core phase }) else none

/-- TELLER_LEND_PHASE (R117): a phase goes to a ready resident task, which issues at the phase's second slot from now. -/
def execTellerLendPhase (core phase tid : Nat) (s : State) : Host.Outcome State Fault Refusal :=
  match s.thread? tid with
  | none => .refused .notEnabled
  | some t =>
    let resident : Bool := match t.loc with
      | .slot c _ => c == core
      | _ => false
    let free := (s.holder core phase).isNone
    if decide (7 ≤ phase) || s.quiesce.isSome || !resident || !t.waitsPhase || s.mustLeave t || !s.mayTakePhase t core phase
        || !foremost (s.taskKey t) (s.rivals t.ctx core phase free) || !s.noneAbove t.ctx core (s.level t) then .refused .notEnabled
    else match s.vacate core phase (s.level t) true with
      | none => .refused .notEnabled
      | some s => .next (s.setThread { t with loc := .phase core phase, lastIssue := slotCycle (s.now + 1) 0 phase })

/-- RECORD_DISPATCH (R253, R254, R304): a held record takes a free phase of its region. -/
def execRecordDispatch (cl record core phase : Nat) (s : State) : Host.Outcome State Fault Refusal :=
  match (s.cluster cl).records.find? fun h => h.id == record with
  | none => .refused .notEnabled
  | some h =>
    if h.readyAt.isNone || decide (7 ≤ phase) || s.storePlace h.ctx h.r h.hint != some (core, phase)
        || !foremost (s.recordKey cl h) (s.rivals h.ctx core phase true) then .refused .notEnabled
    else .next ((s.dropHeld cl h.id).start (s.taskThread h core phase))

/-! ### Eviction and restore (R118, R137-R140) -/

/-- Whether another task of a core is being saved (R315). -/
def State.savingOn (s : State) (core : Nat) : Bool :=
  s.threads.any fun t => t.coreId == core && !t.isFw && match t.run with
    | .saving _ _ _ _ _ => true
    | _ => false
/-- Whether the teller needs the slot or phase of a task of a core: a ready record waits for a phase there, or a ready evicted task for
one that could only be lent to it with a slot for the task that holds it (R74, R117, R118) (log 102). -/
def State.pressed (s : State) (ctx core : Nat) : Bool :=
  (List.range 7).all (fun p => !s.phaseFree core p) && ((s.recordsFor ctx core).length != 0
    || (!s.slotFree core && s.threads.any fun t => t.ctx == ctx && t.evicted && t.waitsPhase
        && (List.range 7).any fun p => s.mayTakePhase t core p))

/-- TASK_EVICT (R118, R315, R340): a task at a blocking point is evicted where its slot or phase is wanted (R74) and it does not go on, where a
pre-emption request names it (R306), or for an update (R454); a core saves one context at a time (log 102) (log 60). -/
def execTaskEvict (tid groups : Nat) (s : State) : Host.Outcome State Fault Refusal :=
  match s.thread? tid with
  | none => .refused .notEnabled
  | some t =>
    let wanted := t.request.isSome || s.quiesce.isSome
      || (s.pressed t.ctx t.coreId && (t.phase?.isNone || s.lendable t 0))
    if !wanted || s.savingOn t.coreId || s.mustMigrate t then .refused .notEnabled
    else match s.evict t groups false with
      | some s => .next s
      | none => .refused .notEnabled

/-- AFFINITY_MIGRATION (R149, R315, R322): a marked task at a blocking point is evicted toward its target, where a core of its job may
take it; a task that holds an engine context does not move (log 54). -/
def execAffinityMigration (tid groups : Nat) (s : State) : Host.Outcome State Fault Refusal :=
  match s.thread? tid with
  | none => .refused .notEnabled
  | some t =>
    if !s.migrates t || s.savingOn t.coreId then .refused .notEnabled
    else match s.evict t groups true with
      | some s => .next s
      | none => .refused .notEnabled

/-- CONTEXT_SAVE_DONE (R314): the frame is written; a request for the phase is met. -/
def execContextSaveDone (tid : Nat) (s : State) : Host.Outcome State Fault Refusal :=
  match s.thread? tid with
  | some t => match t.run with
    | .saving _ _ _ va moves =>
      if !s.frameAwake t.ctx va (frameBytes (s.engineOf t).isSome) then .refused .notEnabled else .next (s.saveDone { t with request := none } va moves)
    | _ => .refused .notEnabled
  | none => .refused .notEnabled

/-- TASK_RESTORE (R137, R140, R454): a ready evicted task takes a phase and, with an engine part, a free engine context. A
frame of a layout that the tellers do not implement ends its job (log 42, 69, 70). -/
def execTaskRestore (tid core phase : Nat) (s : State) : Host.Outcome State Fault Refusal :=
  match s.thread? tid with
  | none => .refused .notEnabled
  | some t => match t.frameVa with
    | none => .refused .notEnabled
    | some va =>
      let free := (s.holder core phase).isNone
      let eng := s.frameHasEngine t.ctx va
      let idx := (s.cluster (coreCluster core)).contextFor t.contract
      if decide (7 ≤ phase) || s.quiesce.isSome || !t.waitsPhase || !s.mayTakePhase t core phase
          || (eng && idx.isNone) || !foremost (s.taskKey t) (s.rivals t.ctx core phase free) || !s.noneAbove t.ctx core (s.level t)
          || (s.restorePlace t).any (· != (core, phase)) || !s.frameAwake t.ctx va (frameBytes eng) then .refused .notEnabled
      else if !s.image.layouts.contains (s.jobRead t.ctx va 2) then .next (s.frameUnread t.ctx va)
      else match s.vacate core phase (s.level t) false with
        | none => .refused .notEnabled
        | some s => .next (s.restore t va core phase (if eng then idx else none))

/-- TASK_RESTORE_DONE (R136, R137): the restored thread receives its reply, or issues its blocking instruction again (log 42, 51). -/
def execTaskRestoreDone (tid : Nat) (s : State) : Host.Outcome State Fault Refusal :=
  match s.thread? tid with
  | none => .refused .notEnabled
  | some t => match t.run with
    | .restoring _ (some (.replied r)) _ =>
      if r.trap.isNone && !r.vec && r.d.any (destBusy t s) then .refused .notEnabled else .next (s.deliver t r)
    | .restoring w (some p) _ => .next (s.setThread { t with run := .out w p })
    | .restoring w none fired => .next (s.setThread { t with run := .parked w fired })
    | _ => .refused .notEnabled

/-! ### Budgets and wait limits (R142-R144) -/

/-- Whether a ready task of equal or higher priority, or a request, wants a task's phase (R142) (log 53). -/
def State.phaseWanted (s : State) (t : Thread) : Bool :=
  t.request.isSome || (s.rivals t.ctx t.coreId t.lastPhase true).any fun k => decide (k.headD 256 ≤ s.level t)

/-- BUDGET_OVERRUN (R142, R262): at its slot a task with less than 8 cycles left is at a blocking point of kind BUDGET, and its budget is
loaded again. Where something wants its phase it goes to the tail of its level; else it issues at its next slot (log 53). -/
def execBudgetOverrun (tid : Nat) (s : State) : Host.Outcome State Fault Refusal :=
  match s.thread? tid with
  | none => .refused .notEnabled
  | some t =>
    if t.isFw || t.handler.isSome || t.phase?.isNone || decide (t.run ≠ .runnable) || s.reload t == 0
        || decide (8 ≤ t.csr.remain.toNat) then .refused .notEnabled
    else
      let w := wake .budget 0 0#64
      let u := { t with lastIssue := s.now, csr := { t.csr with remain := BitVec.ofNat 32 (s.reload t) } }
      let stays := !s.phaseWanted t && !(t.csr.creq && !t.creqAck) && !s.migrates t && s.quiesce.isNone
      .next (if stays then s.setThread u else s.settle { t.parkedAside ((u.becomeReady s.now).park s.now w) with run := .parked w true })

/-- A wait that is over: the thread no longer waits for its condition or its answer (log 80, 103). -/
def Run.giveUp : Run → Run
  | .out w _ => .parked w true
  | .saving w _ _ va m => .saving w none true va m
  | .restoring w _ _ => .restoring w none true
  | r => r.fire

/-- WAIT_LIMIT_EXPIRY (R143, R144): a limited wait that has not ended by the end of its expiry cycle makes the task ready, and WAIT_LIMIT is
taken when it next issues (log 103). -/
def execWaitLimitExpiry (tid : Nat) (s : State) : Host.Outcome State Fault Refusal :=
  match s.thread? tid with
  | none => .refused .notEnabled
  | some t => match s.expiry? t, t.run.wake? with
    | some e, some w =>
      if !s.reachedBy e then .refused .notEnabled
      else
        let s := s.pastDeadline e
        let s := s.wakeThread { t with run := t.run.giveUp, due := some ⟨.waitLimit, w.word⟩ }
        .next { s with qwaits := s.qwaits.filter fun q => q.tid != tid }
    | _, _ => .refused .notEnabled

/-! ### The all-asleep detector (R145-R147) -/

/-- Whether a task sleeps: parked, not fired, at a kind that counts, on nothing outside the job's view (R145, R146) (log 104). -/
def State.sleeps (s : State) (t : Thread) : Bool :=
  match t.run with
  | .parked w false =>
    w.kind.counts
      && !(w.kind == .future && !s.isHere w.operand)
      && !(w.kind == .timeline && w.detail.toNat / 2 ^ 24 == 4)
      && !(s.qwaits.any fun q => q.tid == t.tid && q.ext)
  | _ => false

/-- Whether a job has nothing in flight and nothing ready (R145, R202) (log 104). -/
def State.jobIdle (s : State) (ctx : Nat) : Bool :=
  let tids := (s.tasksOf ctx).map (·.tid)
  let mine (k : Core) : Bool := k.owner == some ctx
  s.stores.all (fun x => x.ctx != ctx) && s.noteOps.all (fun o => o.ctx != ctx) && s.tails.all (fun o => o.ctx != ctx)
    && s.faults.all (fun f => f.ctx != ctx) && s.queries.all (fun q => q.ctx != ctx)
    && s.streams.all (fun k => k.ctx != ctx || k.frames.isEmpty)
    && s.threads.all (fun t => t.ctx != ctx || t.isFw || t.handler.isNone)
    && s.cores.all (fun k => !mine k || (k.xq.isEmpty && k.rowq.isEmpty && k.outb.isEmpty && k.inb.isEmpty))
    && s.pipelines.all (fun p => p.ctx != ctx || (p.closing.isEmpty && p.chans.all fun c =>
        c.storing.isNone && c.loader.all fun l => !l.active))
    && s.clusters.all fun k =>
      k.engines.all (fun e => !tids.contains e.holder || e.halt || e.tl == e.issued)
        && k.records.all fun h => h.ctx != ctx || (h.readyAt.isNone && h.pieces.isEmpty && h.waits.all s.isHere)

/-- Whether the detector of a job is armed and all of it sleeps (R145-R147). A job without a task is not asleep (log 104). -/
def State.asleep (s : State) (j : Job) : Bool :=
  let tasks := s.tasksOf j.ctx
  !j.disarmed && s.quiesce.isNone && !tasks.isEmpty && tasks.all s.sleeps && s.jobIdle j.ctx

/-- The body entry of a sleeping task (R147). -/
def State.sleepEntry (s : State) (t : Thread) : List Word :=
  let w := (t.run.wake?).getD (wake .yield 0 0#64)
  match t.frameVa with
  | some va => [BitVec.allOnes 64, BitVec.ofNat 64 va, w.word, w.operand]
  | none => [coordOf s.chip t.coreId, 0#64, w.word, w.operand]

/-- The owned cores of a job in ascending order of die, cluster and 4·ky + kx (R147). -/
def State.ownedCores (s : State) (ctx : Nat) : List Nat :=
  (List.range 2048).filterMap fun i => if s.owns ctx (clusterCore (i / 16) (i % 16)) then some (clusterCore (i / 16) (i % 16)) else none

/-- The victim among tasks (R306): the greatest level, then the latest dispatched. -/
def State.victimOf (s : State) (ts : List Thread) : Option Thread :=
  ts.find? fun t => ts.all fun u =>
    decide (s.level u < s.level t) || (s.level u == s.level t && decide (u.dispatchedAt ≤ t.dispatchedAt))

/-- A phase for the handler task (R147): a free one, or that of a victim on the first owned core, which is saved. None where no
frame has room for the victim. -/
def State.sleepPlace (s : State) (ctx : Nat) : Option (State × (Nat × Nat)) :=
  let cores := s.ownedCores ctx
  match cores.findSome? fun c => (s.freePhase ctx c).map fun p => (c, p) with
  | some at_ => some (s, at_)
  | none => match cores.head? with
    | none => none
    | some c =>
      let held := s.threads.filter fun t => match t.loc with
        | .phase k _ => k == c && (s.evict t 0 false).isSome
        | _ => false
      match s.victimOf held with
      | none => none
      | some v => match s.evict v 0 false with
        | none => none
        | some s' => match s'.thread? v.tid with
          | some v' => match v'.run with
            | .saving _ _ _ va _ => some (s'.saveDone v' va false, (c, v.lastPhase))
            | _ => none
          | none => none

/-- The handler task (R147). -/
def State.sleepHandler (s : State) (j : Job) (entry n head trunc tid : Nat) (at_ : Nat × Nat) : Thread :=
  let r : TaskRec := { entry := entry, budget := 0, prio := 0, stage := 0, radius := 0, pin := false, hintv := false, dep0 := false,
                       dep1 := false, nin := 0, tx := 0, ty := 0, tz := 0, hintx := 0, hinty := 0, arg0 := n, arg1 := head,
                       arg2 := s.now, arg3 := trunc, in0 := 0#64, in1 := 0#64, subs := [] }
  let t := s.taskThread (heldRecord tid j.ctx 0#64 r none at_.1 0 s.now [] true) at_.1 at_.2
  { t with csr := { t.csr with tcause := Cause.allAsleep.code, tval := BitVec.ofNat 64 n } }

/-- ALL_ASLEEP (R145-R147): the sleep report, the event to the job's function, and the job's handler task (log 100, 104). -/
def execAllAsleep (ctx : Nat) (s : State) : Host.Outcome State Fault Refusal :=
  match s.job? ctx with
  | none => .refused .notEnabled
  | some j =>
    if !s.asleep j then .refused .notEnabled
    else
      let tasks := s.tasksOf ctx
      let n := tasks.length
      let cap := (j.reportBytes - 64) / 32
      let w := s.jobRead ctx j.reportVA 8
      let free := reportFree cap w (s.jobRead ctx (j.reportVA + 8) 8)
      let head := if cap = 0 ∨ free = 0 then 0 else j.reportVA + 64 + 32 * (w % cap)
      let trunc := if free < 1 + n then 1 else 0
      let s := s.report ctx 1 0x0C (BitVec.ofNat 64 n) 0#64 (tasks.map s.sleepEntry)
      let s := s.postEvent j.func 0x03 ctx (n + 2 ^ 64 * head + 2 ^ 128 * s.now + 2 ^ 192 * trunc)
      let s := s.modJob ctx fun j => { j with disarmed := true, sleepTask := none }
      match j.asleep with
      | none => .next s
      | some entry => match s.sleepPlace ctx with
        | none => .next s
        | some (s, at_) =>
          let (tid, s) := s.takeTid
          let t := { s.sleepHandler j entry n head trunc tid at_ with lastIssue := s.now }
          .next (((s.seat t).dropCopies t).modJob ctx fun j => { j with sleepTask := some tid })

/-! ### Ageing and pre-emption requests (R305, R306) -/

/-- PRIORITY_AGE (R305): a ready task or record without a phase falls by one level number after each AGE interval, down to
AGECAP. -/
def execPriorityAge (who : Nat) (s : State) : Host.Outcome State Fault Refusal :=
  let may (ctx since : Nat) (level : BitVec 8) : Bool := (s.job? ctx).any fun j =>
    decide (j.ageCap < level.toNat) && decide (since + 1000 * j.age ≤ s.now)
  let step (ctx : Nat) : Nat := 1000 * ((s.job? ctx).map (·.age)).getD 0
  match s.thread? who with
  | some t =>
    if t.waitsPhase && !t.isFw && may t.ctx t.agedAt t.csr.prio then
      .next (s.setThread { t with agedAt := t.agedAt + step t.ctx, csr := { t.csr with prio := t.csr.prio - 1#8 } })
    else .refused .notEnabled
  | none =>
    match (s.clusters.flatMap fun k => (k.records.filter fun h => h.id == who).map fun h => (k.id, h)).head? with
    | some (cl, h) =>
      if h.readyAt.isSome && may h.ctx h.agedAt h.level then
        .next (s.modCluster cl fun k => { k with records := k.records.map fun r =>
          if r.id = who then { h with agedAt := h.agedAt + step h.ctx, level := h.level - 1#8 } else r })
      else .refused .notEnabled
    | none => .refused .notEnabled

/-- The tasks, running or waiting, that something ready may ask for: those of lower priority that no request names yet (R306) (log 105). -/
def State.victims (s : State) (ctx level : Nat) (may : Nat → Nat → Bool) : List Thread :=
  s.threads.filter fun t => t.ctx == ctx && t.handler.isNone && t.request.isNone && decide (level < s.level t) && match t.loc with
    | .phase c p => may c p
    | _ => false
/-- Whether a task or record has its one request out (R306): a request whose victim is gone names the next one (log 105). -/
def State.asked (s : State) (who : Nat) : Bool := s.threads.any fun t => t.request == some who

/-- PREEMPTION_REQUEST (R306): a ready task or record that finds no phase in its region names one victim there (log 105). -/
def execPreemptionRequest (who : Nat) (s : State) : Host.Outcome State Fault Refusal :=
  let ask (ts : List Thread) : Host.Outcome State Fault Refusal := match s.victimOf ts with
    | some v => .next (s.setThread { v with request := some who })
    | none => .refused .notEnabled
  if s.quiesce.isSome || s.asked who then .refused .notEnabled
  else match s.thread? who with
  | some t =>
    let found := s.cores.any fun c => (List.range 7).any fun p => s.mayTakePhase t c.id p && s.phaseFree c.id p
    if !t.waitsPhase || found then .refused .notEnabled
    else ask (s.victims t.ctx (s.level t) (s.mayTakePhase t))
  | none =>
    match (s.clusters.flatMap fun k => (k.records.filter fun h => h.id == who).map fun h => (k.id, h)).head? with
    | some (cl, h) =>
      if h.readyAt.isNone || (s.storePlace h.ctx h.r h.hint).isSome then .refused .notEnabled
      else ask (s.victims h.ctx (s.heldLevel cl h) fun c _ => s.owns h.ctx c && h.r.inRegion h.hint c)
    | none => .refused .notEnabled

end Sys2Proof.Machine
end

