-- ==== Sys2Proof/Machine/Contracts.lean ====
section
/-! DEFINITION. Contracts (R307-R312, R457) and the package budget controller (R317, R318). -/

namespace Sys2Proof.Machine

/-! ### Submission (R307, R308) -/

/-- Bytes of a job's memory as a device agent reads them, each page by the checks of R195; none where they cannot be read. -/
def State.tryRead (s : State) (ctx va n : Nat) : Option Nat :=
  let one (a k : Nat) : Option Nat := match s.xlate ctx none .read a with
    | .ok pa _ => if (s.poisonAt pa k).isSome then none else some (s.peek pa k)
    | _ => none
  let k := min n (65536 - va % 65536)
  if k = n then one va n
  else match one va k, one (va + k) (n - k) with
    | some x, some y => some (x + 256 ^ k * y)
    | _, _ => none

/-- A sum of rationals as (numerator, denominator). -/
def ratSum (l : List (Nat × Nat)) : Nat × Nat := l.foldl (fun a b => (a.1 * b.2 + b.1 * a.2, a.2 * b.2)) (0, 1)

/-- Whether a contract record's fields are in range and its task record passes R243 as R457 applies it (R307, R308) (log 106). -/
def State.contractRecord (s : State) (ctx x : Nat) : Option TaskRec :=
  let f (off n : Nat) : Nat := slice x off n
  let cl := 64 * (f 23 1 / 128) + f 23 1 % 64
  let inRange := decide (10000 ≤ f 8 4) && decide (f 8 4 ≤ 1000000000) && decide (8 ≤ f 12 4) && decide (f 12 4 ≤ f 16 4)
    && decide (f 16 4 ≤ f 8 4) && decide (1 ≤ f 20 1) && decide (f 20 1 ≤ 112) && decide (f 21 1 ≤ 16) && decide (f 22 1 < 64)
    && f 23 1 / 64 % 2 == 0 && f 33 3 == 0 && f 48 16 == 0
  if !inRange then none
  else match s.tryRead ctx (f 0 8) 64 with
    | none => none
    | some im =>
      let r := taskRecord im
      if (s.badRecord ctx (clusterCore cl 0) im).isSome || r.nin != 0 || recordSubs im != 0 then none else some r

/-- The status of a submitted contract: the first test of R308 that fails, or 0. -/
def State.contractStatus (s : State) (ctx x : Nat) : Nat :=
  let f (off n : Nat) : Nat := slice x off n
  let cl := 64 * (f 23 1 / 128) + f 23 1 % 64
  let ks := (s.cluster cl).contracts
  let util := ratSum ((f 20 1 * f 12 4, f 8 4) :: ks.map fun k => (k.width * k.budget, k.period))
  let eng := ratSum ((f 21 1 * f 12 4, f 8 4) :: ks.map fun k => (k.eshare * k.budget, k.period))
  let short (deadline budget : Nat) : Bool := decide (deadline < budget + 352 + 4096)
  if (s.contractRecord ctx x).isNone then 0x01
  else if (List.range 16).any (fun k => !s.owns ctx (clusterCore cl k)) then 0x02
  else if Config.maxContracts ≤ ks.length then 0x03
  else if 784 * util.2 < 10 * util.1 then 0x04
  else if 112 * eng.2 < 10 * eng.1 then 0x05
  else if short (f 16 4) (f 12 4) || ks.any (fun k => short k.deadline k.budget) then 0x06
  else 0

/-- Lower REMAIN of the tasks in a cluster that a budget cap meets (R309); one without a budget counts as unbounded. -/
def State.lowerRemain (s before : State) (cl : Nat) : State :=
  match s.bcap cl with
  | none => s
  | some cap =>
    if (before.bcap cl).any fun c => decide (c ≤ cap) then s
    else
      let f (t : Thread) : Thread :=
        let here := t.cluster == cl && !t.isFw && t.handler.isNone && !t.evicted
        if here && decide (s.minBand cl < s.level t) then
          let rem := if before.reload t = 0 then cap else min t.csr.remain.toNat cap
          { t with csr := { t.csr with remain := BitVec.ofNat 32 rem } }
        else t
      { s with threads := s.threads.map f }

/-- Submit a contract (R308-R310): its status, which is written to its record, and on admission the contract with the teller's
copy of the task record (log 106). -/
def State.submitContract (s : State) (ctx va : Nat) : State × Nat :=
  match s.tryRead ctx va 64 with
  | none => (s, 0x01)
  | some x =>
    let f (off n : Nat) : Nat := slice x off n
    let status := s.contractStatus ctx x
    let wrote := s.jobWrite ctx (va + 32) 1 status
    match (if status = 0 then s.contractRecord ctx x else none) with
    | none => (wrote, status)
    | some r =>
      let cl := 64 * (f 23 1 / 128) + f 23 1 % 64
      let (idx, s') := wrote.takeTid
      let k : Contract :=
        { idx := idx, ctx := ctx, va := va, rva := BitVec.ofNat 64 (f 0 8), r := r, period := f 8 4, budget := f 12 4, deadline := f 16 4, width := f 20 1,
          eshare := f 21 1, band := f 22 1, nextRelease := if f 24 8 = 0 then s.now + 1 else f 24 8, lastRelease := 0,
          deadlineDue := none, live := [], reserved := [], misses := f 36 4, overruns := f 40 4, skips := f 44 4,
          withdrawn := false }
      ((s'.modCluster cl fun c => { c with contracts := c.contracts ++ [k] }).lowerRemain s cl, 0)

/-- Withdraw the contract of a record (R312): it ends at its next release instant. Whether there is one. -/
def State.withdrawContract (s : State) (ctx va : Nat) : State × Bool :=
  let mine (k : Contract) : Bool := k.ctx == ctx && k.va == va
  ({ s with clusters := s.clusters.map fun c =>
      { c with contracts := c.contracts.map fun k => if mine k then { k with withdrawn := true } else k } },
    s.clusters.any fun c => c.contracts.any mine)

/-! ### Releases (R310-R312) -/

def State.setContract (s : State) (cl : Nat) (k : Contract) : State :=
  s.modCluster cl fun c => { c with contracts := c.contracts.map fun j => if j.idx = k.idx then k else j }
def State.contract? (s : State) (cl idx : Nat) : Option Contract := (s.cluster cl).contracts.find? fun k => k.idx == idx

/-- A saturating 32-bit count that goes up by one, and its place in the record (R307, R311) (log 106). -/
def countUp (n : Nat) : Nat := min (n + 1) 0xFFFFFFFF
def State.countMiss (s : State) (cl : Nat) (k : Contract) : State :=
  (s.setContract cl { k with misses := countUp k.misses }).jobWrite k.ctx (k.va + 36) 4 (countUp k.misses)
def State.countOverrun (s : State) (cl : Nat) (k : Contract) : State :=
  (s.setContract cl { k with overruns := countUp k.overruns }).jobWrite k.ctx (k.va + 40) 4 (countUp k.overruns)
def State.countSkip (s : State) (cl : Nat) (k : Contract) : State :=
  (s.setContract cl { k with skips := countUp k.skips }).jobWrite k.ctx (k.va + 44) 4 (countUp k.skips)

/-- Free contexts in the order in which `ebind` would grant them one after another (R310, R334). The fuel bounds their number. -/
def grantOrder (used free : List Nat) : Nat → List Nat
  | 0 => []
  | n + 1 => match pickContext used free with
    | some i => i :: grantOrder (i :: used) (free.filter (· != i)) n
    | none => []

/-- The free contexts of a cluster that no release reserves, in that order. -/
def Cluster.openContexts (c : Cluster) : List Nat :=
  let used := c.engines.map (·.idx)
  grantOrder used ((List.range 16).filter fun i => !used.contains i && (c.contracts ++ c.ending).all fun k => !k.reserved.contains i) 16

/-- The holders whose contexts a release takes (R310): those of a level above BAND, the greatest first, among equals the latest
dispatched. -/
def State.shareVictims (s : State) (cl : Nat) (band : Nat) : Nat → List Thread → List Thread
  | 0, _ => []
  | n + 1, ts => match s.victimOf ts with
    | some v => v :: s.shareVictims cl band n (ts.filter fun t => t.tid != v.tid)
    | none => []

/-- A contract without a reservation of some contexts. -/
def Contract.yields (k : Contract) (idxs : List Nat) : Contract := { k with reserved := k.reserved.filter fun i => !idxs.contains i }
/-- Reserve ESHARE contexts for a release (R310): free ones first, then those of victims, whoever they were reserved for; the victims'
are held by them until they are saved. -/
def State.reserve (s : State) (cl : Nat) (k : Contract) : State :=
  let c := s.cluster cl
  let free := c.openContexts.take k.eshare
  let holders := s.threads.filter fun t => match s.engineOf t with
    | some _ => t.cluster == cl && decide (k.band < s.level t)
    | none => false
  let vs := s.shareVictims cl k.band (k.eshare - free.length) holders
  let idxs := vs.filterMap fun v => (s.engineOf v).map (·.idx)
  let s := vs.foldl (fun s v => s.modThread v.tid fun t => { t with request := some k.idx }) s
  let s := s.modCluster cl fun c => { c with contracts := c.contracts.map (·.yields idxs), ending := c.ending.map (·.yields idxs) }
  s.setContract cl { k with reserved := free ++ idxs }

/-- A reservation that holds fewer contexts than ESHARE takes those that have come free (R310). -/
def State.fillReserves (s : State) : State :=
  s.clusters.foldl (fun s c => c.contracts.foldl (fun s k =>
    match s.contract? c.id k.idx with
    | some k =>
      if k.live.isEmpty || decide (k.eshare ≤ k.reserved.length) then s
      else s.setContract c.id { k with reserved := k.reserved ++ ((s.cluster c.id).openContexts.take (k.eshare - k.reserved.length)) }
    | none => s) s) s

/-- The record of one task of a release (R310): at the contract's band, its region the cluster, TILE.TX its rank. -/
def Contract.record (k : Contract) (cl rank : Nat) : TaskRec :=
  { k.r with prio := k.band, budget := k.budget, radius := clusterRadius, tx := rank, hintv := true,
             hintx := coreX (clusterCore cl 0), hinty := coreY (clusterCore cl 0), subs := [] }

/-- Release one task (R310) (log 106). -/
def State.releaseTask (s : State) (cl idx rank : Nat) : State :=
  match s.contract? cl idx with
  | none => s
  | some k =>
    let (id, s) := s.takeTid
    let h := heldRecord id k.ctx k.rva (k.record cl rank) none (clusterCore cl 0) 0 s.now [] true
    (s.setContract cl { k with live := k.live ++ [id] }).storeRecord { h with contract := some (cl, idx), rank := some rank }

/-- The tasks of the last release stand at their band again (R311) (log 107). -/
def State.newPeriod (s : State) (cl : Nat) (k : Contract) : State :=
  { s with threads := s.threads.map fun t =>
      if t.contract = some (cl, k.idx) then
        let band := BitVec.ofNat 8 k.band
        { t with charged := 0, recPrio := band, csr := { t.csr with prio := if t.charged < k.budget then t.csr.prio else band } }
      else t }

/-- CONTRACT_RELEASE (R310-R312, R454): at a release instant a contract releases WIDTH tasks, or skips where a task of the last
release is live or an update is activated, or ends where it has been withdrawn: tasks that live go on at
its band (log 107). -/
def execContractRelease (cl idx : Nat) (s : State) : Host.Outcome State Fault Refusal :=
  match s.contract? cl idx with
  | none => .refused .notEnabled
  | some k =>
    if decide (s.now < k.nextRelease) || k.deadlineDue.any fun d => decide (d ≤ s.now) then .refused .notEnabled
    else if k.withdrawn then
      .next (((s.newPeriod cl k).modCluster cl fun c => { c with
        contracts := c.contracts.filter (fun j => j.idx != idx),
        ending := c.ending ++ if k.live.isEmpty then [] else [k] }).lowerRemain s cl)
    else
      let k' := { k with nextRelease := k.nextRelease + k.period }
      let s := (s.setContract cl k').newPeriod cl k
      if !k.live.isEmpty || s.quiesce.isSome then .next (s.countSkip cl k')
      else
        let s := s.reserve cl { k' with lastRelease := s.now, deadlineDue := some (k.nextRelease + k.deadline) }
        .next ((List.range k.width).foldl (fun s r => s.releaseTask cl idx r) s)

/-- CONTRACT_DEADLINE (R311): a release with a task live at its deadline is a miss. -/
def execContractDeadline (cl idx : Nat) (s : State) : Host.Outcome State Fault Refusal :=
  match s.contract? cl idx with
  | none => .refused .notEnabled
  | some k =>
    if !k.deadlineDue.any fun d => decide (d ≤ s.now) then .refused .notEnabled
    else
      let k := { k with deadlineDue := none }
      let s := s.setContract cl k
      .next (if k.live.isEmpty then s else s.countMiss cl k)

/-- CONTRACT_BUDGET_EXHAUSTED (R311): a task charged BUDGET phase-cycles in a period drops to level 255 until the next release (log 107). -/
def execContractBudgetExhausted (tid : Nat) (s : State) : Host.Outcome State Fault Refusal :=
  match s.thread? tid with
  | none => .refused .notEnabled
  | some t => match t.contract with
    | none => .refused .notEnabled
    | some (cl, idx) => match s.contract? cl idx with
      | none => .refused .notEnabled
      | some k =>
        if t.charged < k.budget ∨ t.recPrio = 255#8 then .refused .notEnabled
        else
          let t := { t with recPrio := 255#8, csr := { t.csr with prio := 255#8 } }
          .next ((s.setThread t).countOverrun cl k)

/-! ### The package budget controller (R317, R318) -/

/-- The stacks with scans in progress (R318). -/
def State.scanning (s : State) : List Stack := s.hbm.filter fun k =>
  s.queries.any fun q => q.stack == k.n && q.handed

/-- One step down (R318, R385). -/
def State.throttle (s : State) : State :=
  let high := s.scanning.filter fun k => decide (4096 < k.alim)
  if !high.isEmpty then
    let lower (k : Stack) : Stack := if high.any (fun h => h.n == k.n) then { k with alim := max 4096 (7 * k.alim / 8) } else k
    { s with hbm := s.hbm.map lower, powerSteps := .alim (high.map fun k => (k.n, k.alim)) :: s.powerSteps }
  else if 4 < s.duty then { s with duty := s.duty - 1, powerSteps := .duty :: s.powerSteps }
  else s

/-- Undo the last step (R318). -/
def State.unthrottle (s : State) : State :=
  match s.powerSteps with
  | [] => s
  | .duty :: rest => { s with duty := s.duty + 1, powerSteps := rest }
  | .alim before :: rest =>
    { s with hbm := s.hbm.map fun k => { k with alim := lookupD before k.n k.alim }, powerSteps := rest }

/-- POWER_CONTROL_STEP (R317, R318): the controller compares a measured power with the limit (log 8, 108). -/
def execPowerControlStep (watts : Nat) (s : State) : Host.Outcome State Fault Refusal :=
  .next (if s.powerLimit < watts then s.throttle else if 100 * watts < 95 * s.powerLimit then s.unthrottle else s)

end Sys2Proof.Machine
end

