-- ==== Sys2Proof/Machine/HostSide.lean ====
section
/-! DEFINITION. The host's side of a PCIe function (R421-R426): the BAR2 aperture, doorbells, event-ring registers, and what a read of
BAR0 gives. -/

namespace Sys2Proof.Machine

/-- Whether the package answers on a function: the virtual functions are disabled in stage 0 (R421, R449). -/
def State.funcOn (s : State) (n : Nat) : Bool := n == 0 || (decide (n < 32) && s.stage != 0)
/-- An access of the host to a function: none reaches the package through one that does not exist or is disabled (R421, R449)
(log 109). -/
def hostAccess (func : Nat) (act : State → Host.Outcome State Fault Refusal) (s : State) : Host.Outcome State Fault Refusal :=
  if 32 ≤ func then .refused .notEnabled else if s.funcOn func then act s else .next s

/-! ### BAR2 (R422, R423) -/

/-- log2 of an access size, rounded down (log 109). -/
def log2Size (n : Nat) : Nat := (List.range 13).foldl (fun acc k => if 2 ^ k ≤ n then k else acc) 0
/-- A BAR2 access of one PCIe request: of 1 to 4,096 bytes, of any alignment, in the window (log 109). -/
def bar2Ok (off size : Nat) : Bool := decide (1 ≤ size) && decide (size ≤ 4096) && decide (off + size ≤ 2 ^ 36)

/-- What a waiting request touches: its job, address and size, and the kind that an event names. -/
structure Bar2Shape where
  ctx : Nat
  va : Nat
  kind : Nat
  size : Nat
  deriving DecidableEq, Repr
def Bar2Req.shape : Bar2Req → Bar2Shape
  | .read ctx va size => ⟨ctx, va, 0, size⟩
  | .write ctx va size _ => ⟨ctx, va, 1, size⟩
  | .fetchAdd ctx va _ => ⟨ctx, va, 1, 8⟩
  | .doorbell ctx q _ => ⟨ctx, q, 1, 8⟩

/-- The need of a request, and whether it completes with data (log 109). -/
def Bar2Req.need : Bar2Req → Need
  | .read _ _ _ => .read
  | .write _ _ _ _ => .write
  | .fetchAdd _ _ _ => .atomic
  | .doorbell _ _ _ => .write
def Bar2Req.hasData : Bar2Req → Bool
  | .read _ _ _ => true
  | .fetchAdd _ _ _ => true
  | _ => false

/-- Drop an access (R422): its event, and all-ones data where the request completes with data (log 34). -/
def State.dropBar2 (s : State) (n ctx va : Nat) (r : Bar2Req) (reason : Nat) : State :=
  let k := r.shape
  let s := s.postEvent n 0x04 ctx (va + 2 ^ 64 * (k.kind + 2 ^ 8 * log2Size k.size + 2 ^ 16 * reason) + 2 ^ 128 * s.now)
  if r.hasData then s.setFunc { s.func n with lastRead := some (256 ^ k.size - 1) } else s

/-- Perform a checked request at its home slices (R423): a FetchAdd is an `amo.add` of 8 bytes. -/
def State.performBar2 (s : State) (n : Nat) (lines : List (Nat × Piece)) (r : Bar2Req) : State :=
  let old := s.readLines lines
  let write (s : State) (v : Nat) : State := lines.foldl (fun s l => s.poke l.1 l.2.len (slice v l.2.off l.2.len)) s
  let s := match r with
    | .write _ _ _ v => write s v
    | .fetchAdd _ _ v => write s ((old + v) % 2 ^ 64)
    | _ => s
  let (s, pj) := s.linesCost 0 lines
  let s := s.bill 0 r.shape.ctx pj
  if r.hasData then s.setFunc { s.func n with lastRead := some old } else s

/-- Perform the oldest request of a function that waits, through its own job's tables (R422, R423); none where it waits. -/
def State.headBar2 (s : State) (n : Nat) : Option State :=
  let f := s.func n
  match f.bar2 with
  | [] => none
  | r :: rest =>
    let gone (s : State) : State := s.setFunc { s.func n with bar2 := rest }
    let k := r.shape
    match r with
    | .doorbell ctx q v => some (gone { s with tails := s.tails ++ [⟨ctx, q, v, none, 0, 0, []⟩] })
    | _ =>
      if (s.job? k.ctx).isNone then some ((gone s).dropBar2 n k.ctx k.va r 1)
      else match s.checkRun k.ctx r.need (.bar2 n) (piecesOf k.va k.size 0) with
        | .wait => none
        | .page s => some s
        | .fail c _ => some ((gone s).dropBar2 n k.ctx k.va r (if c = .ue then 5 else 3))
        | .ok lines _ =>
          if k.kind == 1 && !s.roomFor (lines.map (·.1)) then none
          else if r.hasData && lines.any (fun l => (s.poisonAt l.1 l.2.len).isSome) then some ((gone s).dropBar2 n k.ctx k.va r 5)
          else some ((gone s).performBar2 n lines r)

/-- Perform a function's requests in order while they can be. The fuel bounds their number (log 109). -/
def State.pumpBar2 (s : State) (n : Nat) : Nat → State
  | 0 => s
  | k + 1 => match s.headBar2 n with
    | some s' => s'.pumpBar2 n k
    | none => s
/-- The requests of all functions. -/
def State.pumpHosts (s : State) : State := s.funcs.foldl (fun s f => s.pumpBar2 f.n f.bar2.length) s

/-- A request arrives behind those that wait (R423). -/
def State.arriveBar2 (s : State) (n : Nat) (r : Bar2Req) : State :=
  let s := s.setFunc { s.func n with bar2 := (s.func n).bar2 ++ [r] }
  s.pumpBar2 n (s.func n).bar2.length

/-- A page fault that a function's oldest request waits on is answered with DENY or POISON (R204, R422). -/
def State.failBar2 (s : State) (n reason : Nat) : State :=
  let f := s.func n
  match f.bar2 with
  | [] => s
  | r :: rest => (s.setFunc { f with bar2 := rest }).dropBar2 n r.shape.ctx r.shape.va r reason

/-- A BAR2 access: through the function's aperture, or dropped (R421, R422). -/
def bar2Access (func off size : Nat) (mk : Nat → Nat → Bar2Req) (s : State) : Host.Outcome State Fault Refusal :=
  if !bar2Ok off size then .refused .notEnabled
  else hostAccess func (fun s => match (s.func func).aperture with
    | some (ctx, base) => .next (s.arriveBar2 func (mk ctx (base + off)))
    | none => .next ((s.dropBar2 func 0xFFFF (Config.dropAddress s.freeCtr % 2 ^ 64) (mk 0xFFFF off) 1).tickFree)) s

/-- BAR2_READ (R422, R423). -/
def execBar2Read (func off size : Nat) (s : State) : Host.Outcome State Fault Refusal :=
  bar2Access func off size (fun ctx va => .read ctx va size) s
/-- BAR2_WRITE (R422, R423). -/
def execBar2Write (func off size val : Nat) (s : State) : Host.Outcome State Fault Refusal :=
  bar2Access func off size (fun ctx va => .write ctx va size val) s
/-- BAR2_FETCHADD (R422, R423): 8 bytes. -/
def execBar2Fetchadd (func off val : Nat) (s : State) : Host.Outcome State Fault Refusal :=
  bar2Access func off 8 (fun ctx va => .fetchAdd ctx va val) s

/-! ### Doorbells (R424) -/

/-- DOORBELL_WRITE (R424): a tail write behind the function's earlier BAR2 writes; a write to an unbound doorbell or of another
size is dropped (log 109). -/
def execDoorbellWrite (func idx size val : Nat) (s : State) : Host.Outcome State Fault Refusal :=
  if decide (64 ≤ idx) || size == 0 || decide (256 ≤ size) then .refused .notEnabled
  else hostAccess func (fun s =>
    let bound := ((s.func func).doorbells.find? fun d => d.1 == idx).map (·.2)
    let drop (ctx reason : Nat) : State :=
      s.postEvent func 0x05 ctx (idx + 2 ^ 16 * size + 2 ^ 24 * reason + 2 ^ 64 * (val % 256 ^ size % 2 ^ 64) + 2 ^ 128 * s.now)
    match bound with
    | none => .next (drop 0xFFFF 1)
    | some (ctx, q) => .next (if size = 8 then s.arriveBar2 func (.doorbell ctx q (BitVec.ofNat 64 val)) else drop ctx 2)) s

/-! ### Event-ring registers (R426) -/

/-- RCFG_WRITE (R426): setting EN from 0 to 1 sets WRITE and READ to 0; a write that sets EN with LOG2N or RBASE out of place leaves
it 0. -/
def execRcfgWrite (func val : Nat) (s : State) : Host.Outcome State Fault Refusal :=
  hostAccess func (fun s =>
    let f := s.func func
    let log := val % 32
    let ok := decide (6 ≤ log) && decide (log ≤ 16) && f.rbase.toNat % (64 * 2 ^ log) == 0
    let en := val / 2 ^ 8 % 2 == 1 && ok
    let start := en && !f.en
    .next ((s.setFunc { f with
      log2n := BitVec.ofNat 5 log, en := en,
      write := if start then 0#64 else f.write, read := if start then 0#64 else f.read }).pumpEvents func)) s

/-- EVENT_RING_READ_WRITE (R426): READ advances, and held events follow; a write above WRITE is ignored. -/
def execEventRingReadWrite (func val : Nat) (s : State) : Host.Outcome State Fault Refusal :=
  hostAccess func (fun s =>
    let f := s.func func
    let v := BitVec.ofNat 64 val
    .next (if f.write < v then s else (s.setFunc { f with read := v }).pumpEvents func)) s

/-- RCFG and HELD as the host reads them (R426). -/
def Func.rcfg (f : Func) : Word := BitVec.ofNat 64 (f.log2n.toNat + 2 ^ 8 * f.en.toNat)
def Func.heldCount (f : Func) : Word := BitVec.ofNat 64 f.held.length
/-- The mailbox's answer at 0x8400: its header and body (R452). -/
def State.mboxAnswer (s : State) : List Byte :=
  bytesOf 4 s.mboxSeq ++ bytesOf 2 s.mboxStatus ++ bytesOf 2 s.mboxBody.length ++ List.replicate 8 0#8 ++ s.mboxBody
/-- The dword that a host's read of BAR0 gives (R375, R421, R426, R452): the MSI-X table, the event-ring registers, and on function 0
the mailbox and the STKCAP images; everything else reads 0 (log 132). -/
def State.bar0 (s : State) (func off : Nat) : Word :=
  let f := s.func func
  let a := off / 8 * 8
  if a < 512 then BitVec.ofNat 64 (Memory.read f.msixTable a 8)
  else if a = 0x2000 then f.rbase
  else if a = 0x2008 then f.rcfg
  else if a = 0x2010 then f.write
  else if a = 0x2018 then f.read
  else if a = 0x2020 then f.heldCount
  else if func ≠ 0 then 0#64
  else if 0x8000 ≤ a ∧ a < 0x8400 then BitVec.ofNat 64 (Memory.read s.mboxBuf (a - 0x8000) 8)
  else if 0x8400 ≤ a ∧ a < 0x8800 then BitVec.ofNat 64 (ofBytes ((s.mboxAnswer.drop (a - 0x8400)).take 8))
  else if a = 0x8808 then BitVec.ofNat 64 (s.mboxSeq + 2 ^ 32 * s.mboxStage)
  else if 0x8900 ≤ a ∧ a < 0x8960 then (s.stack ((a - 0x8900) / 8)).cap
  else 0#64

end Sys2Proof.Machine
end

