-- ==== Sys2Proof/Machine/Fabric.lean ====
section
/-! DEFINITION. The scale-out fabric as its receiver (R429-R433): messages in SEQ order, what each does here, acknowledgements,
retransmission and failed ports. -/

namespace Sys2Proof.Machine

/-! ### The stream from a peer (R430, R431) -/

/-- A message of the stream from its peer: the next one in order, one already delivered, or not a message that arrives now. -/
inductive Arrival where
  | next (p : Peer)
  | duplicate
  | other
  deriving DecidableEq, Repr

/-- Place a header in its stream (R429, R431): SEQ has 32 bits. -/
def State.arrival (s : State) (h : FabHdr) : Arrival :=
  match s.peer? h.src with
  | none => .other
  | some p =>
    if !p.up || decide (2 ^ 32 ≤ h.seq) || decide (65536 ≤ h.sctx) || decide (65536 ≤ h.dctx) then .other
    else if h.seq = (p.recvSeq + 1) % 2 ^ 32 then .next p
    else if (2 ^ 32 + p.recvSeq % 2 ^ 32 - h.seq) % 2 ^ 32 < 2 ^ 31 then .duplicate
    else .other

/-- The event of a dropped message (R426, R430, R431). -/
def State.dropFab (s : State) (h : FabHdr) (type reason : Nat) : State :=
  s.postEvent 0 0x0A (if (s.job? h.dctx).isSome then h.dctx else 0xFFFF)
    (h.src + 2 ^ 16 * h.sctx + 2 ^ 32 * h.dctx + 2 ^ 48 * type + 2 ^ 56 * reason + 2 ^ 64 * h.seq + 2 ^ 128 * s.now)

/-- The messages to a peer up to a SEQ are acknowledged (R429, R431). -/
def Peer.acked (p : Peer) (seq : Nat) : Peer :=
  { p with unacked := p.unacked.filter fun m => decide (2 ^ 31 ≤ (2 ^ 32 + seq % 2 ^ 32 - m.seq % 2 ^ 32) % 2 ^ 32) }
/-- Whether a header is one of this fabric with a body of a type's length and no reserved byte set (R429, R430); a VER or DST of its own
makes a message malformed too (log 133). -/
def State.headerOk (s : State) (h : FabHdr) (body : Nat) : Bool :=
  h.ver == 1 && h.dst == s.chip.toNat && h.body == body && h.rsv == 0 && h.brsv == 0

/-- Take the next message of a stream (R430, R431): delivered in order, once, with the acknowledgement its header carries; dropped with an
event where it is malformed or its sender has no grant; else `body`, which gives none where the message waits (log 133). -/
def deliverFab (h : FabHdr) (type len : Nat) (fields : Bool) (body : State → Option State) (s : State) :
    Host.Outcome State Fault Refusal :=
  match s.arrival h with
  | .other => .refused .notEnabled
  | .duplicate => .next s
  | .next p =>
    let p := { p with recvSeq := p.recvSeq + 1, denied := none }
    if !(s.headerOk h len && fields) then .next ((s.setPeer p).dropFab h type 2)
    else
      let s' := s.setPeer (p.acked h.ack)
      if !s.grants.contains (h.dctx, h.src, h.sctx) then .next (s'.dropFab h type 1)
      else match body s' with
        | some s'' => .next s''
        | none => .refused .notEnabled

/-- ACK (R431): the messages up to a SEQ are acknowledged. -/
def execAck (src seq : Nat) (s : State) : Host.Outcome State Fault Refusal :=
  match s.peer? src with
  | some p =>
    .next (s.setPeer (p.acked seq))
  | none => .refused .notEnabled

/-! ### Note messages (R269, R430, R432) -/

/-- RESOLVE (R430, R432): a transition of a note homed here; a failed home check of a posted one is reported (log 35). -/
def execResolve (h : FabHdr) (handle value : Word) (cause kind : Nat) (want : Bool) (token : Word) (s : State) :
    Host.Outcome State Fault Refusal :=
  deliverFab h 0x01 40 (decide (cause < 256) && decide (kind ≤ 4)) (fun s =>
    let (s, r) := s.performNote h.dctx handle (kindOfCode kind) (BitVec.ofNat 8 cause) value
    some (if want then
        s.sendFab h.src h.dctx h.sctx (.resolveReply handle token (r.getD false) (if r.isNone then 0x0A else 0))
      else match r with
        | none => (s.report h.dctx 4 0x0A handle (Config.remoteCoord s.freeCtr) []).tickFree
        | some _ => s)) s

/-- RESOLVE_REPLY (R430): the answer to an awaited transition. -/
def execResolveReply (h : FabHdr) (handle token : Word) (won : Bool) (status : Nat) (s : State) :
    Host.Outcome State Fault Refusal :=
  deliverFab h 0x02 24 (status == 0 || status == 0x0A) (fun s =>
    some (s.answerNote token.toNat handle (if status = 0 then .won won else .badHandle))) s

/-- TOUCH (R248, R250, R269, R432): it goes to the note's home as a touch of this package does, for a proxy waiter, one for each
touching thread. -/
def execFabricTouch (h : FabHdr) (handle proxy : Word) (s : State) : Host.Outcome State Fault Refusal :=
  deliverFab h 0x03 16 true (fun s => some (
    let o : NoteOp := ⟨.touch, handle, 0#64, 0#8, 0, h.dctx, clusterCore (handleHome handle) 0, true, [], false, some (h.src, (proxy, h.sctx))⟩
    if s.isHere handle then s.sendNote o else s.proxyReply o none)) s

/-- A note reply from a state code (R246, R430). -/
def replyOfCode (state cause : Nat) (value : Word) : NoteReply :=
  match state with
  | 2 => .resolved value
  | 3 => .poisoned (BitVec.ofNat 8 cause) value
  | 4 => .cancelled
  | _ => .badHandle

/-- A held record meets the answer of a remote input (R253, R255) (log 72). -/
def State.remoteInput (s : State) (cl : Nat) (k : Held) (handle : Word) (state : Nat) : State :=
  match state with
  | 2 => s.inputDone cl k handle .resolved
  | 3 => s.inputDone cl k handle .poisoned
  | 4 => s.inputDone cl k handle .cancelled
  | _ => (s.discardHeld cl k).failNote k.note .poison 0x0A#8 handle k.id k.ctx k.hint

/-- TOUCH_REPLY (R430, R432): the terminal state of a remote note reaches the thread or record that waits for it. -/
def execTouchReply (h : FabHdr) (handle proxy : Word) (state cause : Nat) (value : Word) (s : State) :
    Host.Outcome State Fault Refusal :=
  deliverFab h 0x04 32 (decide (cause < 256) && (state == 0 || (decide (2 ≤ state) && decide (state ≤ 4)))) (fun s =>
    let who := proxy.toNat
    match (s.heldAt who).filter fun e => e.2.waits.contains handle with
    | some e => some (s.remoteInput e.1 e.2 handle state)
    | none => some (s.answerTouch who handle (replyOfCode state cause value))) s

/-- TAIL (R432): performed as a tail write. -/
def execTail (h : FabHdr) (desc value : Word) (s : State) : Host.Outcome State Fault Refusal :=
  deliverFab h 0x05 16 true (fun s => some { s with tails := s.tails ++ [⟨h.dctx, desc.toNat, value, none, 0, 0, []⟩] }) s

/-! ### Remote puts (R433) -/

/-- Perform the lines of a checked put piece. -/
def State.pokeLines (s : State) (data : Nat) (lines : List (Nat × Piece)) : State :=
  lines.foldl (fun s l => s.poke l.1 l.2.len (slice data l.2.off l.2.len)) s

/-- A failed put piece (R433): its status goes back, and the note is poisoned with the cause (log 96). -/
def State.putFailed (s : State) (h : FabHdr) (number : Nat) (note : Word) (status failva : Nat) : State :=
  let s := s.sendFab h.src h.dctx h.sctx (.putAck number 0 status failva)
  if note = 0#64 then s
  else s.sendNote ⟨.poison, note, BitVec.ofNat 64 failva, BitVec.ofNat 8 status, 0, h.dctx, 0, false, [], false, none⟩

/-- A put piece that has been performed (R433): its acknowledgement, and after the put's last one the note. -/
def State.putDone (s : State) (h : FabHdr) (number total plen : Nat) (note : Word) : State :=
  let key := (h.src, number)
  let got := ((s.putsIn.find? fun e => e.1 == key).map (·.2)).getD 0 + plen
  let rest := s.putsIn.filter fun e => e.1 != key
  let s : State := s.sendFab h.src h.dctx h.sctx (.putAck number plen 0 0)
  let s : State := { s with putsIn := if got < total then (key, got) :: rest else rest }
  if note = 0#64 ∨ got < total then s
  else s.sendNote ⟨.resolve, note, BitVec.ofNat 64 total, 0#8, 0, h.dctx, 0, false, [], false, none⟩

/-- PUT (R433): a piece is checked against the tables of its job and performed without race metadata; a page fault is served first (log 96). -/
def execPut (h : FabHdr) (dst number total plen : Nat) (note : Word) (data : Nat) (s : State) : Host.Outcome State Fault Refusal :=
  let ok := decide (1 ≤ plen ∧ plen ≤ 4096) && decide (data < 256 ^ plen) && decide (dst < 2 ^ 64) && decide (total < 2 ^ 32)
  let who := FaultWaiter.put h.src h.seq
  match s.arrival h with
  | .next p =>
    if s.headerOk h (32 + plen) && ok && s.grants.contains (h.dctx, h.src, h.sctx) then
      match p.denied with
      | some (seq, status, page) =>
        if seq = h.seq then deliverFab h 0x06 (32 + plen) ok (fun s => some (s.putFailed h number note status (max dst (65536 * page)))) s
        else .refused .notEnabled
      | none => match s.checkRun h.dctx .write who (piecesOf dst plen 0) with
        | .wait => .refused .notEnabled
        | .page s => .next s
        | .fail c va => deliverFab h 0x06 (32 + plen) ok (fun s => some (s.putFailed h number note c.code.toNat va)) s
        | .ok lines _ => deliverFab h 0x06 (32 + plen) ok (fun s =>
            if !s.roomFor (lines.map (·.1)) then none
            else
              let (s, pj) := (s.pokeLines data lines).linesCost 0 lines
              some ((s.bill 0 h.dctx pj).putDone h number total plen note)) s
    else deliverFab h 0x06 (32 + plen) ok some s
  | _ => deliverFab h 0x06 (32 + plen) ok some s

/-- The transfer a put number names (R433). -/
def State.putOf (s : State) (h : FabHdr) (number : Nat) : Option Xfer :=
  (s.cores.flatMap (·.xq)).find? fun x => match x.kind with
    | .remote chip rctx _ _ _ n => n == number && chip == h.src && rctx == h.sctx && x.ctx == h.dctx
    | _ => false

/-- PUT_ACK (R433): the acknowledged bytes count toward the put, or its failed piece stops it. -/
def execPutAck (h : FabHdr) (number bytes status failva : Nat) (s : State) : Host.Outcome State Fault Refusal :=
  deliverFab h 0x07 24 (decide (bytes < 2 ^ 32) && [0, 3, 5].contains status) (fun s =>
    match s.putOf h number with
    | none => some s
    | some x =>
      some (if status = 0 then s.setXfer { x with acked := x.acked + bytes }
        else s.stopXfer x (if status = 3 then .access else .ue) (BitVec.ofNat 64 failva))) s

/-! ### Retransmission and ports (R431) -/

/-- A peer is declared down (R431): what is queued toward it is discarded; threads that wait on a note homed there issue again,
and an awaited transition fails as at the local check (log 111). -/
def State.peerDown (s : State) (p : Peer) : State :=
  let s := s.setPeer { p with up := false, unacked := [] }
  let s : State := { s with threads := s.threads.map fun t => match t.run.pending with
    | some (.touch _ _ _ h none) => if handleChip h = p.chip then (t.parkTouch h true).becomeReady s.now else t
    | some (.note h pd none) =>
      if handleChip h = p.chip then { t with run := t.run.setPending (.note h pd (some .badHandle)) } else t
    | _ => t }
  s.postEvent 0 0x09 0xFFFF (p.chip + 2 ^ 128 * s.now)

/-- FABRIC_RETRANSMIT (R431): a message not acknowledged within 20 µs is sent again; after 64 times its peer is down. -/
def execFabricRetransmit (chip seq : Nat) (s : State) : Host.Outcome State Fault Refusal :=
  match s.peer? chip with
  | none => .refused .notEnabled
  | some p => match p.unacked.find? fun m => m.seq == seq with
    | none => .refused .notEnabled
    | some m =>
      if s.now < m.at_ + 20000 then .refused .notEnabled
      else if 64 ≤ m.resent then .next (s.peerDown p)
      else .next (s.setPeer { p with unacked := p.unacked.map fun k =>
        if k.seq = seq then { m with resent := m.resent + 1, at_ := s.now } else k })

/-- PORT_FAIL (R431): the streams of a failed port move to the lowest port that works and keep their numbering (log 36, 111). -/
def execPortFail (port : Nat) (s : State) : Host.Outcome State Fault Refusal :=
  if 4 ≤ port then .refused .notEnabled
  else
    let down := if s.portsDown.contains port then s.portsDown else port :: s.portsDown
    match (List.range 4).find? fun k => !down.contains k with
    | some k => .next { s with portsDown := down, peers := s.peers.map fun p => if down.contains p.port then { p with port := k } else p }
    | none => .next { s with portsDown := down }

end Sys2Proof.Machine
end

