-- ==== Sys2Proof/Machine/Crypto.lean ====
section
/-! DEFINITION. The SM3 digest and the verification of SM2 signatures that R450 and R451 name, as GB/T 32905 and GB/T 32918 define them
(log 134). -/

namespace Sys2Proof.Machine

/-! ### SM3 -/

/-- The eight words of a digest in progress. -/
structure Sm3 where
  a : W32
  b : W32
  c : W32
  d : W32
  e : W32
  f : W32
  g : W32
  h : W32
  deriving DecidableEq, Repr

/-- The words before the first block. -/
def Sm3.start : Sm3 :=
  ⟨0x7380166F#32, 0x4914B2B9#32, 0x172442D7#32, 0xDA8A0600#32, 0xA96F30BC#32, 0x163138AA#32, 0xE38DEE4D#32, 0xB0FB0E4E#32⟩

def sm3P0 (x : W32) : W32 := x ^^^ x.rotateLeft 9 ^^^ x.rotateLeft 17
def sm3P1 (x : W32) : W32 := x ^^^ x.rotateLeft 15 ^^^ x.rotateLeft 23
def sm3FF (j : Nat) (x y z : W32) : W32 := if j < 16 then x ^^^ y ^^^ z else (x &&& y) ||| (x &&& z) ||| (y &&& z)
def sm3GG (j : Nat) (x y z : W32) : W32 := if j < 16 then x ^^^ y ^^^ z else (x &&& y) ||| (~~~x &&& z)
def sm3T (j : Nat) : W32 := (if j < 16 then 0x79CC4519#32 else 0x7A879D8A#32).rotateLeft (j % 32)

/-- `n` more words of the message expansion, the newest word first. -/
def sm3Expand : Nat → List W32 → List W32
  | 0, ws => ws
  | n + 1, ws =>
    let w (i : Nat) : W32 := ws.getD (i - 1) 0#32
    sm3Expand n ((sm3P1 (w 16 ^^^ w 9 ^^^ (w 3).rotateLeft 15) ^^^ (w 13).rotateLeft 7 ^^^ w 6) :: ws)

/-- Round `j` with the words that the round takes. -/
def Sm3.round (v : Sm3) (j : Nat) (w w' : W32) : Sm3 :=
  let s1 := (v.a.rotateLeft 12 + v.e + sm3T j).rotateLeft 7
  let s2 := s1 ^^^ v.a.rotateLeft 12
  { a := sm3FF j v.a v.b v.c + v.d + s2 + w', b := v.a, c := v.b.rotateLeft 9, d := v.c,
    e := sm3P0 (sm3GG j v.e v.f v.g + v.h + s1 + w), f := v.e, g := v.f.rotateLeft 19, h := v.g }
/-- The rounds from `j` on over the expanded words. -/
def Sm3.rounds (ws : List W32) : Nat → Nat → Sm3 → Sm3
  | 0, _, v => v
  | n + 1, j, v => Sm3.rounds ws n (j + 1) (v.round j (ws.getD j 0#32) (ws.getD j 0#32 ^^^ ws.getD (j + 4) 0#32))
/-- The word of four bytes, most significant first. -/
def bigWord (bs : List Byte) : W32 := BitVec.ofNat 32 (ofBytes bs.reverse)
/-- One block of 64 bytes. -/
def Sm3.block (v : Sm3) (bs : List Byte) : Sm3 :=
  let ws := (List.range 16).map fun i => bigWord ((bs.drop (4 * i)).take 4)
  let u := Sm3.rounds (sm3Expand 52 ws.reverse).reverse 64 0 v
  ⟨v.a ^^^ u.a, v.b ^^^ u.b, v.c ^^^ u.c, v.d ^^^ u.d, v.e ^^^ u.e, v.f ^^^ u.f, v.g ^^^ u.g, v.h ^^^ u.h⟩
/-- All blocks of a padded message. The fuel is their number. -/
def Sm3.blocks : Nat → List Byte → Sm3 → Sm3
  | 0, _, v => v
  | n + 1, bs, v => Sm3.blocks n (bs.drop 64) (v.block (bs.take 64))
/-- A message with its padding: a one bit, zeros, and its length in bits. -/
def sm3Pad (m : List Byte) : List Byte :=
  m ++ 0x80#8 :: List.replicate ((119 - m.length % 64) % 64) 0#8 ++ (bytesOf 8 (8 * m.length)).reverse
/-- The digest of a message as a number, its first byte most significant (log 134). -/
def sm3 (m : List Byte) : Nat :=
  let p := sm3Pad m
  let v := Sm3.blocks (p.length / 64) p Sm3.start
  [v.a, v.b, v.c, v.d, v.e, v.f, v.g, v.h].foldl (fun n w => n * 2 ^ 32 + w.toNat) 0
/-- A number of `n` bytes, most significant first (log 134). -/
def bigBytes (n v : Nat) : List Byte := (bytesOf n v).reverse
/-- The number of some bytes, most significant first (log 134). -/
def ofBig (bs : List Byte) : Nat := ofBytes bs.reverse

/-! ### SM2 -/

/-- The curve y² = x³ + a·x + b over the integers modulo p, and its base point of order n. -/
def sm2P : Nat := 0xFFFFFFFEFFFFFFFFFFFFFFFFFFFFFFFFFFFFFFFF00000000FFFFFFFFFFFFFFFF
def sm2A : Nat := sm2P - 3
def sm2B : Nat := 0x28E9FA9E9D9F5E344D5A9E4BCF6509A7F39789F515AB8F92DDBCBD414D940E93
def sm2N : Nat := 0xFFFFFFFEFFFFFFFFFFFFFFFFFFFFFFFF7203DF6B21C6052B53BBF40939D54123
def sm2G : Nat × Nat :=
  (0x32C4AE2C1F1981195F9904466A39C9948FE30BBFF2660BE1715A4589334C74C7,
   0xBC3736A2F4F6779C59BDCEE36B692153D0A9877CC62A474002DF32E52139F0A0)

/-- A power modulo p; the fuel bounds the bits of the exponent. -/
def powMod : Nat → Nat → Nat → Nat
  | 0, _, _ => 1
  | k + 1, b, e =>
    let h := powMod k (b * b % sm2P) (e / 2)
    if e % 2 = 1 then b * h % sm2P else h
/-- A quotient modulo the prime p. -/
def divMod (x y : Nat) : Nat := x * powMod 256 (y % sm2P) (sm2P - 2) % sm2P
def subMod (x y : Nat) : Nat := (x + sm2P - y % sm2P) % sm2P

/-- A point of the curve; none is the point at infinity. -/
abbrev Point := Option (Nat × Nat)
/-- The third point of a line of the given slope, reflected. -/
def Point.chord (l x1 y1 x2 : Nat) : Point :=
  let x3 := subMod (subMod (l * l) x1) x2
  some (x3, subMod (l * subMod x1 x3) y1)
/-- The sum of two points. -/
def Point.add (u v : Point) : Point :=
  match u, v with
  | none, v => v
  | u, none => u
  | some (x1, y1), some (x2, y2) =>
    if x1 ≠ x2 then Point.chord (divMod (subMod y2 y1) (subMod x2 x1)) x1 y1 x2
    else if (y1 + y2) % sm2P = 0 then none
    else Point.chord (divMod (3 * x1 * x1 + sm2A) (2 * y1)) x1 y1 x2
/-- A multiple of a point; the fuel bounds the bits of the factor. -/
def Point.times : Nat → Nat → Point → Point
  | 0, _, _ => none
  | k + 1, e, u =>
    let v := Point.times k (e / 2) (u.add u)
    if e % 2 = 1 then u.add v else v

/-- The default distinguishing identifier, 1234567812345678 (R450). -/
def sm2Id : List Byte := [0x31, 0x32, 0x33, 0x34, 0x35, 0x36, 0x37, 0x38, 0x31, 0x32, 0x33, 0x34, 0x35, 0x36, 0x37, 0x38]
/-- The digest that is signed: of the signer's identity, the curve and key, and the message. -/
def sm2Digest (x y : Nat) (m : List Byte) : Nat :=
  let z := [0x00, 0x80] ++ sm2Id ++ [sm2A, sm2B, sm2G.1, sm2G.2, x, y].flatMap (bigBytes 32)
  sm3 (bigBytes 32 (sm3 z) ++ m)
/-- Whether (r, s) is a signature of a message under the public key (x, y) (R450) (log 134). -/
def sm2Verify (x y : Nat) (m : List Byte) (r s : Nat) : Bool :=
  let t := (r + s) % sm2N
  decide (1 ≤ r ∧ r < sm2N) && decide (1 ≤ s ∧ s < sm2N) && t != 0
    && match Point.add (Point.times 256 s (some sm2G)) (Point.times 256 t (some (x, y))) with
      | some (x1, _) => (sm2Digest x y m + x1) % sm2N == r
      | none => false

end Sys2Proof.Machine
end

