-- ==== Sys2Proof/Machine/Firmware.lean ====
section
/-! DEFINITION. Start-up, the mailbox, job launch and update activation (R449-R454), as the firmware shipped with the device
performs them. -/

namespace Sys2Proof.Machine

/-! ### The mailbox (R452) -/

/-- Answer a command: SEQ, STATUS and body, and MSI-X vector 1 of function 0. -/
def State.answer (s : State) (seq status : Nat) (body : List Byte) : State :=
  let f := s.func 0
  { s.setFunc { f with msix := f.msix ++ [1] } with
    mboxSeq := seq % 2 ^ 32, mboxStatus := status, mboxStage := s.stage, mboxBody := body }

/-- A command is refused: where the manual gives no status, a free one that is not 0 (log 37). -/
def State.refuse (s : State) (seq : Nat) : State :=
  (s.answer seq (1 + Config.refusedStatus s.freeCtr % 65535) []).tickFree

/-- Work on a command: before the package boots nothing answers; a doorbell write while IMAGE_ACTIVATE runs is ignored; below the
stage it needs a command is refused (R449, R452) (log 112). -/
def command (stage seq : Nat) (body : State → State) (s : State) : Host.Outcome State Fault Refusal :=
  if !s.booted || decide (2 ^ 32 ≤ seq) then .refused .notEnabled
  else if s.quiesce.isSome then .next s
  else if s.stage < stage then .next (s.refuse seq)
  else .next (body s)

/-- A command that is refused or changes the state and is answered with status 0. -/
def State.orRefuse (s : State) (seq : Nat) (r : Option State) : State :=
  match r with
  | some s' => s'.answer seq 0 []
  | none => s.refuse seq

/-- Whether a function owns a job (R421). -/
def State.ownsJob (s : State) (func ctx : Nat) : Bool := (s.job? ctx).any fun j => j.func == func

/-- INFO (R449, R451, R452): bytes that tell of a failed first image and of failed stacks, then the certificate chain; the rest of its
contents the manual does not give (log 21, 40). -/
def execInfo (seq : Nat) (s : State) : Host.Outcome State Fault Refusal :=
  command 0 seq (fun s =>
    let chain := Config.certificates.take 1008
    let told := (List.range (Config.infoLength s.freeCtr % (1009 - chain.length))).map fun i =>
      Config.infoByte s.bootFail s.stacksFailed (s.freeCtr + i)
    (s.answer seq 0 (told ++ chain)).tickFree) s

/-- The SM3 digest of the boot ROM (R451) (log 23) (log 134). -/
def romDigest : Nat := sm3 ((List.range Config.romLength).map fun i => Config.romByte (Config.romStart + i))

/-- ATTEST (R451): the record over a 32-byte nonce, signed with the package's key (log 21, 22). -/
def execAttest (seq : Nat) (nonce : List Byte) (s : State) : Host.Outcome State Fault Refusal :=
  command 0 seq (fun s =>
    if nonce.length ≠ 32 then s.refuse seq
    else
      let head := nonce ++ bigBytes 32 romDigest ++ bigBytes 32 s.image.digest ++ bytesOf 4 s.actsvn.toNat
        ++ (List.range 12).map Config.serial ++ List.replicate 16 0#8
      (s.answer seq 0 (head ++ bytesOf 64 (Config.signature s.freeCtr (ofBytes head)))).tickFree) s

/-- Everything zero (R452): HBM, pools and clusters; a note's generation is kept (log 116). -/
def State.zeroAll (s : State) : State :=
  { s with mem := [], poison := [], race := [], cores := [], icache := [], icacheUE := [], clusters := s.clusters.map Cluster.freed }

/-- ZERO (R452): refused while a job runs (log 116). -/
def execZero (seq : Nat) (s : State) : Host.Outcome State Fault Refusal :=
  command 0 seq (fun s => s.orRefuse seq (if s.jobs.isEmpty then some s.zeroAll else none)) s

/-! ### Update activation (R450, R454) -/

/-- IMAGE_STAGE (R452): bytes of an image at an offset. -/
def execImageStage (seq off : Nat) (bytes : List Byte) (s : State) : Host.Outcome State Fault Refusal :=
  command 0 seq (fun s =>
    if 1000 < bytes.length ∨ 2 ^ 32 ≤ off + bytes.length then s.refuse seq
    else { s with staged := Memory.write s.staged off bytes.length (ofBytes bytes),
                  stagedLen := max s.stagedLen (off + bytes.length) }.answer seq 0 []) s

/-- The staged image's header fields (R450). -/
def State.stagedField (s : State) (off n : Nat) : Nat := Memory.read s.staged off n
def State.stagedBytes (s : State) (off n : Nat) : List Byte := bytesOf n (s.stagedField off n)
/-- The image the staged bytes stand for. -/
def State.stagedImage (s : State) : Image :=
  { svn := s.stagedField 4 4, layouts := ((List.range 8).map fun i => s.stagedField (12 + 2 * i) 2).filter (· != 0),
    digest := sm3 (s.stagedBytes 0 (256 + s.stagedField 8 4)) }

/-- The fused digest of the image signing key, as bytes (R443). -/
def State.keyDigest (s : State) : List Byte := s.keydig.toList.flatMap fun w => bytesOf 8 w.toNat
/-- Whether the key and body digests and the signature of the staged image are right (R450) (log 134) (log 113). -/
def State.stagedSigned (s : State) : Bool :=
  let number (off : Nat) : Nat := ofBig (s.stagedBytes off 32)
  bigBytes 32 (sm3 (s.stagedBytes 64 64)) == s.keyDigest
    && bigBytes 32 (sm3 (s.stagedBytes 256 (s.stagedField 8 4))) == s.stagedBytes 192 32
    && sm2Verify (number 64) (number 96) (s.stagedBytes 0 128 ++ s.stagedBytes 192 64) (number 128) (number 160)

/-- The check of the staged image (R450): 0, or the status of IMAGE_ACTIVATE (log 113). -/
def State.imageStatus (s : State) : Nat :=
  if s.stagedLen = 0 then 0x25
  else if s.stagedField 0 4 ≠ 0x4E474657 ∨ s.stagedField 28 36 ≠ 0 ∨ s.stagedField 224 32 ≠ 0
      ∨ s.stagedLen < 256 + s.stagedField 8 4 ∨ !s.stagedSigned then 0x21
  else if s.stagedField 4 4 < s.minsvn.toNat then 0x22
  else 0

/-- Start the stages that a verified image starts (R449): the training of stack 0. -/
def State.startStages (s : State) : State :=
  if s.stage = 0 then { s.setStack { s.stack 0 with state := 1 } with stage := 1 } else s

/-- The end of an activation (R454): the answer, and RESUME to every paused function. -/
def State.resumeAll (s : State) (q : Quiesce) (status : Nat) : State :=
  let s : State := { s with quiesce := none }
  q.need.foldl (fun s f => s.postEvent f 0x07 0xFFFF (status + 2 ^ 128 * s.now)) (s.answer q.seq status [])

/-- The tasks that an activation still waits for: those not in a save frame (R454) (log 102). -/
def State.unsaved (s : State) : List Thread := s.threads.filter fun t => !t.isFw && t.handler.isNone && !t.evicted

/-- Whether the frames of all tasks have a layout that an image reads. -/
def State.framesReadable (s : State) (i : Image) : Bool :=
  s.threads.all fun t => match t.frameVa with
    | some va => i.layouts.contains (s.jobRead t.ctx va 2)
    | none => true

/-- Steps 4-6 of R454, once every acknowledgement is in and every task is saved (log 113). -/
def State.tryActivate (s : State) : State :=
  match s.quiesce with
  | none => s
  | some q =>
    if !(q.need.all q.acks.contains) || !s.unsaved.isEmpty then s
    else
      let i := s.stagedImage
      if !s.framesReadable i then s.resumeAll q 0x23
      else ({ s with image := i, actsvn := BitVec.ofNat 32 i.svn, staged := [], stagedLen := 0, bootFail := false } : State).startStages.resumeAll q 0

/-- IMAGE_ACTIVATE (R454): the check, PAUSE to every virtual function with a job, and the quiet in which tasks are saved (log 112, 114). -/
def execImageActivate (seq timeout : Nat) (s : State) : Host.Outcome State Fault Refusal :=
  command 0 seq (fun s =>
    let status := s.imageStatus
    if status ≠ 0 then s.answer seq status []
    else
      let need := (List.range 32).filter fun f => f != 0 && s.jobs.any fun j => j.func == f
      let ms := if timeout = 0 then 10000 else timeout % 2 ^ 32
      let s := need.foldl (fun s f => s.postEvent f 0x06 0xFFFF (1 + 2 ^ 128 * s.now)) s
      ({ s with quiesce := some ⟨seq, [], need, s.now + 1000000 * ms⟩ } : State).tryActivate) s

/-- QUIESCE_ACK (R454): the hypervisor acknowledges a paused function (log 112). -/
def execQuiesceAck (seq func : Nat) (s : State) : Host.Outcome State Fault Refusal :=
  if !s.booted || decide (2 ^ 32 ≤ seq) then .refused .notEnabled
  else match s.quiesce with
    | some q =>
      if q.need.contains func then
        .next (({ s with quiesce := some { q with acks := func :: q.acks } } : State).answer seq 0 []).tryActivate
      else .next (s.refuse seq)
    | none => .next (s.refuse seq)

/-- QUIESCE_TIMEOUT (R454): the acknowledgements are not complete by the timeout. -/
def execQuiesceTimeout (s : State) : Host.Outcome State Fault Refusal :=
  match s.quiesce with
  | some q =>
    if q.need.all q.acks.contains || decide (s.now < q.timeoutAt) then .refused .notEnabled
    else .next (s.resumeAll q 0x24)
  | none => .refused .notEnabled

/-! ### Launch and end of a job (R452, R453) -/

/-- The clusters a launch names, in ascending order, each with its vault. -/
def launchClusters (d : JobDesc) : List (Nat × Nat) :=
  ((List.range 128).filter fun c => if c < 64 then d.mask0.getLsbD c else d.mask1.getLsbD (c - 64)).zip d.vaults
/-- The grant of one cluster (R445, R453). -/
def launchGrant (d : JobDesc) (e : Nat × Nat) : Grant :=
  { cl := e.1, cores := 0xFFFF, ctx := d.ctx, reg := d.poolReg, l1 := d.poolL1, tagged := d.tagged, vault := e.2,
    rsv := d.rsv != 0 }
/-- The number of clusters named. -/
def launchCount (d : JobDesc) : Nat :=
  ((List.range 64).filter fun c => d.mask0.getLsbD c).length + ((List.range 64).filter fun c => d.mask1.getLsbD c).length

/-- The status of a launch (R445, R453): of the first grant that fails; 3 where no vault is left, none of them given twice; 6 where no cluster is named (log 115). -/
def State.launchStatus (s : State) (d : JobDesc) : Nat :=
  let es := launchClusters d
  if launchCount d = 0 ∨ d.rsv ≠ 0 then 6
  else match (es.map fun e => s.grantStatus (launchGrant d e)).find? (· != 0) with
    | some st => st
    | none =>
      let held (v : Nat) : Bool := s.clusters.any fun c => c.owner.isSome && c.vault == v
      if es.length < launchCount d ∨ ¬ (es.map (·.2)).Nodup ∨ es.any (fun e => held e.2) then 3 else 0

/-- A base of R94: bits 63:52 and 15:0 read 0 (log 131). -/
def baseOf (x : Nat) : Nat := x % 2 ^ 52 / 65536 * 65536
/-- The job of a launch (R453); a zero AGE or AGECAP takes its default (R305); the table root is a multiple of 1 MiB below 2^48 (R190)
(log 114, 131). -/
def jobOf (func : Nat) (d : JobDesc) : Job :=
  { ctx := d.ctx, func := func, cbase := baseOf d.cbase, dbase := baseOf d.dbase, root := d.root % 2 ^ 48 / 1048576 * 1048576, saveVA := d.saveVA, saveBytes := d.saveBytes,
    reportVA := d.reportVA, reportBytes := d.reportBytes, faultVA := d.faultVA / 16 * 16, faultLog2 := d.faultVA % 16,
    handler := d.handler, asleep := if d.asleep = 0xFFFFFFFF then none else some d.asleep, wlimit := d.wlimit,
    budget := d.budget, age := if d.age = 0 then 64 else d.age, ageCap := max 64 d.ageCap, energy := 0, faultK := 0,
    frames := [], disarmed := false, sleepTask := none, remap := [], mapAsked := [] }

/-- The report header that firmware writes (R148) (log 115). -/
def State.writeReportHeader (s : State) (d : JobDesc) : State :=
  s.jobWrite d.ctx d.reportVA 64 (2 ^ 192 * ((d.reportBytes - 64) / 32 % 2 ^ 32))

/-- The root task's record (R240, R453): what LAUNCH does not give is free, and an offset that is no multiple of 4 is taken as it
is (log 38). -/
def rootRecord (d : JobDesc) : TaskRec :=
  { entry := d.rootTask, budget := 0, prio := Config.rootField 0 % 256, stage := Config.rootField 1 % 16,
    radius := Config.rootField 2 % 16, pin := false, hintv := false, dep0 := false, dep1 := false, nin := 0, tx := 0, ty := 0,
    tz := 0, hintx := 0, hinty := 0, arg0 := d.arg0, arg1 := 0, arg2 := 0, arg3 := 0, in0 := 0#64, in1 := 0#64, subs := [] }

/-- Dispatch the root task (R254) (log 38). -/
def State.startRoot (s : State) (d : JobDesc) : State :=
  let cores := s.ownedCores d.ctx
  let core := cores.getD (Config.rootField 3 % max 1 cores.length) 0
  let phase := Config.rootField 4 % 7
  let (tid, s) := s.takeTid
  s.start (s.taskThread (heldRecord tid d.ctx 0#64 (rootRecord d) none core 0 s.now [] true) core phase)

/-- Whether the fields fit the job description's (R453). -/
def jobFits (d : JobDesc) : Bool :=
  [d.cbase, d.dbase, d.root, d.saveVA, d.saveBytes, d.reportVA, d.reportBytes, d.faultVA].all (fun x => decide (x < 2 ^ 64))
    && [d.handler, d.asleep, d.wlimit, d.budget, d.rootTask, d.arg0].all (fun x => decide (x < 2 ^ 32))
    && decide (d.age < 65536) && decide (d.rsv < 65536)
    && [d.ageCap, d.poolReg, d.poolL1, d.tagged].all fun x => decide (x < 256)

/-- LAUNCH (R448, R453): firmware chooses a CTXID that no job has and each cluster's vault; nothing is granted where a check fails (log 115). -/
def execLaunch (seq func : Nat) (d : JobDesc) (s : State) : Host.Outcome State Fault Refusal :=
  if !jobFits d || decide (4096 ≤ d.ctx) || (s.job? d.ctx).isSome || decide (32 ≤ func) then .refused .notEnabled
  else command 2 seq (fun s =>
    let status := s.launchStatus d
    if status ≠ 0 then s.answer seq status []
    else
      let s : State := { s with jobs := s.jobs ++ [jobOf func d], tlb := s.tlb.filter fun e => e.ctx != d.ctx }
      let s := (launchClusters d).foldl (fun s e => s.grant (launchGrant d e)) s
      ((s.writeReportHeader d).startRoot d).answer seq 0 (bytesOf 2 d.ctx)) s

/-- END (R421, R452): of a job that the function owns (log 100) (log 99). -/
def execEnd (seq : Nat) (job : JobRef) (s : State) : Host.Outcome State Fault Refusal :=
  command 2 seq (fun s => s.orRefuse seq (if s.ownsJob job.func job.ctx then some (s.endJob job.ctx 0) else none)) s

/-- Firmware ends a job that it found asleep and that nothing has woken since (R147, R426) (log 100). -/
def State.endAsleep (s : State) (ctx : Nat) : Option State :=
  if (s.job? ctx).any (·.disarmed) then some (s.endJob ctx 1) else none

/-! ### The other commands -/

/-- CONTRACT (R307, R308, R421): the answer carries the contract's status; the record's stack must answer (R388). -/
def execContract (seq : Nat) (job : JobRef) (va : Nat) (s : State) : Host.Outcome State Fault Refusal :=
  if !s.frameAwake job.ctx va 64 then .refused .notEnabled
  else command 2 seq (fun s =>
    if !s.ownsJob job.func job.ctx then s.refuse seq
    else
      let (s, status) := s.submitContract job.ctx va
      s.answer seq status []) s
/-- CONTRACT_WITHDRAW (R312, R421). -/
def execContractWithdraw (seq : Nat) (job : JobRef) (va : Nat) (s : State) : Host.Outcome State Fault Refusal :=
  command 2 seq (fun s =>
    let (s', found) := s.withdrawContract job.ctx va
    s.orRefuse seq (if s.ownsJob job.func job.ctx && found then some s' else none)) s

/-- APERTURE (R421): the BAR2 window of a function onto a job it owns. -/
def execAperture (seq func ctx base : Nat) (s : State) : Host.Outcome State Fault Refusal :=
  command 2 seq (fun s => s.orRefuse seq
    (if s.ownsJob func ctx && base % 2 ^ 36 == 0 && decide (base < 2 ^ 64) then
      some (s.setFunc { s.func func with aperture := some (ctx, base) }) else none)) s

/-- DOORBELL (R424): binds a doorbell to a queue descriptor of a job the function owns. -/
def execDoorbell (seq func idx ctx va : Nat) (s : State) : Host.Outcome State Fault Refusal :=
  command 2 seq (fun s => s.orRefuse seq
    (if s.ownsJob func ctx && decide (idx < 64) && va % 64 == 0 && decide (va < 2 ^ 52) then
      some (s.setFunc { s.func func with doorbells := assign (s.func func).doorbells idx (ctx, va) }) else none)) s

/-- Luma samples per second of a complex's open streams (R434). -/
def State.lumaRate (s : State) (complex : Nat) : Nat :=
  (s.streams.filter fun k => k.n / 16 == complex).foldl (fun n k => n + k.width * k.height * k.rate) 0
/-- Whether a stream may be opened (R434) (log 117). -/
def State.streamOk (s : State) (d : StreamDesc) : Bool :=
  decide (d.complex < 4) && decide (d.codec < 2) && decide (64 ≤ d.width ∧ d.width ≤ 4096) && decide (64 ≤ d.height ∧ d.height ≤ 2304)
    && d.width % 8 == 0 && d.height % 8 == 0 && decide (1 ≤ d.keyint ∧ d.keyint ≤ 65535)
    && decide (s.lumaRate d.complex + d.width * d.height * d.rate ≤ 829440000)

/-- STREAM (R434): opens a stream in the lowest free slot of its complex; the answer carries the stream number (log 117). -/
def execStream (seq func ctx : Nat) (d : StreamDesc) (s : State) : Host.Outcome State Fault Refusal :=
  command 2 seq (fun s =>
    match (List.range 16).find? (fun i => s.streams.all fun k => k.n != 16 * d.complex + i) with
    | none => s.refuse seq
    | some i =>
      if !s.ownsJob func ctx || !s.streamOk d then s.refuse seq
      else
        let k : Stream :=
          { n := 16 * d.complex + i, ctx := ctx, codec := d.codec, width := d.width, height := d.height, rate := d.rate,
            keyint := d.keyint, etl := 0#64, eissued := 0#64, frames := [], nextKey := true, sinceKey := 0 }
        ({ s with streams := s.streams ++ [k] } : State).answer seq 0 (bytesOf 4 k.n)) s

/-- A stream closes (R438): its posted frames are stopped and wait for no page. -/
def State.closeStream (s : State) (n : Nat) : State :=
  { s with
    streams := s.streams.filter fun k => k.n != n,
    faults := s.faults.map fun f => { f with waiters := f.waiters.filter (· != .encoder n) } }
/-- STREAM_CLOSE (R438): the posted frames are stopped, and the slot is free. -/
def execStreamClose (seq func n : Nat) (s : State) : Host.Outcome State Fault Refusal :=
  command 2 seq (fun s => s.orRefuse seq
    (match s.streams.find? fun k => k.n == n with
      | some k => if s.ownsJob func k.ctx then some (s.closeStream n) else none
      | none => none)) s

/-- FABRIC (R428): the chip number and the UDP port, while no job runs (log 117). -/
def execFabric (seq chip port : Nat) (s : State) : Host.Outcome State Fault Refusal :=
  command 1 seq (fun s => s.orRefuse seq
    (if s.jobs.isEmpty && decide (1 ≤ chip ∧ chip ≤ 4095) && decide (1024 ≤ port ∧ port ≤ 65535) then
      some { s with chip := BitVec.ofNat 12 chip, udpPort := BitVec.ofNat 16 port } else none)) s

/-- The port of the stream to a chip (R431): by a hash of the pair, off the failed ports (log 36). -/
def State.portFor (s : State) (chip : Nat) : Nat :=
  let k := Config.portHash s.chip.toNat chip % 4
  if s.portsDown.contains k then ((List.range 4).find? fun k => !s.portsDown.contains k).getD k else k
/-- PEER (R428): an entry of the peer table, while no job runs; its streams start afresh (log 36, 117). -/
def execPeer (seq chip : Nat) (addr : BitVec 128) (s : State) : Host.Outcome State Fault Refusal :=
  command 1 seq (fun s => s.orRefuse seq
    (if s.jobs.isEmpty && decide (1 ≤ chip ∧ chip ≤ 4095) then
      let p : Peer :=
        { chip := chip, addr := addr, up := true, port := s.portFor chip, sendSeq := 0, recvSeq := 0,
          denied := none, unacked := [] }
      some { s with peers := p :: s.peers.filter fun q => q.chip != chip }
    else none)) s

/-- FABRIC_GRANT (R421, R431, R452): allows messages from a remote context to a local job, or withdraws that. -/
def execFabricGrant (seq : Nat) (job : JobRef) (src sctx : Nat) (revoke : Bool) (s : State) : Host.Outcome State Fault Refusal :=
  command 2 seq (fun s => s.orRefuse seq
    (if !s.ownsJob job.func job.ctx || decide (4096 ≤ src) || decide (4096 ≤ sctx) then none
    else
      let rest := s.grants.filter fun g => g != (job.ctx, src, sctx)
      some { s with grants := if revoke then rest else (job.ctx, src, sctx) :: rest })) s

/-- PIPELINE (R297, R298, R421): a pipeline table of a job; its stacks must answer (R388). -/
def execPipeline (seq : Nat) (job : JobRef) (va : Nat) (s : State) : Host.Outcome State Fault Refusal :=
  if !s.frameAwake job.ctx va 4624 then .refused .notEnabled
  else command 2 seq (fun s => s.orRefuse seq (if s.ownsJob job.func job.ctx then some (s.launchPipeline job.ctx va) else none)) s

/-! ### Start-up (R449) -/

/-- PACKAGE_RESET (R449): firmware core 0 of die 0 boots from ROM, and the first image is verified. The fuses, host memory and what is
still to happen outside stay (log 7, 39, 41, 118). -/
def execPackageReset (s : State) : Host.Outcome State Fault Refusal :=
  let r := State.reset
  let boot := Thread.fresh 1 4096 (.fw 0 0 0) Config.romEntry
  let ok := Config.firstSigned && decide (s.minsvn ≤ Config.firstSvn)
  let r : State := { r with
    agenda := s.agenda, freeCtr := s.freeCtr, hostMem := s.hostMem, minsvn := s.minsvn, keydig := s.keydig, booted := true,
    threads := [boot], nextTid := 2, cur := 1 }
  .next (if ok then
      ({ r with image := ⟨Config.firstSvn.toNat, Config.firstLayouts, Config.firstDigest⟩, actsvn := Config.firstSvn } : State).startStages
    else { r with bootFail := true })

/-- STACK_TRAINED (R375, R449): the stack in training goes online with all its dies, or stays absent, of which INFO tells; the next begins, and after the
last stage 2 does (log 118). -/
def execStackTrained (stack : Nat) (ok : Bool) (localsa : Nat) (s : State) : Host.Outcome State Fault Refusal :=
  let k := s.stack stack
  if s.stage ≠ 1 ∨ k.state ≠ 1 ∨ 12 ≤ stack ∨ 32 < localsa then .refused .notEnabled
  else
    let full : Stack := { k with dies := 0xFFFF#16, localsa := localsa, state := 2 }
    let s := s.setStack (if ok then { full with igran := full.granules } else { k with state := 0 })
    let s := if ok then s else { s with stacksFailed := stack :: s.stacksFailed }
    .next (if stack = 11 then { s with stage := 2 } else s.setStack { s.stack (stack + 1) with state := 1 })

/-- CLUSTER_RELEASE (R449): a cluster passes its self-test, or never works (log 118). -/
def execClusterRelease (cluster : Nat) (ok : Bool) (s : State) : Host.Outcome State Fault Refusal :=
  let k := s.cluster cluster
  if s.stage ≠ 2 ∨ 128 ≤ cluster ∨ k.released ∨ k.failed then .refused .notEnabled
  else .next (s.setCluster { k with released := ok, failed := !ok })

end Sys2Proof.Machine
end

