-- ==== Sys2Proof/Machine/Mailbox.lean ====
section
/-! DEFINITION. The host's writes to BAR0 that have no step of their own (R421, R426), and the management mailbox (R452): a write of its
doorbell runs the command that stands in its buffer. -/

namespace Sys2Proof.Machine

/-! ### Commands (R452) -/

/-- Byte `off` on of a command's body, `n` bytes as a number. -/
def State.mboxField (s : State) (off n : Nat) : Nat := Memory.read s.mboxBuf (16 + off) n
/-- The body of a command as bytes. -/
def State.mboxBytes (s : State) (off n : Nat) : List Byte := bytesOf n (s.mboxField off n)

/-- The CTXID that firmware gives a launch: one that no job has (log 135). -/
def State.pickCtx (s : State) : Nat :=
  let first := Config.firstCtx s.freeCtr
  (((List.range (s.jobs.length + 1)).map fun i => (first + i) % 4096).find? fun c => (s.job? c).isNone).getD (first % 4096)
/-- The areas that firmware keeps for vaults and no cluster holds (R453) (log 135). -/
def State.freeVaults (s : State) : List Nat :=
  (((List.range Config.vaultCount).map Config.vaultPa).filter fun v =>
    v % 2 ^ 22 == 0 && s.present v && s.clusters.all fun c => c.owner.isNone || c.vault != v).eraseDups

/-- The job description of a LAUNCH (R453). -/
def State.mboxJob (s : State) : JobDesc :=
  let f := s.mboxField
  { ctx := s.pickCtx, cbase := f 0 8, dbase := f 8 8, root := f 16 8, saveVA := f 24 8, saveBytes := f 32 8, reportVA := f 40 8,
    reportBytes := f 48 8, faultVA := f 56 8, faultLog2 := f 56 8 % 16, handler := f 64 4, asleep := f 68 4, wlimit := f 72 4,
    budget := f 76 4, age := f 80 2, ageCap := f 82 1, poolReg := f 83 1, poolL1 := f 84 1, tagged := f 85 1, rsv := f 86 2,
    mask0 := BitVec.ofNat 64 (f 88 8), mask1 := BitVec.ofNat 64 (f 96 8), rootTask := f 104 4, arg0 := f 108 4,
    vaults := s.freeVaults }
/-- The fields of a STREAM command behind its CTXID (R434); firmware chooses the complex (log 135). -/
def State.mboxStream (s : State) : StreamDesc :=
  let f (i : Nat) : Nat := s.mboxField (4 * i) 4
  { complex := Config.streamComplex s.freeCtr % 4, codec := f 1, width := f 2, height := f 3, rate := f 4, keyint := f 5 }

/-- A command that the host has written is refused: an OP that the table does not list, or a body of another length (R452) (log 135). -/
def badCommand (seq : Nat) (s : State) : Host.Outcome State Fault Refusal := command 0 seq (·.refuse seq) s

/-- The bodies of the commands from 0x22 on are dwords in the order in which their rules list the fields; a virtual address is two
dwords (R452) (log 135). -/
def jobCommand (seq fn op len : Nat) (s : State) : Host.Outcome State Fault Refusal :=
  let d (i : Nat) : Nat := s.mboxField (4 * i) 4
  let q (i : Nat) : Nat := s.mboxField (4 * i) 8
  match op, len with
  | 0x22, 12 => execContract seq ⟨fn, d 0⟩ (q 1) s
  | 0x23, 12 => execAperture seq fn (d 0) (q 1) s
  | 0x24, 16 => execDoorbell seq fn (d 0) (d 1) (q 2) s
  | 0x25, 24 => execStream seq fn (d 0) s.mboxStream s
  | 0x26, 8 => execFabric seq (d 0) (d 1) s
  | 0x27, 20 => execPeer seq (d 0) (BitVec.ofNat 128 (s.mboxField 4 16)) s
  | 0x28, 12 => execPipeline seq ⟨fn, d 0⟩ (q 1) s
  | 0x29, 10 =>
    if s.mboxField 7 3 ≠ 0 then badCommand seq s
    else execFabricGrant seq ⟨fn, s.mboxField 0 2⟩ (s.mboxField 2 2) (s.mboxField 4 2) (s.mboxField 6 1 == 1) s
  | 0x2A, 4 => execStreamClose seq fn (d 0) s
  | 0x2B, 16 => if s.mboxField 2 6 ≠ 0 then badCommand seq s else execContractWithdraw seq ⟨fn, s.mboxField 0 2⟩ (s.mboxField 8 8) s
  | _, _ => badCommand seq s

/-- The command in the mailbox (R452): OP, the function that acts, LEN, SEQ, and four zero bytes. -/
def State.runCommand (s : State) (seq : Nat) : Host.Outcome State Fault Refusal :=
  let h (off n : Nat) : Nat := Memory.read s.mboxBuf off n
  let op := h 0 2
  let fn := h 2 2
  let len := h 4 4
  let number := s.mboxField 0 len
  if h 8 4 ≠ seq ∨ h 12 4 ≠ 0 ∨ 1008 < len ∨ 32 ≤ fn then badCommand seq s
  else match op with
    | 0x01 => if len = 0 then execInfo seq s else badCommand seq s
    | 0x02 => execAttest seq (s.mboxBytes 0 len) s
    | 0x03 => if len = 0 then execZero seq s else badCommand seq s
    | 0x10 => if 8 ≤ len then execImageStage seq (s.mboxField 0 8) (s.mboxBytes 8 (len - 8)) s else badCommand seq s
    | 0x11 => if len = 0 ∨ len = 4 then execImageActivate seq number s else badCommand seq s
    | 0x12 => if 1 ≤ len ∧ len ≤ 8 then execQuiesceAck seq number s else badCommand seq s
    | 0x20 => if len = 112 then execLaunch seq fn s.mboxJob s else badCommand seq s
    | 0x21 => if 1 ≤ len ∧ len ≤ 8 then execEnd seq ⟨fn, number⟩ s else badCommand seq s
    | _ => jobCommand seq fn op len s

/-! ### HOST_REGISTER_WRITE (R421, R426, R452) -/

/-- HOST_REGISTER_WRITE (R421, R426, R452): an 8-byte write of BAR0 to RBASE, the MSI-X table, the mailbox's buffer or its doorbell; the
read-only and reserved registers keep what they hold. Doorbells, RCFG and READ have steps of their own. -/
def execHostRegisterWrite (func off val : Nat) (s : State) : Host.Outcome State Fault Refusal :=
  let own := (decide (0x1000 ≤ off) && decide (off < 0x1200)) || off == 0x2008 || off == 0x2018
  if decide (65536 ≤ off) || off % 8 != 0 || own then .refused .notEnabled
  else hostAccess func (fun s =>
    let f := s.func func
    if off = 0x2000 then .next (s.setFunc { f with rbase := BitVec.ofNat 64 val })
    else if off < 512 then .next (s.setFunc { f with msixTable := Memory.write f.msixTable off 8 val })
    else if func = 0 ∧ 0x8000 ≤ off ∧ off < 0x8400 then .next { s with mboxBuf := Memory.write s.mboxBuf (off - 0x8000) 8 val }
    else if func = 0 ∧ off = 0x8800 ∧ s.booted = true then s.runCommand (val % 2 ^ 32)
    else .next s) s

end Sys2Proof.Machine
end

