-- ==== Sys2Proof/Machine/Messages.lean ====
section
/-! DEFINITION. Active messages (R164-R168). -/

namespace Sys2Proof.Machine

/-- Descriptor fields (R164). -/
def msgEntry (d : Word) : Nat := (d.extractLsb' 16 32).toNat
def msgX (d : Word) : Nat := (d.extractLsb' 0 8).toNat
def msgY (d : Word) : Nat := (d.extractLsb' 8 8).toNat
/-- Whether a descriptor names a core of the job (R165). -/
def State.msgOk (s : State) (ctx : Nat) (d : Word) : Bool :=
  d.extractLsb' 48 16 == 0#16 && d.extractLsb' 16 2 == 0#2 && decide (msgX d < 64) && decide (msgY d < 32)
    && s.owns ctx (coreAt (msgX d) (msgY d))

/-- The message a thread sends (R165, R223): it follows the thread's outstanding stores. -/
def message (t : Thread) (s : State) (d arg : Word) (reply : Bool) : Msg :=
  { ctx := t.ctx, entry := msgEntry d, target := coreAt (msgX d) (msgY d), sender := t.tid, senderCore := t.coreId,
    senderPhase := t.lastPhase, senderCoord := coordOf s.chip t.coreId, arg := arg, wantReply := reply,
    after := s.earlier t.tid, charge := (t.handler.map (·.charge)).getD t.tid }

/-- A message enters its core's outbound buffer (R165). -/
def State.sendOut (s : State) (m : Msg) : State := s.modCore m.senderCore fun c => { c with outb := c.outb ++ [m] }

/-- Send an active message (R165): descriptor check, an entry of the outbound buffer, then `after` with the thread. -/
def sendMsg (o : OpR) (dst : List Reg) (reply : Bool) (rest : Word → Thread → State → Thread) (t : Thread) (s : State) :
    Done :=
  match ready t s o.w [o.a, o.b] dst with
  | some stop => .error stop
  | none =>
    let d := srcVal t s o.w o.a
    if !s.msgOk t.ctx d then .error (.trap .access d)
    else
      let free := decide ((s.core t.coreId).outb.length < Config.outboundEntries)
      let m := message t s d (srcVal t s o.w o.b) reply
      let p : Pending := .sendMsg m (if reply then some o.d else none)
      if t.handler.isSome && (!free || s.othersBefore t .outb t.coreId) then .error (.trap .access t.pc)
      else atSync true o.w d [o.a, o.b] (.unit .outb t.coreId p) (taking .outb t.coreId free o.w d [o.a, o.b] p fun t s =>
        let s' := (consume t s [o.a, o.b]).sendOut m
        .ok (rest d t s', s')) t s

/-- `amsg` (R165): leaves the rotation until the handler's reply. -/
def execAmsg (o : OpR) (s : State) : Host.Outcome State Fault Refusal :=
  issue (.amsg o) (sendMsg o [o.d] true fun d t s => t.leave s.now (memWake o.w d) (.amsg o.d none)) s
/-- `amsg.n` (R165): done once the message has entered the mesh. -/
def execAmsgN (o : OpR) (s : State) : Host.Outcome State Fault Refusal :=
  issue (.amsgN o) (sendMsg o [] false fun _ t _ => t.advance) s

/-- Give a waiting sender its reply (R167). -/
def State.replyTo (s : State) (sender : Nat) (v : Word) : State :=
  s.modThread sender fun u => match u.run.pending with
    | some (.amsg d _) => { u with run := u.run.setPending (.amsg d (some (.inl v))) }
    | _ => u

/-- `amret` (R165, R167): the end of the handler; its value is the sender's reply. -/
def execAmret (o : OpR) (s : State) : Host.Outcome State Fault Refusal :=
  issue (.amret o) (fun t s => match ready t s o.w [o.a] [] with
    | some stop => .error stop
    | none =>
      let v := srcVal t s o.w o.a
      let s' := (consume t s [o.a]).dropThread t.tid
      match t.handler with
      | some h => .ok (t, if h.wantReply then s'.replyTo h.sender v else s')
      | none => .ok (t, s')) s

/-- AMSG_ARRIVE (R166): message `entry` of a core's outbound buffer enters its target's inbound queue, once the sender's
earlier stores are performed, in the order in which the core sent to that target. -/
def execAmsgArrive (core entry : Nat) (s : State) : Host.Outcome State Fault Refusal :=
  let c := s.core core
  match c.outb[entry]? with
  | some m =>
    if s.performed m.after && (s.core m.target).inb.length < Config.inboundEntries
        && !((c.outb.take entry).any fun k => k.target == m.target) then
      let s := s.setCore { c with outb := c.outb.eraseIdx entry }
      .next (s.modCore m.target fun k => { k with inb := k.inb ++ [m] })
    else .refused .notEnabled
  | none => .refused .notEnabled

/-- AMSG_HANDLER_START (R167): phase 7 takes the oldest message of a core's inbound queue. -/
def execAmsgHandlerStart (core : Nat) (s : State) : Host.Outcome State Fault Refusal :=
  match (s.core core).inb with
  | m :: rest =>
    if s.threads.any (fun t => t.loc == .phase core 7) then .refused .notEnabled
    else
      let (tid, s) := (s.modCore core fun c => { c with inb := rest }).takeTid
      let cbase := ((s.job? m.ctx).map (·.cbase)).getD 0
      .next { s with threads := s.threads ++ [{ Thread.handlerOf tid cbase m with lastIssue := s.now }] }
  | [] => .refused .notEnabled

/-- HANDLER_ISSUE_LIMIT (R168): the 257th issue of a handler takes ACCESS at its address. -/
def execHandlerIssueLimit (tid : Nat) (s : State) : Host.Outcome State Fault Refusal :=
  match s.thread? tid with
  | some t => match t.handler with
    | some h => if 256 ≤ h.issues ∧ t.run = .runnable then .next (takeTrap t .access t.pc t.pc s) else .refused .notEnabled
    | none => .refused .notEnabled
  | none => .refused .notEnabled

end Sys2Proof.Machine
end

