-- ==== Sys2Proof/Machine/Reply.lean ====
section
/-! DEFINITION. Replies to threads out of the rotation (R115, R136) and the outcomes of fault records (R204, R456). -/

namespace Sys2Proof.Machine

/-! ### What the reply is -/

/-- A tile-store load when its bank replies (R155, R158, R186) (log 119). -/
def replyTileLoad (t : Thread) (s : State) (ea size : Nat) (ext : Ext) (d : Reg) : State × Delivery :=
  match (s.cluster t.cluster).tileBad 0 ea size with
  | some b => (s, .trapped .ue (BitVec.ofNat 64 b))
  | none => (s.bill t.tid t.ctx (tileCost size), .loaded d ext size ((s.cluster t.cluster).tileRead 0 ea size))
/-- A tile-store store (R158): the layout tags stay (R160) (log 119). -/
def replyTileStore (t : Thread) (s : State) (ea size v : Nat) : State × Delivery :=
  ((s.modCluster t.cluster fun c => { c.tileWrite 0 ea size v with ltags := c.ltags }).bill t.tid t.ctx (tileCost size),
    Delivery.none')

/-- What comes of the operation a thread awaits: nothing yet; a reply; another operation to await; the thread waits at another blocking
point or fetches again; an inline child; or a firmware access behind which nothing stands. -/
inductive Answer where
  | wait
  | done (s : State) (r : Delivery)
  | goOn (s : State) (p : Pending)
  | left (s : State)
  | child (s : State) (u : Thread) (r : Delivery)
  | absent (pa : Nat)

/-- An answer from one that is there or not yet. -/
def Answer.ofOption : Option (State × Delivery) → Answer
  | some (s, r) => .done s r
  | none => .wait
def Answer.ofQueue : QueueReply → Answer
  | .wait => .wait
  | .done s r => .done s r
  | .goOn s p => .goOn s p
  | .park s => .left s
def Answer.ofSpawn : Spawned → Answer
  | .wait => .wait
  | .done s r => .done s r
  | .inline s u r => .child s u r

/-- A checked load whose region tag finds the spill area full waits; that is reported once (R233). -/
def State.spillWait (s : State) (p : Pending) : Answer :=
  match p with
  | .load _ pa _ _ _ true _ none => match s.tellSpill pa with
    | some s => .goOn s p
    | none => .wait
  | _ => .wait

/-- A load's answer (log 43) (log 127). -/
def State.loadAnswer (s : State) (t : Thread) (va : Word) (pa size : Nat) (ext : Ext) (d : Reg) (chk : Bool) (num : Nat)
    (hit : Option Nat) : Answer :=
  if t.isFw && !s.present pa then .absent pa
  else match replyLoad t s va pa size ext d chk num hit with
    | some (s, r) => .done s r
    | none => if s.awake pa && !s.loadBefore t.unit pa num then s.spillWait (.load va pa size ext d chk num hit) else .wait

/-- An ordered access's answer (log 44) (log 127). -/
def State.orderedAnswer (s : State) (t : Thread) (op : OrdOp) (r : Ord) (va : Word) (pa : Nat) (scope x y : Word) (d : Reg)
    (chk : Bool) (after : List Nat) (num : Nat) (win : Option Nat) : Answer :=
  if t.isFw && !s.present pa then .absent pa else .ofOption (replyOrdered t s op r va pa scope x y d chk after num win)

/-! ### Waits for a walk (R197, R198) -/

/-- Whether a walk of a cluster has a walker: it is one of the first sixteen pages in the order of arrival, or joins one of them
(R198). -/
def State.hasWalker (s : State) (t : Thread) (va num : Nat) : Bool :=
  let mine : Nat × Nat := (t.ctx, va / 65536)
  let first := s.threads.filterMap fun u => match u.run.pending with
    | some (.walk _ v _ n _) =>
      if u.cluster = t.cluster ∧ n < num ∧ (u.ctx, v.toNat / 65536) ≠ mine then some (u.ctx, v.toNat / 65536) else none
    | _ => none
  decide (first.eraseDups.length < 16)

/-- What an access does once its translation is there (R195, R209-R217): a load looks for its value; a store and an ordered access take
their place in the order of issue. -/
def translatedTo (t : Thread) (s : State) (pa : Nat) (chk : Bool) : Pending → Pending
  | .load ea _ size ext d _ _ _ => loadFrom ea size ext d pa chk t s
  | .post ea _ size v _ => if chk then .storeChk ea pa size v s.nextId else .post ea pa size v s.nextId
  | .sync ended all (.ordered op r ea _ scope x y d _ after _ win) =>
    .sync ended all (.ordered op r ea pa scope x y d chk after s.nextId win)
  | p => p

/-- The checks of an operation whose walk is done, and what it awaits then. -/
def State.walked (s : State) (t : Thread) (need : Need) (va : Word) (size : Nat) (p : Pending) : QChecked :=
  match p with
  | .fetch va => .ok (.fetch va)
  | .qpush n pd d q _ _ r _ _ after => pushChecked n pd d q s.nextId r after t s
  | .qpop n pd d q _ _ r _ => popChecked n pd d q s.nextId r t s
  | .qtail q v _ _ after => tailChecked q v s.nextId after t s
  | p => match s.access t need va.toNat size with
    | .asleep => .wait
    | .access => .stop .access va
    | .ue => .stop .ue va
    | .page w => .page need va w
    | .ok pa leaf => .ok (translatedTo t s pa (leafChk leaf) p)
/-- A queue instruction goes on through the wait for its regions (R230, R235). -/
def Pending.synced : Pending → Pending
  | .qpop n pd d q pa num r ext => .sync false false (.qpop n pd d q pa num r ext)
  | .qpush n pd d q pa num r ext ring after => .sync false true (.qpush n pd d q pa num r ext ring after)
  | .qtail q v pa num after => .sync false true (.qtail q v pa num after)
  | p => p
/-- Count an access of a thread that has its translation (R149): a queue's descriptor and a fetch are not counted (R285). -/
def Thread.countWalked (t : Thread) : Pending → Thread
  | .load _ pa _ _ _ _ _ _ => t.countAccess pa
  | .post _ pa _ _ _ => t.countAccess pa
  | .storeChk _ pa _ _ _ => t.countAccess pa
  | .sync _ _ (.ordered _ _ _ pa _ _ _ _ _ _ _ _) => t.countAccess pa
  | _ => t

/-- The end of a thread's walk (R197, R198, R202): a leaf enters the core's cache and its cluster's, and the operation goes on with its
translation, traps, or parks on a translation fault. -/
def State.walkAnswer (s : State) (t : Thread) (need : Need) (va : Word) (size num : Nat) (p : Pending) : Answer :=
  let cl := t.cluster
  let a := va.toNat
  if s.translationWaits [.l2 cl] t.ctx a || ((s.cachedAt [.l2 cl] t.ctx a).isNone && !s.hasWalker t a num) then .wait
  else
    let fault (need : Need) (va : Word) (w : WalkStop) : Answer :=
      .left ((s.repark t (wake .page need.code va)).raiseFault t.ctx va.toNat need w (.thread t.tid) (coordOf s.chip t.coreId))
    match s.leaf [.l2 cl] cl t.ctx a with
    | .error w => fault need va w
    | .ok (e, level) =>
      let ent (place : TlbPlace) : TlbEnt := ⟨place, t.ctx, level, a / 2 ^ levelShift level * 2 ^ levelShift level, e⟩
      let s := (s.cacheFill (ent (.l2 cl))).cacheFill (ent (if need = .fetch then .itlb t.coreId else .dtlb t.coreId))
      match s.walked t need va size p with
      | .wait => .wait
      | .stop c v => .done s (.trapped c v)
      | .page need va w => fault need va w
      | .ok p =>
        let u := t.countWalked p
        let s := (s.setThread u).frameWrite u 592 8 (u.csr.migCount.toNat * 2 ^ 16 + u.csr.migThresh.toNat)
        .goOn { s with nextId := s.nextId + 1 } p.synced

/-! ### Waits for a unit and for regions (R115, R169, R231) -/

/-- Whether a unit of a resource is free at a core (R165, R169, R379, R399, R437) (log 120). -/
def State.unitFree (s : State) (core : Nat) : Res → Bool
  | .xfer => decide ((s.core core).xq.length < Config.transferEntries)
  | .outb => decide ((s.core core).outb.length < Config.outboundEntries)
  | .rowq => decide ((s.core core).rowq.length < Config.rowEntries)
  | .query => decide (s.queriesOf core < Config.queryEntries)
  | .frame n => (s.streams.find? fun k => k.n == n).all fun k => decide (k.frames.length < Config.frameEntries)
/-- Whether no thread has waited longer for the same unit (log 120). -/
def State.firstFor (s : State) (t : Thread) (r : Res) (core : Nat) : Bool :=
  let since (u : Thread) : Nat := (u.wait.map (·.since)).getD 0
  s.threads.all fun u => u.tid == t.tid || (u.run.pending.bind (·.waitsUnit)) != some (r, core)
    || decide (since t < since u) || (since t == since u && decide (t.tid < u.tid))

/-- A transfer that has waited for an entry enters the queue (R169, R176, R180); the frame of an evicted task follows. -/
def State.startEntry (s : State) (t : Thread) (x : Xfer) : State :=
  let u := t.startXfer x
  let s := (s.setThread u).enqueue x
  let s := (s.frameWrite u frameTagimg 8 u.csr.done.toNat).frameWrite u frameXpend 4 (s.xpend u.tid)
  if x.space = 2 then
    let d := BitVec.ofNat 6 x.addr
    let fe := s.frameRead u frameFe 8
    s.frameWrite u frameFe 8 (fe - fe / 2 ^ feBit d % 2 * 2 ^ feBit d)
  else s

/-- Park a thread at the condition its operation turns out to wait for, with its arrival at a barrier on record (R136, R183). -/
def State.waitAt (s : State) (t : Thread) (w : Wake) : Answer := .left (s.repark t w)

/-- A row on a tagged word whose thread's regions have retired (R163, R235). -/
def State.feAnswer (s : State) (t : Thread) (op : FeOp) (d : Reg) (ea b : Word) : Answer :=
  match op.stop ea t s with
  | some (.trap c v) => .done s (.trapped c v)
  | some (.park w) => s.waitAt t w
  | none =>
    let (s, r) := op.perform ea b t s
    .done (s.bill t.tid t.ctx (spadCost 8)) ((r.map (Delivery.scalar d)).getD Delivery.none')
/-- A wait on completion tags that is met (R181). -/
def State.tagAnswer (s : State) (t : Thread) (op : TagOp) (d : Reg) (a : Word) : Answer :=
  if op.met t.csr.done a then
    let r := op.result (t.csr.done &&& a)
    let u := t.clearDone r.2
    .done ((s.setThread u).frameWrite u frameTagimg 8 u.csr.done.toNat) (.scalar d r.1)
  else s.waitAt t (wake .tags op.all.toNat a)
/-- An arrival at a barrier, and the state of the barrier before (R183). -/
def State.arriveAt (s : State) (t : Thread) (n : Nat) : State × Bool :=
  let l := s.near t
  (s.setNear t (l.setBarrier n (l.barrier n).arrive), (l.barrier n).ph)
/-- `bar.sync` after its arrival (R183). -/
def State.barAnswer (s : State) (t : Thread) (n : Nat) : Answer :=
  let (s, old) := s.arriveAt (t := t) n
  if ((s.near t).barrier n).ph != old then .done s Delivery.none'
  else (consume t s t.taken).waitAt { t with synced := some (t.pc, (n, old)), taken := [] }
    (wake .barrier (n + 256 * (!old).toNat) 0#64)

/-- The answer to an operation that needs nothing more. -/
def State.atOnce (s : State) (t : Thread) : Pending → Answer
  | .enqueue x => .done (s.startEntry t x) Delivery.none'
  | .sendMsg m none => .done (s.sendOut m) Delivery.none'
  | .sendMsg m (some d) => .goOn (s.sendOut m) (.amsg d none)
  | .rowOp d core x => .done ((s.modThread t.tid fun u => { u with rissued := x.num }).addRow core { x with id := s.nextId })
      (.scalar d x.num)
  | .frame d n f => let a := replyFrame s d n f; .done a.1 a.2
  | .noteOp o p => .goOn (s.sendNote o) p
  | p => .goOn s p

/-- The answer to a pending operation (R115, R136). -/
def State.answerFor (s : State) (t : Thread) : Pending → Answer
  | .walk need va size num p => s.walkAnswer t need va size num p
  | .fetch va => match s.fetchReply t va with
    | some s => .left s
    | none => .wait
  | .unit r core p => if s.unitFree core r && s.firstFor t r core then s.atOnce t p else .wait
  | .sync _ _ _ => .wait
  | .enqueue x => s.atOnce t (.unit .xfer x.core (.enqueue x))
  | .sendMsg m d => s.atOnce t (.unit .outb m.senderCore (.sendMsg m d))
  | .rowOp d core x => s.atOnce t (.unit .rowq core (.rowOp d core x))
  | .frame d n f => s.atOnce t (.unit (.frame n) 0 (.frame d n f))
  | .noteOp o p => s.atOnce t (.noteOp o p)
  | .feWord op d ea b => s.feAnswer t op d ea b
  | .tagWait op d a => s.tagAnswer t op d a
  | .barArr d n => let a := s.arriveAt t n; .done a.1 (.scalar d (bit64 a.2))
  | .barSync n => s.barAnswer t n
  | .done acquire => .done (if acquire then s.dropCopies t else s) Delivery.none'
  | .replied r => .done s r
  | .loadTile ea size ext d => let a := replyTileLoad t s ea size ext d; .done a.1 a.2
  | .storeTile ea size v => let a := replyTileStore t s ea size v; .done a.1 a.2
  | .load va pa size ext d chk num hit => s.loadAnswer t va pa size ext d chk num hit
  | .post va pa size v num => .ofOption (replyPost t s va pa size v num)
  | .storeChk va pa size v num => .ofOption (replyStore t s va pa size v num)
  | .ordered op r va pa scope x y d chk after num win => s.orderedAnswer t op r va pa scope x y d chk after num win
  | .fence acq _ sc scope after win => if sc then .wait else .ofOption (replyFence t s acq sc scope after win)
  | .receipts after => if s.performed after then .done s Delivery.none' else .wait
  | .tlb ctx start len after => match replyTlb s ctx start len after with
    | some (s, p) => .goOn s p
    | none => .wait
  | .flushed nums => if s.landed nums then .done s Delivery.none' else .wait
  | .amsg d (some (.inl v)) => .done s (.scalar d v)
  | .amsg _ (some (.inr x)) => .done s (.trapped x.cause x.tval)
  | .amsg _ none => .wait
  | .spawn inl pd d ra r after => .ofSpawn (spawnReply t s inl pd d ra r after)
  | .note h pd reply => .ofOption (replyNote s h pd reply)
  | .touch p pd d h reply => .ofOption (replyTouch t s p pd d h reply)
  | .postNote kind h v after => .ofOption (replyPostNote t s kind h v after)
  | .fq h d => .ofOption (replyFq t s h d)
  | .fnew pd d => .ofOption (replyFnew t s pd d)
  | .qpush n pd d q pa num r ext ring after => .ofQueue (replyQpush t s n pd d q pa num r ext ring after)
  | .qput pd d q pa _ idx data slot => .ofQueue (replyQput t s pd d q pa idx data slot)
  | .qpop n pd d q pa _ r ext => .ofQueue (replyQpop t s n pd d q pa r ext)
  | .qtail q v pa num after => .ofOption (replyQtail t s q v pa num after)
  | .chsend n pd ch r after => .ofQueue (replyChsend t s n pd ch r after)
  | .chrecv n pd d ch r => .ofQueue (replyChrecv t s n pd d ch r)
  | .chclose ch after => .ofOption (replyChclose t s ch after)
  | .chq d ch => .ofOption (replyChq t s d ch)
  | .ebind pd d => .ofOption (replyEbind t s pd d)
  | .dpmLoad d x image => .ofOption (replyDpmLoad t s d x image)
  | .dpmFree d slot => .ofOption (replyDpmFree t s d slot)
  | .aqPost d core x after => .ofQueue (replyAqPost t s d core x after)
  | .aqBytes core addr size v d dval due => .ofOption (replyAqBytes s core addr size v d dval due)
  | .encTl d stream => .ofOption (replyEncTl t s d stream)
  | .own grant d rec => .ofOption (replyOwn s grant d rec)
  | .pzero d pa len => .ofOption (replyPzero s d pa len)

/-! ### Where it goes (R136) -/

/-- The job's detector is armed again (R147). -/
def State.rearm (s : State) (t : Thread) : State :=
  s.modJob t.ctx fun j => { j with disarmed := j.disarmed && j.sleepTask == some t.tid }

/-- Keep a reply for its thread, which is ready now. -/
def State.keepReply (s : State) (t : Thread) (r : Delivery) : State :=
  s.setThread ({ t with run := t.run.setPending (.replied r) }.becomeReady s.now)
/-- Give a reply to its thread (R136): into its context where it is resident, into the frame's REPLY field where it is evicted, and kept
by the teller while it is saved or restored; a thread without a phase waits for one (R304). -/
def State.giveReply (s : State) (tid : Nat) (r : Delivery) : State :=
  match s.thread? tid with
  | none => s
  | some t =>
    let s := s.rearm t
    match t.run with
    | .out _ _ =>
      if t.evicted then
        let s := s.keepReply t r
        (s.frameWrite t frameReply 128 r.val).frameWrite t 2 2 (s.frameRead t 2 2 ||| 16)
      else if t.phase?.isSome then s.deliver t r
      else s.deliver (t.becomeReady s.now) r
    | .saving _ _ _ _ _ => s.keepReply t r
    | _ => s.setThread { t with run := t.run.setPending (.replied r) }

/-- The operation a thread awaits next; a touch on its way to its note waits as FUTURE (R135, R260). -/
def Run.awaits (r : Run) (p : Pending) : Run :=
  match r.setPending p, p with
  | .out _ p, .touch _ _ _ h _ => .out (wake .future 0 h) p
  | .saving _ q f va m, .touch _ _ _ h _ => .saving (wake .future 0 h) q f va m
  | .restoring _ q f, .touch _ _ _ h _ => .restoring (wake .future 0 h) q f
  | r, _ => r

/-- Whether a reply would find the neighbour's inbox full, which its scalar destination writes (R86): it then waits (log 51). -/
def State.replyBlocked (s : State) (t : Thread) (r : Delivery) : Bool :=
  !t.evicted && !r.vec && r.trap.isNone && r.d.any (destBusy t s)

/-- Whether an update keeps a thread from going on (R454): a task at a blocking point is saved first (log 51). -/
def State.heldBack (s : State) (t : Thread) : Bool :=
  s.quiesce.isSome && !t.isFw && t.handler.isNone && !t.evicted && match t.run with
    | .out _ _ => true
    | _ => false
/-- Whether a thread's reply waits: a kept one until its thread is resident, and any while the thread is to be evicted at its blocking
point (R149, R306, R454). -/
def State.replyHeld (s : State) (t : Thread) (p : Pending) : Bool :=
  s.heldBack t || s.mustLeave t || match p, t.run with
    | .replied _, .out _ _ => t.evicted
    | .replied _, _ => true
    | _, _ => false

/-- MEMORY_REPLY (R115, R136): the operation a thread awaits is performed and its reply delivered. -/
def execMemoryReply (tid : Nat) (s : State) : Host.Outcome State Fault Refusal :=
  match s.thread? tid with
  | none => .refused .notEnabled
  | some t => match t.run.pending with
    | none => .refused .notEnabled
    | some p =>
      if s.replyHeld t p then .refused .notEnabled
      else match s.answerFor t p with
        | .wait => .refused .notEnabled
        | .done s' r => if s'.replyBlocked t r then .refused .notEnabled else .next (s'.giveReply tid r)
        | .goOn s' q => .next (s'.modThread tid fun u => { u with run := u.run.awaits q })
        | .left s' => .next s'
        | .child s' u r => match s'.thread? tid with
          | some t' =>
            let (t'', s'') := t'.receive s' r
            .next (s''.startInline t'' u)
          | none => .refused .notEnabled
        | .absent pa => .fault (.absentPhysical pa)

/-! ### The clearing of a window (R228) -/

/-- The fences announced in a window that clears, which complete then (R218, R228). -/
def State.clearFences (s : State) (w : Nat) : State :=
  s.threads.foldl (fun s t => match t.run.pending with
    | some (.fence acq _ true scope after (some v)) =>
      if v = w then match replyFence t s acq true scope after (some v) with
        | some (s, r) => if s.heldBack t || s.mustLeave t then s.keepReply t r else s.giveReply t.tid r
        | none => s
      else s
    | _ => s) s
/-- CLEARING (R228): the first window that is announced and not cleared clears at its cycle, neither earlier nor later. -/
def execClearing (window : Nat) (s : State) : Host.Outcome State Fault Refusal :=
  let at_ := clearingCycle window - 1
  if s.openWindows.contains window && s.openWindows.all (fun w => decide (window ≤ w)) && s.reachedBy at_ then
    .next (({ s.pastDeadline at_ with cleared := window + 1 } : State).clearFences window)
  else .refused .notEnabled

/-! ### Fault records complete (R204, R456) -/

/-- The first address of a piece that lies in a page. -/
def inPage (page : Nat) (p : Piece) : Option Nat :=
  if p.va / 65536 = page then some p.va
  else if 0 < p.len ∧ (p.va + p.len - 1) / 65536 = page then some (65536 * page) else none
/-- The address at which a transfer's fault on a page stops it (R178) (log 122). -/
def Xfer.failAt (x : Xfer) (page off : Nat) : Nat :=
  if x.codec then max x.cursor (65536 * page)
  else (x.pieces.findSome? fun p => if p.off = off then inPage page p else none).getD (65536 * page)
/-- The same for a piece of a held record's subscriptions (R255) (log 122). -/
def Held.failAt (h : Held) (page entry off : Nat) : Nat :=
  if (h.r.subs[entry]?).any fun e => (tileDesc e.2).codec then max (lookupD h.cursor entry 0) (65536 * page)
  else (h.pieces.findSome? fun p => if p.1 = entry ∧ p.2.off = off then inPage page p.2 else none).getD (65536 * page)

/-- DENY or POISON for one waiter (R204) (log 122). -/
def State.denyWaiter (s : State) (page : Nat) (c : Cause) : FaultWaiter → State
  | .thread tid => match s.thread? tid with
    | none => s
    | some t => match t.run.pending with
      | some (.aqPost _ core x _) =>
        let va := match s.posted t.ctx core x with
          | .page va _ => if va / 65536 = page then va else 65536 * page
          | _ => 65536 * page
        s.giveReply tid (.trapped c (BitVec.ofNat 64 va))
      | _ => match t.run.wake? with
        | some w =>
          if w.kind = .page ∧ w.operand.toNat / 65536 = page then s.wakeThread { t with due := some ⟨c, w.operand⟩ } else s
        | none => s
  | .xfer core id off => match s.xfer? core id with
    | some x => s.failXfer x c (BitVec.ofNat 64 (x.failAt page off))
    | none => s
  | .rowop core id chunk => match s.rowOp? core id with
    | some r =>
      let dst := r.dst + 1024 * chunk
      s.failRowOp core r c (if dst / 65536 = page then dst else r.src + 1024 * chunk)
    | none => s
  | .sub cluster id entry off => match (s.cluster cluster).records.find? fun h => h.id == id with
    | some h => s.failHeld cluster h c (h.failAt page entry off)
    | none => s
  | .loader pipe chan off => s.streamFault (.loader pipe chan off) page c.code.toNat
  | .storer pipe chan off => s.streamFault (.storer pipe chan off) page c.code.toNat
  | .encoder stream => s.encoderFault stream (if c = .ue then 3 else 2)
  | .bar2 func => s.failBar2 func c.code.toNat
  | .put src seq => match s.peer? src with
    | some p => s.setPeer { p with denied := some (seq, (c.code.toNat, page)) }
    | none => s

/-- RETRY for one waiter (R204): a thread becomes ready and issues again; other work is tried again by its own step. -/
def State.retryWaiter (s : State) (page : Nat) : FaultWaiter → State
  | .thread tid => match s.thread? tid with
    | some t => match t.run.wake?, t.run.pending with
      | some w, none => if w.kind = .page ∧ w.operand.toNat / 65536 = page then s.wakeThread t else s
      | _, _ => s
    | none => s
  | _ => s

/-- Write held fault records while their slots are free (R456). The fuel bounds their number. -/
def State.pumpAllFaults (s : State) (ctx : Nat) : Nat → State
  | 0 => s
  | n + 1 => (s.pumpFaults ctx).pumpAllFaults ctx n

/-- A written record completes (R204, R456): its slot is zeroed and free, and the outcome applies to its waiters (log 122). -/
def State.completeFault (s : State) (f : FaultRec) (outcome : FaultOutcome) : State :=
  match s.job? f.ctx with
  | none => s
  | some j =>
    let s : State := { s with faults := s.faults.filter fun g => !(g.ctx == f.ctx && g.k == f.k) }
    let s := (s.jobWrite f.ctx (j.faultSlot f.k) 32 0).pumpAllFaults f.ctx s.faults.length
    match outcome with
    | .retry => f.waiters.foldl (fun s w => s.retryWaiter f.page w) s
    | .deny => f.waiters.foldl (fun s w => s.denyWaiter f.page .access w) s
    | .poison => f.waiters.foldl (fun s w => s.denyWaiter f.page .ue w) s
/-- FAULT_COMPLETE (R204, R456): the server completes a written record (log 122). -/
def execFaultComplete (ctx page : Nat) (outcome : FaultOutcome) (s : State) : Host.Outcome State Fault Refusal :=
  match s.faults.find? fun f => f.ctx == ctx && f.page == page && f.written with
  | some f => if (s.job? ctx).isSome then .next (s.completeFault f outcome) else .refused .notEnabled
  | none => .refused .notEnabled

end Sys2Proof.Machine
end

