-- ==== Sys2Proof/Machine/Migrate.lean ====
section
/-! DEFINITION. Page migration and the map-out of a die (R392-R394, R417). -/

namespace Sys2Proof.Machine

/-! ### Pages (R190-R193) -/

/-- The physical address, value and level of the leaf of a virtual address, following pointers from the root (R190, R191). -/
def State.leafPlace (s : State) (va : Nat) : Nat → Nat → Nat → Option (Nat × Word × Nat)
  | 0, _, _ => none
  | fuel + 1, level, table =>
    let addr := table + 8 * (va / 2 ^ levelShift level % levelEntries level)
    if !s.present addr then none
    else
      let e := BitVec.ofNat 64 (s.peek addr 8)
      if e.getLsbD 0 && e.getLsbD 1 then (if leafOk e level then some (addr, e, level) else none)
      else if e.getLsbD 0 && pointerOk e level then s.leafPlace va fuel (level + 1) (entryField e 8 40 * 256)
      else none

/-- The physical address a leaf names, and its page's size. -/
def leafBase (e : Word) : Nat := entryField e 16 32 * 65536
def leafSize (level : Nat) : Nat := 2 ^ levelShift level

/-- The leaves of a job's tables from one table down; the entries that are not listed in memory are invalid. -/
def State.leavesFrom (s : State) : Nat → Nat → Nat → List (Word × Nat)
  | 0, _, _ => []
  | fuel + 1, level, table =>
    let top := table + 8 * levelEntries level
    let listed := (s.mem.filterMap fun c => if table ≤ c.1 ∧ c.1 < top then some (c.1 / 8 * 8) else none).eraseDups
    listed.flatMap fun addr =>
      let e := BitVec.ofNat 64 (s.peek addr 8)
      if e.getLsbD 0 && e.getLsbD 1 then (if leafOk e level then [(e, level)] else [])
      else if e.getLsbD 0 && pointerOk e level then s.leavesFrom fuel (level + 1) (entryField e 8 40 * 256)
      else []

/-- One address in each granule of a page that stands in more than one stack (R372). -/
def granulesOf (pa n : Nat) : List Nat := (List.range (max 1 (n / 2 ^ 30))).map fun i => pa + i * 2 ^ 30

/-! ### Migration (R392, R393) -/

/-- Move a page's contents, poison and race metadata to new physical addresses, cell by cell; an uncorrectable word arrives poisoned and
is reported (R380, R392) (log 90). -/
def State.movePage (s : State) (dst src n ctx : Nat) : State :=
  let moved := s.mem.filter fun c => decide (src ≤ c.1) && decide (c.1 < src + n)
  let mem := moved.foldr (fun c m => Memory.set m (dst + (c.1 - src)) c.2) (Memory.clear s.mem dst n)
  let inSrc (a : Nat) : Bool := decide (src ≤ a) && decide (a < src + n)
  let bad := s.poison.filter inSrc
  let s : State := { s with
    mem := mem,
    poison := (bad.map fun w => dst + (w - src)) ++ s.poison.filter fun w => !(decide (dst ≤ w) && decide (w < dst + n)),
    race := s.race.map fun e => if inSrc e.granule then { e with granule := dst + (e.granule - src) } else e }
  bad.foldl (fun s w => s.ueEvent w ctx) s

/-- Lines of a range leave every cache (R199, R392). -/
def State.dropLines (s : State) (pa n : Nat) : State :=
  let s := s.dropRange pa n fun _ => false
  { s with icache := s.icache.filter fun l => decide (l.2 + 128 ≤ pa) || decide (pa + n ≤ l.2) }

/-- Complete with RETRY the written records of a range of a job's pages, and those that its ring then takes (R392 step 6, R456). The
fuel bounds their number. -/
def State.retryRange (s : State) (ctx lo hi : Nat) : Nat → State
  | 0 => s
  | n + 1 => match s.faults.find? fun f => f.ctx == ctx && f.written && decide (lo ≤ f.page * 65536) && decide (f.page * 65536 < hi) with
    | some f => (s.completeFault f .retry).retryRange ctx lo hi n
    | none => s

/-- End a migration with a leaf at the page's place (R392 steps 5 and 6, R393). -/
def State.endMigration (s : State) (m : Migration) (leaf : Word) : State :=
  let s := ({ s with migrations := s.migrations.filter (· != m) } : State).poke m.addr 8 leaf.toNat
  s.retryRange m.ctx m.va (m.va + leafSize m.level) s.faults.length

/-- The leaf of a migrated page: its attributes with the new address (R392 step 5). -/
def Migration.newLeaf (m : Migration) : Word :=
  BitVec.ofNat 64 (m.leaf.toNat - entryField m.leaf 16 32 * 2 ^ 16 + m.newPa / 65536 * 2 ^ 16)
/-- Whether a migration's copy cannot be performed (R393): its destination is no longer there, or one of its stacks has stalled. -/
def State.copyFails (s : State) (m : Migration) : Bool :=
  !s.pagePresent m.newPa (leafSize m.level) (leafLocal m.leaf)
    || (granulesOf m.newPa (leafSize m.level)).any fun pa => (s.stack (stackOf pa)).stalled

/-- The first event of a migration (R392 step 1): the leaf is invalid, and no cache keeps it (log 90). -/
def State.beginMigration (s : State) (ctx va newPa : Nat) : Option State :=
  match (s.job? ctx).bind fun j => s.leafPlace va 4 0 j.root with
  | none => none
  | some (addr, e, level) =>
    let n := leafSize level
    let lo := va / n * n
    let meets (a k : Nat) : Bool := decide (a < newPa + n) && decide (newPa < a + k)
    if newPa % n != 0 || meets (leafBase e) n || meets addr 8 || !s.pagePresent newPa n (leafLocal e) then none
    else
      let s : State := { s with migrations := s.migrations ++ [⟨ctx, addr, e, level, lo, newPa⟩] }
      some ((s.poke addr 8 (e.toNat - 1)).tlbRemove ctx lo (lo + n))
/-- The rest of a migration (R392, R393): once what the old leaf translated is performed, and the stacks answer, the page is copied and
its new leaf stands; a copy that cannot be performed leaves the old one (log 90). -/
def State.finishMigration (s : State) (m : Migration) : Option State :=
  let n := leafSize m.level
  let old := leafBase m.leaf
  if !(s.inFlight m.ctx [(m.va, m.va + n)]).isEmpty then none
  else if s.copyFails m then some ((s.endMigration m m.leaf).stackEvent 4 (stackOf m.newPa) 0xFF 0 (m.newPa / 128 * 128) 0 m.ctx)
  else if !((granulesOf m.newPa n) ++ granulesOf old n).all s.awake then none
  else some ((((s.movePage m.newPa old n m.ctx).dropLines m.newPa n).dropLines old n).endMigration m m.newLeaf)

/-- PAGE_MIGRATE (R392, R393): firmware migrates a page to a free page of the same size, in two events, which the job sees only as time
(log 90). -/
def execPageMigrate (ctx va newPa : Nat) (s : State) : Host.Outcome State Fault Refusal :=
  let mine := s.migrations.find? fun m => m.ctx == ctx && va / leafSize m.level * leafSize m.level == m.va
  match (match mine with
    | some m => if m.newPa = newPa then s.finishMigration m else none
    | none => s.beginMigration ctx va newPa) with
  | some s => .next s
  | none => .refused .notEnabled

/-! ### Map-out (R394, R417) -/

/-- Whether a page has rows on a die of a stack, or granules in the interleaved window of the stack (R394 step 2). -/
def State.pageOn (s : State) (stack die : Nat) (pa n : Nat) : Bool :=
  (granulesOf pa n).any fun a => match s.place a with
    | some p => p.stack == stack && (!p.bankLocal || p.bank / 128 == die)
    | none => false
/-- Whether a map-out still waits for a page: one that is mapped, is being migrated, or that a query reads (R394, R417) (log 90). -/
def State.mapOutWaits (s : State) (stack die : Nat) : Bool :=
  (s.jobs.any fun j => (s.leavesFrom 4 0 j.root).any fun l => s.pageOn stack die (leafBase l.1) (leafSize l.2))
    || (s.migrations.any fun m => s.pageOn stack die (leafBase m.leaf) (leafSize m.level))
    || s.queries.any fun q => q.pages.any fun p => s.pageOn stack die p.1.1 65536

/-- DIE_MAP_OUT (R394): the first event sets STATE to 3; the second, when no page on the die or in the stack's interleaved granules is
left, removes the die and writes HOT_REMOVE with the bytes lost (log 90). -/
def execDieMapOut (stack die : Nat) (s : State) : Host.Outcome State Fault Refusal :=
  let k := s.stack stack
  if 12 ≤ stack then .refused .notEnabled
  else if k.state = 2 ∧ k.dies.getLsbD die then .next (s.setStack { k with state := 3, mapOut := some die })
  else if k.state = 3 ∧ k.mapOut = some die ∧ s.mapOutWaits stack die = false then
    let dies := k.dies &&& ~~~(1#16 <<< die)
    let k' := { k with dies := dies, state := 2, mapOut := none }
    let k' := { k' with igran := k'.granules }
    let lost := k.localsa * 2 ^ 27 + (k.igran - k'.igran) * 2 ^ 30
    .next ((s.setStack k').stackEvent 5 stack die 0 lost k'.cap.toNat 0xFFFF)
  else .refused .notEnabled

end Sys2Proof.Machine
end

