-- ==== Sys2Proof/Machine/Scalar.lean ====
section
/-! DEFINITION. Scalar arithmetic and logic, moves on full/empty bits, multiply and divide, `addpc` and `fmt` (R52-R59,
R98-R103). -/

namespace Sys2Proof.Machine

/-- A 64-bit sum or difference clamped to I64 (R99). -/
def satI64 (x : Int) : Word := BitVec.ofInt 64 (max (-(2 ^ 63 : Int)) (min (2 ^ 63 - 1) x))

/-- Leading and trailing zero bits and set bits of a dword (R99). -/
def leadingZeros (x : Word) : Nat := if x = 0#64 then 64 else 63 - Nat.log2 x.toNat
def trailingZeros (x : Word) : Nat := ((List.range 64).find? fun i => x.getLsbD i).getD 64
def setBits (x : Word) : Nat := ((List.range 64).filter fun i => x.getLsbD i).length
/-- Bytes reversed (R99). -/
def reverseBytes (x : Word) : Word :=
  x.extractLsb' 0 8 ++ x.extractLsb' 8 8 ++ x.extractLsb' 16 8 ++ x.extractLsb' 24 8 ++ x.extractLsb' 32 8
    ++ x.extractLsb' 40 8 ++ x.extractLsb' 48 8 ++ x.extractLsb' 56 8

/-- The quotient and remainder of R19 and R103: by zero, all ones and the dividend; signed division truncates. -/
def sdiv (a b : Word) : Word := if b = 0#64 then BitVec.allOnes 64 else BitVec.ofInt 64 (a.toInt.tdiv b.toInt)
def srem (a b : Word) : Word := if b = 0#64 then a else BitVec.ofInt 64 (a.toInt.tmod b.toInt)
def udiv (a b : Word) : Word := if b = 0#64 then BitVec.allOnes 64 else BitVec.ofNat 64 (a.toNat / b.toNat)
def urem (a b : Word) : Word := if b = 0#64 then a else BitVec.ofNat 64 (a.toNat % b.toNat)

/-- A shift amount: the low six bits (R98). -/
def amount (b : Word) : Nat := b.toNat % 64

/-- `add` (R99): a + b -/
def execAdd (o : OpR) (s : State) : Host.Outcome State Fault Refusal :=
  issue (.add o) (scalarOp o.w [o.a, o.b] o.d fun v => v o.a + v o.b) s

/-- `sub` (R99): a - b -/
def execSub (o : OpR) (s : State) : Host.Outcome State Fault Refusal :=
  issue (.sub o) (scalarOp o.w [o.a, o.b] o.d fun v => v o.a - v o.b) s

/-- `and` (R99): a & b -/
def execAnd (o : OpR) (s : State) : Host.Outcome State Fault Refusal :=
  issue (.and_ o) (scalarOp o.w [o.a, o.b] o.d fun v => v o.a &&& v o.b) s

/-- `or` (R99): a | b -/
def execOr (o : OpR) (s : State) : Host.Outcome State Fault Refusal :=
  issue (.or_ o) (scalarOp o.w [o.a, o.b] o.d fun v => v o.a ||| v o.b) s

/-- `xor` (R99): a ^ b -/
def execXor (o : OpR) (s : State) : Host.Outcome State Fault Refusal :=
  issue (.xor_ o) (scalarOp o.w [o.a, o.b] o.d fun v => v o.a ^^^ v o.b) s

/-- `andn` (R99): a & ~b -/
def execAndn (o : OpR) (s : State) : Host.Outcome State Fault Refusal :=
  issue (.andn o) (scalarOp o.w [o.a, o.b] o.d fun v => v o.a &&& ~~~v o.b) s

/-- `sll` (R99): a << b[5:0] -/
def execSll (o : OpR) (s : State) : Host.Outcome State Fault Refusal :=
  issue (.sll o) (scalarOp o.w [o.a, o.b] o.d fun v => v o.a <<< amount (v o.b)) s

/-- `srl` (R99): a >> b[5:0], zero fill -/
def execSrl (o : OpR) (s : State) : Host.Outcome State Fault Refusal :=
  issue (.srl o) (scalarOp o.w [o.a, o.b] o.d fun v => v o.a >>> amount (v o.b)) s

/-- `sra` (R99): a >> b[5:0], sign fill -/
def execSra (o : OpR) (s : State) : Host.Outcome State Fault Refusal :=
  issue (.sra o) (scalarOp o.w [o.a, o.b] o.d fun v => (v o.a).sshiftRight (amount (v o.b))) s

/-- `ror` (R99): a rotated right by b[5:0] -/
def execRor (o : OpR) (s : State) : Host.Outcome State Fault Refusal :=
  issue (.ror o) (scalarOp o.w [o.a, o.b] o.d fun v => (v o.a).rotateRight (amount (v o.b))) s

/-- `slt` (R99): 1 if a < b signed -/
def execSlt (o : OpR) (s : State) : Host.Outcome State Fault Refusal :=
  issue (.slt o) (scalarOp o.w [o.a, o.b] o.d fun v => bit64 ((v o.a).slt (v o.b))) s

/-- `sltz` (R99): 1 if a < b unsigned -/
def execSltz (o : OpR) (s : State) : Host.Outcome State Fault Refusal :=
  issue (.sltz o) (scalarOp o.w [o.a, o.b] o.d fun v => bit64 ((v o.a).ult (v o.b))) s

/-- `seq` (R99): 1 if a = b -/
def execSeq (o : OpR) (s : State) : Host.Outcome State Fault Refusal :=
  issue (.seq o) (scalarOp o.w [o.a, o.b] o.d fun v => bit64 (v o.a == v o.b)) s

/-- `min` (R99): signed minimum -/
def execMin (o : OpR) (s : State) : Host.Outcome State Fault Refusal :=
  issue (.min_ o) (scalarOp o.w [o.a, o.b] o.d fun v => if (v o.a).slt (v o.b) then v o.a else v o.b) s

/-- `max` (R99): signed maximum -/
def execMax (o : OpR) (s : State) : Host.Outcome State Fault Refusal :=
  issue (.max_ o) (scalarOp o.w [o.a, o.b] o.d fun v => if (v o.a).slt (v o.b) then v o.b else v o.a) s

/-- `minz` (R99): unsigned minimum -/
def execMinz (o : OpR) (s : State) : Host.Outcome State Fault Refusal :=
  issue (.minz o) (scalarOp o.w [o.a, o.b] o.d fun v => if (v o.a).ult (v o.b) then v o.a else v o.b) s

/-- `maxz` (R99): unsigned maximum -/
def execMaxz (o : OpR) (s : State) : Host.Outcome State Fault Refusal :=
  issue (.maxz o) (scalarOp o.w [o.a, o.b] o.d fun v => if (v o.a).ult (v o.b) then v o.b else v o.a) s

/-- `adds` (R99): sat(a + b, I64) -/
def execAdds (o : OpR) (s : State) : Host.Outcome State Fault Refusal :=
  issue (.adds o) (scalarOp o.w [o.a, o.b] o.d fun v => satI64 ((v o.a).toInt + (v o.b).toInt)) s

/-- `subs` (R99): sat(a - b, I64) -/
def execSubs (o : OpR) (s : State) : Host.Outcome State Fault Refusal :=
  issue (.subs o) (scalarOp o.w [o.a, o.b] o.d fun v => satI64 ((v o.a).toInt - (v o.b).toInt)) s

/-- `clz` (R99): leading zero bits -/
def execClz (o : OpR) (s : State) : Host.Outcome State Fault Refusal :=
  issue (.clz o) (scalarOp o.w [o.a] o.d fun v => BitVec.ofNat 64 (leadingZeros (v o.a))) s

/-- `ctz` (R99): trailing zero bits -/
def execCtz (o : OpR) (s : State) : Host.Outcome State Fault Refusal :=
  issue (.ctz o) (scalarOp o.w [o.a] o.d fun v => BitVec.ofNat 64 (trailingZeros (v o.a))) s

/-- `popc` (R99): set bits -/
def execPopc (o : OpR) (s : State) : Host.Outcome State Fault Refusal :=
  issue (.popc o) (scalarOp o.w [o.a] o.d fun v => BitVec.ofNat 64 (setBits (v o.a))) s

/-- `bswap` (R99): bytes reversed -/
def execBswap (o : OpR) (s : State) : Host.Outcome State Fault Refusal :=
  issue (.bswap o) (scalarOp o.w [o.a] o.d fun v => reverseBytes (v o.a)) s

/-- `sxb` (R99): sext(a[7:0]) -/
def execSxb (o : OpR) (s : State) : Host.Outcome State Fault Refusal :=
  issue (.sxb o) (scalarOp o.w [o.a] o.d fun v => ((v o.a).extractLsb' 0 8).signExtend 64) s

/-- `sxh` (R99): sext(a[15:0]) -/
def execSxh (o : OpR) (s : State) : Host.Outcome State Fault Refusal :=
  issue (.sxh o) (scalarOp o.w [o.a] o.d fun v => ((v o.a).extractLsb' 0 16).signExtend 64) s

/-- `sxw` (R99): sext(a[31:0]) -/
def execSxw (o : OpR) (s : State) : Host.Outcome State Fault Refusal :=
  issue (.sxw o) (scalarOp o.w [o.a] o.d fun v => ((v o.a).extractLsb' 0 32).signExtend 64) s

/-- `zxw` (R99): zext(a[31:0]) -/
def execZxw (o : OpR) (s : State) : Host.Outcome State Fault Refusal :=
  issue (.zxw o) (scalarOp o.w [o.a] o.d fun v => ((v o.a).extractLsb' 0 32).zeroExtend 64) s

/-- `mvt` (R100): waits until a is full in the current view, takes its value and leaves it empty. -/
def takeBody (o : OpR) (t : Thread) (s : State) : Done :=
  match readyBy (nowFull t s o.w) t s o.w [o.a] [o.d] with
  | some stop => .error stop.current
  | none =>
    let v := nowVal t s o.w o.a
    let (t, s) := markEmpty t s o.w o.a
    let (t, s) := writeResult t s o.w o.d v
    .ok (t.advance, s)
def execMvt (o : OpR) (s : State) : Host.Outcome State Fault Refusal := issue (.mvt o) (takeBody o) s

/-- `mvp` (R100): waits until d is empty and a is full in the current view; to a port it is an ordinary port write (R86). The
wait for an empty d has kind REG with d first in DETAIL, and a beside it where a is empty too (log 31). -/
def putBody (o : OpR) (t : Thread) (s : State) : Done :=
  match badPort t s [o.a, o.d] with
  | some r => .error (.trap .access (BitVec.ofNat 64 r.toNat))
  | none =>
  if !isPort o.d && nowFull t s o.w o.d then .error (.park { regWake o.w (o.d :: if nowFull t s o.w o.a then [] else [o.a]) with wantEmpty := true, cur := true })
  else match readyBy (nowFull t s o.w) t s o.w [o.a] [o.d] with
    | some stop => .error stop.current
    | none =>
      let v := nowVal t s o.w o.a
      let (t, s) := writeResult t (consume t s [o.a]) o.w o.d v
      .ok (t.advance, s)
def execMvp (o : OpR) (s : State) : Host.Outcome State Fault Refusal := issue (.mvp o) (putBody o) s

/-- `rclr` (R100): marks a empty, discarding the value; it never parks and gives no result. On a port it empties the phase's
own inbox, a port access of R87 (log 32). -/
def execRclr (o : OpR) (s : State) : Host.Outcome State Fault Refusal :=
  issue (.rclr o) (fun t s => match badPort t s [o.a] with
    | some r => .error (.trap .access (BitVec.ofNat 64 r.toNat))
    | none => let (t, s) := markEmpty t s o.w o.a; .ok (t.advance, s)) s

/-- `rful` (R100): 1 if a is full in the current view; it never parks for a. A port in a is accessed (R87), and a port in d is
written as any other is, waiting for an empty inbox (R86) (log 32). -/
def execRful (o : OpR) (s : State) : Host.Outcome State Fault Refusal :=
  issue (.rful o) (fun t s => match badPort t s [o.a] with
    | some r => .error (.trap .access (BitVec.ofNat 64 r.toNat))
    | none => match ready t s o.w [] [o.d] with
    | some stop => .error stop
    | none => .ok (finish t s o.w [] o.d (bit64 (nowFull t s o.w o.a)))) s

/-- `addi` (R101): a + sext(imm11) -/
def execAddi (o : OpI) (s : State) : Host.Outcome State Fault Refusal :=
  issue (.addi o) (scalarOp 0#2 [o.a] o.d fun v => v o.a + o.imm.signExtend 64) s

/-- `andi` (R101): a & sext(imm11) -/
def execAndi (o : OpI) (s : State) : Host.Outcome State Fault Refusal :=
  issue (.andi o) (scalarOp 0#2 [o.a] o.d fun v => v o.a &&& o.imm.signExtend 64) s

/-- `andiz` (R101): a & zext(imm11) -/
def execAndiz (o : OpI) (s : State) : Host.Outcome State Fault Refusal :=
  issue (.andiz o) (scalarOp 0#2 [o.a] o.d fun v => v o.a &&& o.imm.zeroExtend 64) s

/-- `ori` (R101): a | sext(imm11) -/
def execOri (o : OpI) (s : State) : Host.Outcome State Fault Refusal :=
  issue (.ori o) (scalarOp 0#2 [o.a] o.d fun v => v o.a ||| o.imm.signExtend 64) s

/-- `oriz` (R101): a | zext(imm11) -/
def execOriz (o : OpI) (s : State) : Host.Outcome State Fault Refusal :=
  issue (.oriz o) (scalarOp 0#2 [o.a] o.d fun v => v o.a ||| o.imm.zeroExtend 64) s

/-- `xori` (R101): a ^ sext(imm11) -/
def execXori (o : OpI) (s : State) : Host.Outcome State Fault Refusal :=
  issue (.xori o) (scalarOp 0#2 [o.a] o.d fun v => v o.a ^^^ o.imm.signExtend 64) s

/-- `xoriz` (R101): a ^ zext(imm11) -/
def execXoriz (o : OpI) (s : State) : Host.Outcome State Fault Refusal :=
  issue (.xoriz o) (scalarOp 0#2 [o.a] o.d fun v => v o.a ^^^ o.imm.zeroExtend 64) s

/-- `slli` (R101): a << imm11[5:0] -/
def execSlli (o : OpI) (s : State) : Host.Outcome State Fault Refusal :=
  issue (.slli o) (scalarOp 0#2 [o.a] o.d fun v => v o.a <<< (o.imm.toNat % 64)) s

/-- `srli` (R101): a >> imm11[5:0], zero fill -/
def execSrli (o : OpI) (s : State) : Host.Outcome State Fault Refusal :=
  issue (.srli o) (scalarOp 0#2 [o.a] o.d fun v => v o.a >>> (o.imm.toNat % 64)) s

/-- `srai` (R101): a >> imm11[5:0], sign fill -/
def execSrai (o : OpI) (s : State) : Host.Outcome State Fault Refusal :=
  issue (.srai o) (scalarOp 0#2 [o.a] o.d fun v => (v o.a).sshiftRight (o.imm.toNat % 64)) s

/-- `rori` (R101): a rotated right by imm11[5:0] -/
def execRori (o : OpI) (s : State) : Host.Outcome State Fault Refusal :=
  issue (.rori o) (scalarOp 0#2 [o.a] o.d fun v => (v o.a).rotateRight (o.imm.toNat % 64)) s

/-- `slti` (R101): 1 if a < sext(imm11) signed -/
def execSlti (o : OpI) (s : State) : Host.Outcome State Fault Refusal :=
  issue (.slti o) (scalarOp 0#2 [o.a] o.d fun v => bit64 ((v o.a).slt (o.imm.signExtend 64))) s

/-- `sltiz` (R101): 1 if a < zext(imm11) unsigned -/
def execSltiz (o : OpI) (s : State) : Host.Outcome State Fault Refusal :=
  issue (.sltiz o) (scalarOp 0#2 [o.a] o.d fun v => bit64 ((v o.a).ult (o.imm.zeroExtend 64))) s

/-- `seqi` (R101): 1 if a = sext(imm11) -/
def execSeqi (o : OpI) (s : State) : Host.Outcome State Fault Refusal :=
  issue (.seqi o) (scalarOp 0#2 [o.a] o.d fun v => bit64 (v o.a == o.imm.signExtend 64)) s

/-- `shlim` (R102): d := (d << 20) | zext(imm20); an empty d parks. -/
def execShlim (o : OpU) (s : State) : Host.Outcome State Fault Refusal :=
  issue (.shlim o) (scalarOp 0#2 [o.d] o.d fun v => (v o.d <<< 20) ||| o.imm.zeroExtend 64) s

/-- `addpc` (R59): d := PC + sext(imm20). -/
def execAddpc (o : OpU) (s : State) : Host.Outcome State Fault Refusal :=
  issue (.addpc o) (fun t s => scalarOp 0#2 [] o.d (fun _ => t.pc + o.imm.signExtend 64) t s) s

/-- `fmt` (R53): latches word bits 25:11 and sets PFX. A second `fmt` has trapped by then (R51, R55). -/
def execFmt (o : OpF) (s : State) : Host.Outcome State Fault Refusal :=
  issueLate (packF 0x2A#6 o) (WellFormed.fmtOk o) (fun t s => .ok (finishWith t s [] fun u =>
    { u with csr := { u.csr with latch := o.fa ++ o.fb ++ o.fr ++ o.rc ++ o.sat, pfx := true } })) s

/-- `mul` (R103): (a · b) mod 2^64 -/
def execMul (o : OpR) (s : State) : Host.Outcome State Fault Refusal :=
  issue (.mul o) (scalarOp o.w [o.a, o.b] o.d fun v => v o.a * v o.b) s

/-- `mulh` (R103): bits 127:64 of the signed product -/
def execMulh (o : OpR) (s : State) : Host.Outcome State Fault Refusal :=
  issue (.mulh o) (scalarOp o.w [o.a, o.b] o.d fun v => BitVec.ofInt 64 ((v o.a).toInt * (v o.b).toInt / 2 ^ 64)) s

/-- `mulhz` (R103): bits 127:64 of the unsigned product -/
def execMulhz (o : OpR) (s : State) : Host.Outcome State Fault Refusal :=
  issue (.mulhz o) (scalarOp o.w [o.a, o.b] o.d fun v => BitVec.ofNat 64 ((v o.a).toNat * (v o.b).toNat / 2 ^ 64)) s

/-- `div` (R103): signed quotient, truncated toward zero -/
def execDiv (o : OpR) (s : State) : Host.Outcome State Fault Refusal :=
  issue (.div o) (scalarOp o.w [o.a, o.b] o.d fun v => sdiv (v o.a) (v o.b)) s

/-- `divz` (R103): unsigned quotient -/
def execDivz (o : OpR) (s : State) : Host.Outcome State Fault Refusal :=
  issue (.divz o) (scalarOp o.w [o.a, o.b] o.d fun v => udiv (v o.a) (v o.b)) s

/-- `rem` (R103): signed remainder, with the sign of a -/
def execRem (o : OpR) (s : State) : Host.Outcome State Fault Refusal :=
  issue (.rem o) (scalarOp o.w [o.a, o.b] o.d fun v => srem (v o.a) (v o.b)) s

/-- `remz` (R103): unsigned remainder -/
def execRemz (o : OpR) (s : State) : Host.Outcome State Fault Refusal :=
  issue (.remz o) (scalarOp o.w [o.a, o.b] o.d fun v => urem (v o.a) (v o.b)) s

end Sys2Proof.Machine
end

