-- ==== Sys2Proof/Machine/Vector.lean ====
section
/-! DEFINITION. The vector families, opcodes 0x08-0x0B (R105-R112). A lane function takes the lane number and bit patterns
and answers a bit pattern. -/

namespace Sys2Proof.Machine

/-- Lane i of a register. -/
def VReg.lane (v : VReg) (i : Nat) : Nat := (v.toList.getD i 0#32).toNat

/-- Operand b of a lane: a vector's lane, or the low 32 bits of a scalar (R106). -/
def bLane (t : Thread) (s : State) (b : Reg) (i : Nat) : Nat :=
  if isVec b then (t.c.vec b).lane i else (srcVal t s 0#2 b).toNat % 2 ^ 32

/-- The vector after an elementwise update: active lanes take `f`, the others keep their old value (R105, R112). -/
def maskedLanes (mask : W32) (old : VReg) (f : Nat → Nat) : VReg :=
  Vector.ofFn fun i => if mask.getLsbD i.val then BitVec.ofNat 32 (f i.val) else old[i]
/-- The mask after a compare: inactive lanes write 0 (R105). -/
def maskedBits (mask : W32) (f : Nat → Bool) : W32 :=
  BitVec.ofNat 32 ((List.range 32).foldr (fun i acc => (mask.getLsbD i && f i).toNat + 2 * acc) 0)

/-- A vector instruction with a vector destination: waits on `srcs`, updates d under mask k, clears the prefix (R112). -/
def vecOp (o : OpV) (srcs : List Reg) (f : Thread → State → Nat → Nat) (t : Thread) (s : State) : Done :=
  match ready t s 0#2 srcs [] with
  | some stop => .error stop
  | none => .ok (finishWith t s srcs fun u =>
      { u.dropPrefix with c := u.c.setVec o.d (maskedLanes (t.c.mask o.k.toNat) (t.c.vec o.d) (f t s)) })

/-- A vector compare, which writes mask d (R107). -/
def maskOp (o : OpV) (f : Thread → State → Nat → Bool) (t : Thread) (s : State) : Done :=
  match ready t s 0#2 [o.a, o.b] [] with
  | some stop => .error stop
  | none => .ok (finishWith t s [o.a, o.b] fun u =>
      { u.dropPrefix with c := u.c.setMask o.d.toNat (maskedBits (t.c.mask o.k.toNat) (f t s)) })

/-- A vector instruction with a scalar destination and result (R109). -/
def vecScalar (o : OpV) (srcs : List Reg) (f : Thread → State → Word) (t : Thread) (s : State) : Done :=
  match ready t s 0#2 srcs [o.d] with
  | some stop => .error stop
  | none =>
    let (u, s') := finish t s 0#2 srcs o.d (f t s)
    .ok (u.dropPrefix, s')

/-- An integer lane operation on exact values (R107). -/
def intLane (o : OpV) (op : Fmts → Int → Int → Nat) (t : Thread) (s : State) (i : Nat) : Nat :=
  let f := t.fmts 3
  op f (intValue f.fa ((t.c.vec o.a).lane i)) (intValue f.fb (bLane t s o.b i))
/-- Delivery of an integer result (R106). -/
def Fmts.putInt (f : Fmts) (x : Int) : Nat := deliverInt f.fr f.sat x
/-- A logical row: both operands delivered to fr first (R107). -/
def logicRow (op : Nat → Nat → Nat) (f : Fmts) (x y : Int) : Nat := op (f.putInt x) (f.putInt y)
/-- A shift row: a delivered to fr, the amount taken modulo its width (R107) (log 15). -/
def shiftRow (op : Nat → Nat → Nat → Nat) (f : Fmts) (x y : Int) : Nat :=
  let w := fmtBits f.fr
  op w (f.putInt x) (y % (w : Int)).toNat

/-- `vadd` (R107): a + b. -/
def execVadd (o : OpV) (s : State) : Host.Outcome State Fault Refusal :=
  issue (.vadd o) (vecOp o [o.a, o.b] (intLane o (fun f x y => f.putInt (x + y)))) s

/-- `vsub` (R107): a - b. -/
def execVsub (o : OpV) (s : State) : Host.Outcome State Fault Refusal :=
  issue (.vsub o) (vecOp o [o.a, o.b] (intLane o (fun f x y => f.putInt (x - y)))) s

/-- `vmul` (R107): a · b. -/
def execVmul (o : OpV) (s : State) : Host.Outcome State Fault Refusal :=
  issue (.vmul o) (vecOp o [o.a, o.b] (intLane o (fun f x y => f.putInt (x * y)))) s

/-- `vmulh` (R107): ⌊a · b / 2^w⌋. -/
def execVmulh (o : OpV) (s : State) : Host.Outcome State Fault Refusal :=
  issue (.vmulh o) (vecOp o [o.a, o.b] (intLane o (fun f x y => f.putInt (x * y / (2 ^ fmtBits f.fr : Nat))))) s

/-- `vand` (R107). -/
def execVand (o : OpV) (s : State) : Host.Outcome State Fault Refusal :=
  issue (.vand o) (vecOp o [o.a, o.b] (intLane o (logicRow (· &&& ·)))) s

/-- `vor` (R107). -/
def execVor (o : OpV) (s : State) : Host.Outcome State Fault Refusal :=
  issue (.vor o) (vecOp o [o.a, o.b] (intLane o (logicRow (· ||| ·)))) s

/-- `vxor` (R107). -/
def execVxor (o : OpV) (s : State) : Host.Outcome State Fault Refusal :=
  issue (.vxor o) (vecOp o [o.a, o.b] (intLane o (logicRow (· ^^^ ·)))) s

/-- `vsll` (R107): the low w bits of a << (b mod w). -/
def execVsll (o : OpV) (s : State) : Host.Outcome State Fault Refusal :=
  issue (.vsll o) (vecOp o [o.a, o.b] (intLane o (shiftRow fun w x n => (x <<< n) % 2 ^ w))) s

/-- `vsrl` (R107): zero fill. -/
def execVsrl (o : OpV) (s : State) : Host.Outcome State Fault Refusal :=
  issue (.vsrl o) (vecOp o [o.a, o.b] (intLane o (shiftRow fun _ x n => x >>> n))) s

/-- `vsra` (R107): sign fill from bit w - 1. -/
def execVsra (o : OpV) (s : State) : Host.Outcome State Fault Refusal :=
  issue (.vsra o) (vecOp o [o.a, o.b] (intLane o (shiftRow fun w x n => lowBits w (toSigned w x / (2 ^ n : Nat))))) s

/-- `vmin` (R107): minimum. -/
def execVmin (o : OpV) (s : State) : Host.Outcome State Fault Refusal :=
  issue (.vmin o) (vecOp o [o.a, o.b] (intLane o (fun f x y => f.putInt (min x y)))) s

/-- `vmax` (R107): maximum. -/
def execVmax (o : OpV) (s : State) : Host.Outcome State Fault Refusal :=
  issue (.vmax o) (vecOp o [o.a, o.b] (intLane o (fun f x y => f.putInt (max x y)))) s

/-- An integer compare's lane (R107). -/
def intCmp (o : OpV) (op : Int → Int → Bool) (t : Thread) (s : State) (i : Nat) : Bool :=
  let f := t.fmts 3
  op (intValue f.fa ((t.c.vec o.a).lane i)) (intValue f.fb (bLane t s o.b i))

/-- `vclt` (R107): mask bit 1 if a < b. -/
def execVclt (o : OpV) (s : State) : Host.Outcome State Fault Refusal :=
  issue (.vclt o) (maskOp o (intCmp o fun x y => decide (x < y))) s

/-- `vceq` (R107): mask bit 1 if a = b. -/
def execVceq (o : OpV) (s : State) : Host.Outcome State Fault Refusal :=
  issue (.vceq o) (maskOp o (intCmp o fun x y => decide (x = y))) s

/-- A floating-point lane operation, rounded once to fr (R106, R108). -/
def floatLane (o : OpV) (op : Nat → Num → Num → Num) (t : Thread) (s : State) (i : Nat) : Nat :=
  let f := t.fmts 9
  let r := op f.rc (decodeNum f.fa ((t.c.vec o.a).lane i)) (decodeNum f.fb (bLane t s o.b i))
  match floatFmt f.fr with
  | some ff => roundFmt ff f.rc f.sat r
  | none => 0
/-- A floating-point compare's lane (R108). -/
def floatCmp (o : OpV) (op : Num → Num → Bool) (t : Thread) (s : State) (i : Nat) : Bool :=
  let f := t.fmts 9
  op (decodeNum f.fa ((t.c.vec o.a).lane i)) (decodeNum f.fb (bLane t s o.b i))
/-- The lane of `vfma`: a · b + d, with d read in fr, rounded once (R108). -/
def fmaLane (o : OpV) (t : Thread) (s : State) (i : Nat) : Nat :=
  let f := t.fmts 9
  floatLane o (fun rc x y => addNum rc (mulNum x y) (decodeNum f.fr ((t.c.vec o.d).lane i))) t s i

/-- `vfadd` (R108): a + b. -/
def execVfadd (o : OpV) (s : State) : Host.Outcome State Fault Refusal :=
  issue (.vfadd o) (vecOp o [o.a, o.b] (floatLane o addNum)) s

/-- `vfsub` (R108): a - b. -/
def execVfsub (o : OpV) (s : State) : Host.Outcome State Fault Refusal :=
  issue (.vfsub o) (vecOp o [o.a, o.b] (floatLane o fun rc x y => addNum rc x (negNum y))) s

/-- `vfmul` (R108): a · b. -/
def execVfmul (o : OpV) (s : State) : Host.Outcome State Fault Refusal :=
  issue (.vfmul o) (vecOp o [o.a, o.b] (floatLane o fun _ x y => mulNum x y)) s

/-- `vfma` (R108): reads d, so an empty d parks. -/
def execVfma (o : OpV) (s : State) : Host.Outcome State Fault Refusal :=
  issue (.vfma o) (vecOp o [o.a, o.b, o.d] (fmaLane o)) s

/-- `vfmax` (R108): maximum of R29. -/
def execVfmax (o : OpV) (s : State) : Host.Outcome State Fault Refusal :=
  issue (.vfmax o) (vecOp o [o.a, o.b] (floatLane o fun _ x y => maxNum x y)) s

/-- `vfmin` (R108): minimum of R29. -/
def execVfmin (o : OpV) (s : State) : Host.Outcome State Fault Refusal :=
  issue (.vfmin o) (vecOp o [o.a, o.b] (floatLane o fun _ x y => minNum x y)) s

/-- `vfclt` (R108): 0 when either operand is NaN. -/
def execVfclt (o : OpV) (s : State) : Host.Outcome State Fault Refusal :=
  issue (.vfclt o) (maskOp o (floatCmp o ltNum)) s

/-- `vfceq` (R108): +0 equals -0; 0 when either operand is NaN. -/
def execVfceq (o : OpV) (s : State) : Host.Outcome State Fault Refusal :=
  issue (.vfceq o) (maskOp o (floatCmp o eqNum)) s

/-- The lane a scalar b names (R109). -/
def laneNo (t : Thread) (s : State) (b : Reg) : Nat := (srcVal t s 0#2 b).toNat % 32

/-- `vbcast` (R109): each active lane := a[31:0]. -/
def execVbcast (o : OpV) (s : State) : Host.Outcome State Fault Refusal :=
  issue (.vbcast o) (vecOp o [o.a] fun t s _ => (srcVal t s 0#2 o.a).toNat % 2 ^ 32) s

/-- `vext` (R109): zext of lane b mod 32 of a. -/
def execVext (o : OpV) (s : State) : Host.Outcome State Fault Refusal :=
  issue (.vext o) (vecScalar o [o.a, o.b] fun t s => BitVec.ofNat 64 ((t.c.vec o.a).lane (laneNo t s o.b))) s

/-- `vins` (R109): lane b mod 32 of d := a[31:0] if that lane is active. -/
def execVins (o : OpV) (s : State) : Host.Outcome State Fault Refusal :=
  issue (.vins o) (vecOp o [o.a, o.b] fun t s i => if i = laneNo t s o.b then (srcVal t s 0#2 o.a).toNat % 2 ^ 32 else (t.c.vec o.d).lane i) s

/-- `vrot` (R109): lane i := lane (i + b) mod 32 of a. -/
def execVrot (o : OpV) (s : State) : Host.Outcome State Fault Refusal :=
  issue (.vrot o) (vecOp o [o.a, o.b] fun t s i => (t.c.vec o.a).lane ((i + laneNo t s o.b) % 32)) s

/-- `vperm` (R109): lane i := lane b[i] mod 32 of a. -/
def execVperm (o : OpV) (s : State) : Host.Outcome State Fault Refusal :=
  issue (.vperm o) (vecOp o [o.a, o.b] fun t _ i => (t.c.vec o.a).lane ((t.c.vec o.b).lane i % 32)) s

/-- One level of the fixed tree: adjacent pairs (R110). -/
def pairUp (op : α → α → α) : List α → List α
  | x :: y :: rest => op x y :: pairUp op rest
  | rest => rest
/-- The five levels over 32 lanes (R110). -/
def tree (op : α → α → α) (xs : List α) : List α :=
  pairUp op (pairUp op (pairUp op (pairUp op (pairUp op xs))))

/-- The scalar a reduction leaves: sign-extended from a signed integer format, else zero-extended (R110). -/
def reduced (fr x : Nat) : Word :=
  if isIntFmt fr && isSignedFmt fr then BitVec.ofInt 64 (toSigned (fmtBits fr) x) else BitVec.ofNat 64 x

/-- One addition of `vredadd` on bit patterns of fr (R110). -/
def addPattern (f : Fmts) (x y : Nat) : Nat :=
  match floatFmt f.fr with
  | some ff => roundFmt ff f.rc f.sat (addNum f.rc (decodeFloat ff x) (decodeFloat ff y))
  | none => f.putInt (intValue f.fr x + intValue f.fr y)

/-- `vredadd` (R110): inactive lanes contribute +0. -/
def sumLanes (o : OpV) (t : Thread) : Word :=
  let f := t.fmts 3
  let xs := (List.range 32).map fun i =>
    if (t.c.mask o.k.toNat).getLsbD i then (t.c.vec o.a).lane i % 2 ^ fmtBits f.fa else 0
  reduced f.fr ((tree (addPattern f) xs).headD 0)

/-- One maximum of `vredmax`, with inactive lanes omitted (R110) (log 16). -/
def maxPattern (f : Fmts) : Option Nat → Option Nat → Option Nat
  | none, y => y
  | x, none => x
  | some x, some y => match floatFmt f.fr with
    | some ff => some (roundFmt ff 0 false (maxNum (decodeFloat ff x) (decodeFloat ff y)))
    | none => some (lowBits (fmtBits f.fr) (max (intValue f.fr x) (intValue f.fr y)))

/-- `vredmax` (R110): with no active lane, the minimum of an integer fr or the canonical NaN. An infinity among the lanes is
delivered as it is, with the sat bit too (log 16). -/
def maxLanes (o : OpV) (t : Thread) : Word :=
  let f := t.fmts 3
  let xs := (List.range 32).map fun i =>
    if (t.c.mask o.k.toNat).getLsbD i then some ((t.c.vec o.a).lane i % 2 ^ fmtBits f.fa) else none
  match (tree (maxPattern f) xs).headD none, floatFmt f.fr with
  | some x, some ff => reduced f.fr (roundFmt ff 0 false (decodeFloat ff x))
  | some x, none => reduced f.fr x
  | none, some ff => reduced f.fr ff.nan
  | none, none => reduced f.fr (lowBits (fmtBits f.fr) (intMin f.fr))

/-- `vredadd` (R109, R110). -/
def execVredadd (o : OpV) (s : State) : Host.Outcome State Fault Refusal :=
  issue (.vredadd o) (vecScalar o [o.a] fun t _ => sumLanes o t) s

/-- `vredmax` (R109, R110). -/
def execVredmax (o : OpV) (s : State) : Host.Outcome State Fault Refusal :=
  issue (.vredmax o) (vecScalar o [o.a] fun t _ => maxLanes o t) s

/-- `kget` (R109): zext of the mask named by k. -/
def execKget (o : OpV) (s : State) : Host.Outcome State Fault Refusal :=
  issue (.kget o) (vecScalar o [] fun t _ => (t.c.mask o.k.toNat).zeroExtend 64) s

/-- `kset` (R109): mask d := a[31:0]. -/
def execKset (o : OpV) (s : State) : Host.Outcome State Fault Refusal :=
  issue (.kset o) (fun t s => match ready t s 0#2 [o.a] [] with
    | some stop => .error stop
    | none => .ok (finishWith t s [o.a] fun u =>
        { u.dropPrefix with c := u.c.setMask o.d.toNat ((srcVal t s 0#2 o.a).extractLsb' 0 32) })) s

/-- A conversion lane: the operand widened exactly to F32, the helper, and the F32 result delivered to fr (R111). -/
def transLane (o : OpV) (g : Nat → Nat) (t : Thread) (i : Nat) : Nat :=
  let f := t.fmts 9
  convert 9 f.fr f.rc f.sat (g (convert f.fa 9 0 false ((t.c.vec o.a).lane i)))

/-- `vcvt` (R111): the value of a in fa, delivered to fr. -/
def execVcvt (o : OpV) (s : State) : Host.Outcome State Fault Refusal :=
  issue (.vcvt o) (vecOp o [o.a] fun t _ i => convert (t.fmts 9).fa (t.fmts 9).fr (t.fmts 9).rc (t.fmts 9).sat ((t.c.vec o.a).lane i)) s

/-- `vexp2` (R111). -/
def execVexp2 (o : OpV) (s : State) : Host.Outcome State Fault Refusal :=
  issue (.vexp2 o) (vecOp o [o.a] fun t _ i => transLane o exp2Def t i) s

/-- `vrcp` (R111). -/
def execVrcp (o : OpV) (s : State) : Host.Outcome State Fault Refusal :=
  issue (.vrcp o) (vecOp o [o.a] fun t _ i => transLane o rcpDef t i) s

/-- `vrsq` (R111). -/
def execVrsq (o : OpV) (s : State) : Host.Outcome State Fault Refusal :=
  issue (.vrsq o) (vecOp o [o.a] fun t _ i => transLane o rsqDef t i) s

/-- `vgelu` (R111). -/
def execVgelu (o : OpV) (s : State) : Host.Outcome State Fault Refusal :=
  issue (.vgelu o) (vecOp o [o.a] fun t _ i => transLane o geluDef t i) s

end Sys2Proof.Machine
end

