-- ==== Sys2Proof/Machine/Dispatch.lean ====
section
/-! DEFINITION. The meaning of each row of spec/opcode_table.json: one arm per constructor of Instr. -/

namespace Sys2Proof.Machine

/-- What a step of the machine does. -/
def exec (i : Instr) (s : State) : Host.Outcome State Fault Refusal :=
  match i with
  | .add o => Sys2Proof.Machine.execAdd o s
  | .sub o => Sys2Proof.Machine.execSub o s
  | .and_ o => Sys2Proof.Machine.execAnd o s
  | .or_ o => Sys2Proof.Machine.execOr o s
  | .xor_ o => Sys2Proof.Machine.execXor o s
  | .andn o => Sys2Proof.Machine.execAndn o s
  | .sll o => Sys2Proof.Machine.execSll o s
  | .srl o => Sys2Proof.Machine.execSrl o s
  | .sra o => Sys2Proof.Machine.execSra o s
  | .ror o => Sys2Proof.Machine.execRor o s
  | .slt o => Sys2Proof.Machine.execSlt o s
  | .sltz o => Sys2Proof.Machine.execSltz o s
  | .seq o => Sys2Proof.Machine.execSeq o s
  | .min_ o => Sys2Proof.Machine.execMin o s
  | .max_ o => Sys2Proof.Machine.execMax o s
  | .minz o => Sys2Proof.Machine.execMinz o s
  | .maxz o => Sys2Proof.Machine.execMaxz o s
  | .adds o => Sys2Proof.Machine.execAdds o s
  | .subs o => Sys2Proof.Machine.execSubs o s
  | .clz o => Sys2Proof.Machine.execClz o s
  | .ctz o => Sys2Proof.Machine.execCtz o s
  | .popc o => Sys2Proof.Machine.execPopc o s
  | .bswap o => Sys2Proof.Machine.execBswap o s
  | .sxb o => Sys2Proof.Machine.execSxb o s
  | .sxh o => Sys2Proof.Machine.execSxh o s
  | .sxw o => Sys2Proof.Machine.execSxw o s
  | .zxw o => Sys2Proof.Machine.execZxw o s
  | .mvt o => Sys2Proof.Machine.execMvt o s
  | .mvp o => Sys2Proof.Machine.execMvp o s
  | .rclr o => Sys2Proof.Machine.execRclr o s
  | .rful o => Sys2Proof.Machine.execRful o s
  | .addi o => Sys2Proof.Machine.execAddi o s
  | .andi o => Sys2Proof.Machine.execAndi o s
  | .andiz o => Sys2Proof.Machine.execAndiz o s
  | .ori o => Sys2Proof.Machine.execOri o s
  | .oriz o => Sys2Proof.Machine.execOriz o s
  | .xori o => Sys2Proof.Machine.execXori o s
  | .xoriz o => Sys2Proof.Machine.execXoriz o s
  | .slli o => Sys2Proof.Machine.execSlli o s
  | .srli o => Sys2Proof.Machine.execSrli o s
  | .srai o => Sys2Proof.Machine.execSrai o s
  | .rori o => Sys2Proof.Machine.execRori o s
  | .slti o => Sys2Proof.Machine.execSlti o s
  | .sltiz o => Sys2Proof.Machine.execSltiz o s
  | .seqi o => Sys2Proof.Machine.execSeqi o s
  | .shlim o => Sys2Proof.Machine.execShlim o s
  | .addpc o => Sys2Proof.Machine.execAddpc o s
  | .mul o => Sys2Proof.Machine.execMul o s
  | .mulh o => Sys2Proof.Machine.execMulh o s
  | .mulhz o => Sys2Proof.Machine.execMulhz o s
  | .div o => Sys2Proof.Machine.execDiv o s
  | .divz o => Sys2Proof.Machine.execDivz o s
  | .rem o => Sys2Proof.Machine.execRem o s
  | .remz o => Sys2Proof.Machine.execRemz o s
  | .csrr o => Sys2Proof.Machine.execCsrr o s
  | .csrx o => Sys2Proof.Machine.execCsrx o s
  | .csrs o => Sys2Proof.Machine.execCsrs o s
  | .csrc o => Sys2Proof.Machine.execCsrc o s
  | .vadd o => Sys2Proof.Machine.execVadd o s
  | .vsub o => Sys2Proof.Machine.execVsub o s
  | .vmul o => Sys2Proof.Machine.execVmul o s
  | .vmulh o => Sys2Proof.Machine.execVmulh o s
  | .vand o => Sys2Proof.Machine.execVand o s
  | .vor o => Sys2Proof.Machine.execVor o s
  | .vxor o => Sys2Proof.Machine.execVxor o s
  | .vsll o => Sys2Proof.Machine.execVsll o s
  | .vsrl o => Sys2Proof.Machine.execVsrl o s
  | .vsra o => Sys2Proof.Machine.execVsra o s
  | .vmin o => Sys2Proof.Machine.execVmin o s
  | .vmax o => Sys2Proof.Machine.execVmax o s
  | .vclt o => Sys2Proof.Machine.execVclt o s
  | .vceq o => Sys2Proof.Machine.execVceq o s
  | .vfadd o => Sys2Proof.Machine.execVfadd o s
  | .vfsub o => Sys2Proof.Machine.execVfsub o s
  | .vfmul o => Sys2Proof.Machine.execVfmul o s
  | .vfma o => Sys2Proof.Machine.execVfma o s
  | .vfmax o => Sys2Proof.Machine.execVfmax o s
  | .vfmin o => Sys2Proof.Machine.execVfmin o s
  | .vfclt o => Sys2Proof.Machine.execVfclt o s
  | .vfceq o => Sys2Proof.Machine.execVfceq o s
  | .vbcast o => Sys2Proof.Machine.execVbcast o s
  | .vext o => Sys2Proof.Machine.execVext o s
  | .vins o => Sys2Proof.Machine.execVins o s
  | .vrot o => Sys2Proof.Machine.execVrot o s
  | .vperm o => Sys2Proof.Machine.execVperm o s
  | .vredadd o => Sys2Proof.Machine.execVredadd o s
  | .vredmax o => Sys2Proof.Machine.execVredmax o s
  | .kget o => Sys2Proof.Machine.execKget o s
  | .kset o => Sys2Proof.Machine.execKset o s
  | .vcvt o => Sys2Proof.Machine.execVcvt o s
  | .vexp2 o => Sys2Proof.Machine.execVexp2 o s
  | .vrcp o => Sys2Proof.Machine.execVrcp o s
  | .vrsq o => Sys2Proof.Machine.execVrsq o s
  | .vgelu o => Sys2Proof.Machine.execVgelu o s
  | .beq o => Sys2Proof.Machine.execBeq o s
  | .bne o => Sys2Proof.Machine.execBne o s
  | .blt o => Sys2Proof.Machine.execBlt o s
  | .bge o => Sys2Proof.Machine.execBge o s
  | .bltz o => Sys2Proof.Machine.execBltz o s
  | .bp o => Sys2Proof.Machine.execBp o s
  | .bnp o => Sys2Proof.Machine.execBnp o s
  | .jal o => Sys2Proof.Machine.execJal o s
  | .jr o => Sys2Proof.Machine.execJr o s
  | .pnez o => Sys2Proof.Machine.execPnez o s
  | .peq o => Sys2Proof.Machine.execPeq o s
  | .plt o => Sys2Proof.Machine.execPlt o s
  | .pltz o => Sys2Proof.Machine.execPltz o s
  | .pand o => Sys2Proof.Machine.execPand o s
  | .por o => Sys2Proof.Machine.execPor o s
  | .pxor o => Sys2Proof.Machine.execPxor o s
  | .pnot o => Sys2Proof.Machine.execPnot o s
  | .pget o => Sys2Proof.Machine.execPget o s
  | .yield_ o => Sys2Proof.Machine.execYield o s
  | .exit_ o => Sys2Proof.Machine.execExit o s
  | .brk o => Sys2Proof.Machine.execBrk o s
  | .ecall o => Sys2Proof.Machine.execEcall o s
  | .eret o => Sys2Proof.Machine.execEret o s
  | .ldlB o => Sys2Proof.Machine.execLdlB o s
  | .ldlH o => Sys2Proof.Machine.execLdlH o s
  | .ldlW o => Sys2Proof.Machine.execLdlW o s
  | .ldlD o => Sys2Proof.Machine.execLdlD o s
  | .ldlBz o => Sys2Proof.Machine.execLdlBz o s
  | .ldlHz o => Sys2Proof.Machine.execLdlHz o s
  | .ldlWz o => Sys2Proof.Machine.execLdlWz o s
  | .ldlV o => Sys2Proof.Machine.execLdlV o s
  | .stlB o => Sys2Proof.Machine.execStlB o s
  | .stlH o => Sys2Proof.Machine.execStlH o s
  | .stlW o => Sys2Proof.Machine.execStlW o s
  | .stlD o => Sys2Proof.Machine.execStlD o s
  | .stlV o => Sys2Proof.Machine.execStlV o s
  | .ldcB o => Sys2Proof.Machine.execLdcB o s
  | .ldcH o => Sys2Proof.Machine.execLdcH o s
  | .ldcW o => Sys2Proof.Machine.execLdcW o s
  | .ldcD o => Sys2Proof.Machine.execLdcD o s
  | .ldcBz o => Sys2Proof.Machine.execLdcBz o s
  | .ldcHz o => Sys2Proof.Machine.execLdcHz o s
  | .ldcWz o => Sys2Proof.Machine.execLdcWz o s
  | .ldcV o => Sys2Proof.Machine.execLdcV o s
  | .stcB o => Sys2Proof.Machine.execStcB o s
  | .stcH o => Sys2Proof.Machine.execStcH o s
  | .stcW o => Sys2Proof.Machine.execStcW o s
  | .stcD o => Sys2Proof.Machine.execStcD o s
  | .stcV o => Sys2Proof.Machine.execStcV o s
  | .ldlFr o => Sys2Proof.Machine.execLdlFr o s
  | .ldlFe o => Sys2Proof.Machine.execLdlFe o s
  | .stlEf o => Sys2Proof.Machine.execStlEf o s
  | .stlXf o => Sys2Proof.Machine.execStlXf o s
  | .felClr o => Sys2Proof.Machine.execFelClr o s
  | .felQ o => Sys2Proof.Machine.execFelQ o s
  | .stlTf o => Sys2Proof.Machine.execStlTf o s
  | .amsg o => Sys2Proof.Machine.execAmsg o s
  | .amsgN o => Sys2Proof.Machine.execAmsgN o s
  | .amret o => Sys2Proof.Machine.execAmret o s
  | .xput o => Sys2Proof.Machine.execXput o s
  | .xget o => Sys2Proof.Machine.execXget o s
  | .xgath o => Sys2Proof.Machine.execXgath o s
  | .xscat o => Sys2Proof.Machine.execXscat o s
  | .tagWany o => Sys2Proof.Machine.execTagWany o s
  | .tagWall o => Sys2Proof.Machine.execTagWall o s
  | .tagFfr o => Sys2Proof.Machine.execTagFfr o s
  | .barInit o => Sys2Proof.Machine.execBarInit o s
  | .barExp o => Sys2Proof.Machine.execBarExp o s
  | .barArr o => Sys2Proof.Machine.execBarArr o s
  | .barWait o => Sys2Proof.Machine.execBarWait o s
  | .barQ o => Sys2Proof.Machine.execBarQ o s
  | .barSync o => Sys2Proof.Machine.execBarSync o s
  | .ldgB o => Sys2Proof.Machine.execLdgB o s
  | .ldgH o => Sys2Proof.Machine.execLdgH o s
  | .ldgW o => Sys2Proof.Machine.execLdgW o s
  | .ldgD o => Sys2Proof.Machine.execLdgD o s
  | .ldgBz o => Sys2Proof.Machine.execLdgBz o s
  | .ldgHz o => Sys2Proof.Machine.execLdgHz o s
  | .ldgWz o => Sys2Proof.Machine.execLdgWz o s
  | .ldgV o => Sys2Proof.Machine.execLdgV o s
  | .stgB o => Sys2Proof.Machine.execStgB o s
  | .stgH o => Sys2Proof.Machine.execStgH o s
  | .stgW o => Sys2Proof.Machine.execStgW o s
  | .stgD o => Sys2Proof.Machine.execStgD o s
  | .stgV o => Sys2Proof.Machine.execStgV o s
  | .ldgAcq o => Sys2Proof.Machine.execLdgAcq o s
  | .ldgSc o => Sys2Proof.Machine.execLdgSc o s
  | .stgRel o => Sys2Proof.Machine.execStgRel o s
  | .stgSc o => Sys2Proof.Machine.execStgSc o s
  | .amoSwap o => Sys2Proof.Machine.execAmoSwap o s
  | .amoCas o => Sys2Proof.Machine.execAmoCas o s
  | .amoAdd o => Sys2Proof.Machine.execAmoAdd o s
  | .amoAnd o => Sys2Proof.Machine.execAmoAnd o s
  | .amoOr o => Sys2Proof.Machine.execAmoOr o s
  | .amoXor o => Sys2Proof.Machine.execAmoXor o s
  | .amoMin o => Sys2Proof.Machine.execAmoMin o s
  | .amoMax o => Sys2Proof.Machine.execAmoMax o s
  | .amoMinz o => Sys2Proof.Machine.execAmoMinz o s
  | .amoMaxz o => Sys2Proof.Machine.execAmoMaxz o s
  | .fenceAcq o => Sys2Proof.Machine.execFenceAcq o s
  | .fenceRel o => Sys2Proof.Machine.execFenceRel o s
  | .fenceAr o => Sys2Proof.Machine.execFenceAr o s
  | .fenceSc o => Sys2Proof.Machine.execFenceSc o s
  | .fenceRcpt o => Sys2Proof.Machine.execFenceRcpt o s
  | .rcptQ o => Sys2Proof.Machine.execRcptQ o s
  | .fenceTlb o => Sys2Proof.Machine.execFenceTlb o s
  | .spawn o => Sys2Proof.Machine.execSpawn o s
  | .touch o => Sys2Proof.Machine.execTouch o s
  | .touchP o => Sys2Proof.Machine.execTouchP o s
  | .fres o => Sys2Proof.Machine.execFres o s
  | .fresFirst o => Sys2Proof.Machine.execFresFirst o s
  | .fpois o => Sys2Proof.Machine.execFpois o s
  | .fcan o => Sys2Proof.Machine.execFcan o s
  | .fcanq o => Sys2Proof.Machine.execFcanq o s
  | .fq o => Sys2Proof.Machine.execFq o s
  | .frel o => Sys2Proof.Machine.execFrel o s
  | .fnew o => Sys2Proof.Machine.execFnew o s
  | .ftaskQ o => Sys2Proof.Machine.execFtaskQ o s
  | .qpush o => Sys2Proof.Machine.execQpush o s
  | .qpop o => Sys2Proof.Machine.execQpop o s
  | .qtail o => Sys2Proof.Machine.execQtail o s
  | .chsend o => Sys2Proof.Machine.execChsend o s
  | .chrecv o => Sys2Proof.Machine.execChrecv o s
  | .chclose o => Sys2Proof.Machine.execChclose o s
  | .chq o => Sys2Proof.Machine.execChq o s
  | .mma o => Sys2Proof.Machine.execMma o s
  | .mmac o => Sys2Proof.Machine.execMmac o s
  | .mdrain o => Sys2Proof.Machine.execMdrain o s
  | .tld o => Sys2Proof.Machine.execTld o s
  | .tst o => Sys2Proof.Machine.execTst o s
  | .tzero o => Sys2Proof.Machine.execTzero o s
  | .azero o => Sys2Proof.Machine.execAzero o s
  | .ebind o => Sys2Proof.Machine.execEbind o s
  | .efree o => Sys2Proof.Machine.execEfree o s
  | .tlwait o => Sys2Proof.Machine.execTlwait o s
  | .tlread o => Sys2Proof.Machine.execTlread o s
  | .dpmLoad o => Sys2Proof.Machine.execDpmLoad o s
  | .dpmFree o => Sys2Proof.Machine.execDpmFree o s
  | .mrowZero o => Sys2Proof.Machine.execMrowZero o s
  | .mrowCopy o => Sys2Proof.Machine.execMrowCopy o s
  | .mrowWait o => Sys2Proof.Machine.execMrowWait o s
  | .mrowTl o => Sys2Proof.Machine.execMrowTl o s
  | .mrowIss o => Sys2Proof.Machine.execMrowIss o s
  | .aqPost o => Sys2Proof.Machine.execAqPost o s
  | .aqMerge o => Sys2Proof.Machine.execAqMerge o s
  | .aqNorm o => Sys2Proof.Machine.execAqNorm o s
  | .aqNormB o => Sys2Proof.Machine.execAqNormB o s
  | .aqWait o => Sys2Proof.Machine.execAqWait o s
  | .aqTl o => Sys2Proof.Machine.execAqTl o s
  | .aqIss o => Sys2Proof.Machine.execAqIss o s
  | .encPost o => Sys2Proof.Machine.execEncPost o s
  | .encWait o => Sys2Proof.Machine.execEncWait o s
  | .encTl o => Sys2Proof.Machine.execEncTl o s
  | .fabPut o => Sys2Proof.Machine.execFabPut o s
  | .ownGrant o => Sys2Proof.Machine.execOwnGrant o s
  | .ownRevoke o => Sys2Proof.Machine.execOwnRevoke o s
  | .pinv o => Sys2Proof.Machine.execPinv o s
  | .pzero o => Sys2Proof.Machine.execPzero o s
  | .fmt o => Sys2Proof.Machine.execFmt o s
  | .attestSignatureDone => Sys2Proof.Machine.execAttestSignatureDone s
  | .amsgArrive core entry => Sys2Proof.Machine.execAmsgArrive core entry s
  | .amsgHandlerStart core => Sys2Proof.Machine.execAmsgHandlerStart core s
  | .handlerIssueLimit tid => Sys2Proof.Machine.execHandlerIssueLimit tid s
  | .transferPiecePerformed core id piece => Sys2Proof.Machine.execTransferPiecePerformed core id piece s
  | .transferComplete core id => Sys2Proof.Machine.execTransferComplete core id s
  | .arrayScrub tile place addr => Sys2Proof.Machine.execArrayScrub tile place addr s
  | .storePerformed id => Sys2Proof.Machine.execStorePerformed id s
  | .memoryReply tid => Sys2Proof.Machine.execMemoryReply tid s
  | .l1CopyExpire core line => Sys2Proof.Machine.execL1CopyExpire core line s
  | .clearing window => Sys2Proof.Machine.execClearing window s
  | .regionRetire tid seq => Sys2Proof.Machine.execRegionRetire tid seq s
  | .tlbWalkDone place ctx va => Sys2Proof.Machine.execTlbWalkDone place ctx va s
  | .faultComplete ctx page outcome => Sys2Proof.Machine.execFaultComplete ctx page outcome s
  | .noteOpArrive index => Sys2Proof.Machine.execNoteOpArrive index s
  | .subscriptionFetchDone cluster record sub => Sys2Proof.Machine.execSubscriptionFetchDone cluster record sub s
  | .recordDispatch cluster record core phase => Sys2Proof.Machine.execRecordDispatch cluster record core phase s
  | .tailWrite index => Sys2Proof.Machine.execTailWrite index s
  | .queueSlotPoll ctx queue => Sys2Proof.Machine.execQueueSlotPoll ctx queue s
  | .spawnQueueConsume ctx queue => Sys2Proof.Machine.execSpawnQueueConsume ctx queue s
  | .queueMap ctx queue cluster slot => Sys2Proof.Machine.execQueueMap ctx queue cluster slot s
  | .queueUnmap ctx queue => Sys2Proof.Machine.execQueueUnmap ctx queue s
  | .holdExpire tid => Sys2Proof.Machine.execHoldExpire tid s
  | .pipelinePlace pipe => Sys2Proof.Machine.execPipelinePlace pipe s
  | .stageRelease pipe stage => Sys2Proof.Machine.execStageRelease pipe stage s
  | .loaderTileStart pipe chan => Sys2Proof.Machine.execLoaderTileStart pipe chan s
  | .loaderTileDone pipe chan => Sys2Proof.Machine.execLoaderTileDone pipe chan s
  | .storerRecord pipe chan => Sys2Proof.Machine.execStorerRecord pipe chan s
  | .storerRecordDone pipe chan => Sys2Proof.Machine.execStorerRecordDone pipe chan s
  | .tellerLendPhase core phase tid => Sys2Proof.Machine.execTellerLendPhase core phase tid s
  | .taskEvict tid groups => Sys2Proof.Machine.execTaskEvict tid groups s
  | .contextSaveDone tid => Sys2Proof.Machine.execContextSaveDone tid s
  | .taskRestore tid core phase => Sys2Proof.Machine.execTaskRestore tid core phase s
  | .taskRestoreDone tid => Sys2Proof.Machine.execTaskRestoreDone tid s
  | .budgetOverrun tid => Sys2Proof.Machine.execBudgetOverrun tid s
  | .waitLimitExpiry tid => Sys2Proof.Machine.execWaitLimitExpiry tid s
  | .allAsleep ctx => Sys2Proof.Machine.execAllAsleep ctx s
  | .affinityMigration tid groups => Sys2Proof.Machine.execAffinityMigration tid groups s
  | .priorityAge who => Sys2Proof.Machine.execPriorityAge who s
  | .preemptionRequest who => Sys2Proof.Machine.execPreemptionRequest who s
  | .contractRelease cluster idx => Sys2Proof.Machine.execContractRelease cluster idx s
  | .contractDeadline cluster idx => Sys2Proof.Machine.execContractDeadline cluster idx s
  | .contractBudgetExhausted tid => Sys2Proof.Machine.execContractBudgetExhausted tid s
  | .powerControlStep watts => Sys2Proof.Machine.execPowerControlStep watts s
  | .arrayPartDone cluster idx => Sys2Proof.Machine.execArrayPartDone cluster idx s
  | .drainStart cluster idx acc => Sys2Proof.Machine.execDrainStart cluster idx acc s
  | .drainRowDone cluster idx acc => Sys2Proof.Machine.execDrainRowDone cluster idx acc s
  | .drainComplete cluster idx acc => Sys2Proof.Machine.execDrainComplete cluster idx acc s
  | .rowChunkDone core id chunk => Sys2Proof.Machine.execRowChunkDone core id chunk s
  | .bankRefresh stack bank => Sys2Proof.Machine.execBankRefresh stack bank s
  | .selfRefreshEntry stack temp => Sys2Proof.Machine.execSelfRefreshEntry stack temp s
  | .selfRefreshExit stack temp => Sys2Proof.Machine.execSelfRefreshExit stack temp s
  | .stackStall stack => Sys2Proof.Machine.execStackStall stack s
  | .patrolScrub line => Sys2Proof.Machine.execPatrolScrub line s
  | .ceThresh stack die count => Sys2Proof.Machine.execCeThresh stack die count s
  | .pageMigrate ctx va newPa => Sys2Proof.Machine.execPageMigrate ctx va newPa s
  | .dieMapOut stack die => Sys2Proof.Machine.execDieMapOut stack die s
  | .queryHandover query => Sys2Proof.Machine.execQueryHandover query s
  | .scanStep query page => Sys2Proof.Machine.execScanStep query page s
  | .queryComplete query => Sys2Proof.Machine.execQueryComplete query s
  | .frameComplete stream bytes => Sys2Proof.Machine.execFrameComplete stream bytes s
  | .bar2Read func off size => Sys2Proof.Machine.execBar2Read func off size s
  | .bar2Write func off size val => Sys2Proof.Machine.execBar2Write func off size val s
  | .bar2Fetchadd func off val => Sys2Proof.Machine.execBar2Fetchadd func off val s
  | .doorbellWrite func idx size val => Sys2Proof.Machine.execDoorbellWrite func idx size val s
  | .rcfgWrite func val => Sys2Proof.Machine.execRcfgWrite func val s
  | .eventRingReadWrite func val => Sys2Proof.Machine.execEventRingReadWrite func val s
  | .hostRegisterWrite func off val => Sys2Proof.Machine.execHostRegisterWrite func off val s
  | .info seq => Sys2Proof.Machine.execInfo seq s
  | .attest seq nonce => Sys2Proof.Machine.execAttest seq nonce s
  | .zero seq => Sys2Proof.Machine.execZero seq s
  | .imageStage seq off bytes => Sys2Proof.Machine.execImageStage seq off bytes s
  | .imageActivate seq timeout => Sys2Proof.Machine.execImageActivate seq timeout s
  | .quiesceAck seq func => Sys2Proof.Machine.execQuiesceAck seq func s
  | .quiesceTimeout => Sys2Proof.Machine.execQuiesceTimeout s
  | .launch seq func job => Sys2Proof.Machine.execLaunch seq func job s
  | .end_ seq job => Sys2Proof.Machine.execEnd seq job s
  | .contract seq job va => Sys2Proof.Machine.execContract seq job va s
  | .aperture seq func ctx base => Sys2Proof.Machine.execAperture seq func ctx base s
  | .doorbell seq func idx ctx va => Sys2Proof.Machine.execDoorbell seq func idx ctx va s
  | .stream seq func ctx st => Sys2Proof.Machine.execStream seq func ctx st s
  | .fabric seq chip port => Sys2Proof.Machine.execFabric seq chip port s
  | .peer seq chip addr => Sys2Proof.Machine.execPeer seq chip addr s
  | .pipeline seq job va => Sys2Proof.Machine.execPipeline seq job va s
  | .fabricGrant seq job src sctx revoke => Sys2Proof.Machine.execFabricGrant seq job src sctx revoke s
  | .streamClose seq func n => Sys2Proof.Machine.execStreamClose seq func n s
  | .contractWithdraw seq job va => Sys2Proof.Machine.execContractWithdraw seq job va s
  | .linkDown => Sys2Proof.Machine.execLinkDown s
  | .flitRetry => Sys2Proof.Machine.execFlitRetry s
  | .resolve h handle value cause kind want token => Sys2Proof.Machine.execResolve h handle value cause kind want token s
  | .resolveReply h handle token won status => Sys2Proof.Machine.execResolveReply h handle token won status s
  | .fabricTouch h handle proxy => Sys2Proof.Machine.execFabricTouch h handle proxy s
  | .touchReply h handle proxy state cause value => Sys2Proof.Machine.execTouchReply h handle proxy state cause value s
  | .tail h desc value => Sys2Proof.Machine.execTail h desc value s
  | .put h dst number total plen note data => Sys2Proof.Machine.execPut h dst number total plen note data s
  | .putAck h number bytes status failva => Sys2Proof.Machine.execPutAck h number bytes status failva s
  | .ack src seq => Sys2Proof.Machine.execAck src seq s
  | .fabricRetransmit chip seq => Sys2Proof.Machine.execFabricRetransmit chip seq s
  | .portFail port => Sys2Proof.Machine.execPortFail port s
  | .packageReset => Sys2Proof.Machine.execPackageReset s
  | .stackTrained stack ok localsa => Sys2Proof.Machine.execStackTrained stack ok localsa s
  | .clusterRelease cluster ok => Sys2Proof.Machine.execClusterRelease cluster ok s
  | .illegal w => Sys2Proof.Machine.execIllegal w s
  | .fetchFault ue va => Sys2Proof.Machine.execFetchFault ue va s
  | .postedWriteBufferDrain stack => Sys2Proof.Machine.execPostedWriteBufferDrain stack s

end Sys2Proof.Machine
end

