-- ==== Sys2Proof/Machine/Wake.lean ====
section
/-! DEFINITION. What follows at once from what a step did: threads go on that waited for their regions (R231, R235), operations are sent
whose release is done (R223), registrations are tried again (R250), conditions of parked threads fire (R81-R86, R115, R135, R136), units
of queues and channels are held for waiters (R286), reserved contexts fill (R308), waiting host requests go on (R422), and an update whose
conditions are met is activated (R454). -/

namespace Sys2Proof.Machine

/-- The register values a REG wait names (R135). -/
def Wake.regs (w : Wake) : List Reg :=
  (List.range 3).filterMap fun i =>
    let r := BitVec.ofNat 6 (w.detail.toNat / 64 ^ i)
    if r = 0#6 then none else some r

/-- Whether the registers a REG wait names are as it wants them: full, or for an `mvp` the first empty and the other full
(R81, R84, R100) (log 14). -/
def regsMet (w : Wake) (t : Thread) (s : State) : Bool :=
  let full (r : Reg) : Bool := if w.cur then nowFull t s w.win r else srcFull t s w.win r
  match w.regs with
  | [] => true
  | d :: rs => (if w.wantEmpty then !full d else full d) && rs.all full

/-- Whether a timeline has reached a count (R135, R326, R381, R408, R438); a stream that has closed lets its waiters go. -/
def timelineMet (w : Wake) (t : Thread) (s : State) : Bool :=
  let id := w.detail.toNat
  match id / 2 ^ 24 with
  | 1 => (s.cluster (64 * (id / 2 ^ 16 % 2) + id / 2 ^ 8 % 64)).engines.any fun e =>
      e.idx == id % 16 && e.holder == t.tid && decide (w.operand ≤ e.tl)
  | 2 => decide (w.operand ≤ t.rtl)
  | 3 => decide (w.operand ≤ t.qtl)
  | _ => match s.streams.find? fun k => k.n == id % 64 && k.ctx == t.ctx with
    | some k => decide (w.operand ≤ k.etl)
    | none => true

/-- Whether a condition holds that the device watches (R135). Futures, page faults and queues fire where they are served (log 14). -/
def wakeMet (w : Wake) (t : Thread) (s : State) : Bool :=
  match w.kind with
  | .reg => regsMet w t s
  | .portw => !destBusy t s (BitVec.ofNat 6 w.detail.toNat)
  | .barrier => ((s.near t).barrier (w.detail.toNat % 256)).ph == w.detail.getLsbD 8
  | .feword => (s.near t).tagFull.contains w.operand.toNat == w.detail.getLsbD 0
  | .tags =>
    let m := t.csr.done &&& w.operand
    if w.detail.getLsbD 0 then m == w.operand else m != 0#64
  | .timeline => timelineMet w t s
  | .budget => true
  | .yield => true
  | .exit => !s.exitWaits t
  | _ => false

/-- Fire the condition of one thread. -/
def State.tryWake (s : State) (tid : Nat) : State :=
  match s.thread? tid with
  | some t => match t.run.wake? with
    | some w => if t.run.asleep && wakeMet w t s then s.wakeThread t else s
    | none => s
  | none => s

/-- The keys at which threads wait. -/
def State.waitKeys (s : State) : List QKey := (s.qwaits.map fun w => w.key).eraseDups
/-- Hold units that have become available for the waiters of queues (R286). -/
def State.grantQueues (s : State) : State :=
  s.waitKeys.foldl (fun s k => match k with
    | .push _ _ => s.grantKey k (s.queueUnits k)
    | .pop _ _ => s.grantKey k (s.queueUnits k)
    | _ => s) s

/-- All that follows a step. -/
def State.follow (s : State) : State :=
  let s := s.advanceWaits.sendReleased.retryRecords
  let s := s.threads.foldl (fun s t => s.tryWake t.tid) s
  (s.grantQueues.wakeChans.fillReserves.pumpHosts).tryActivate

end Sys2Proof.Machine
end

