-- ==== Sys2Proof/Machine/Run.lean ====
section
/-! DEFINITION. What one step of the machine does: the choice at the head of the agenda, or with an empty agenda the first of the
events that can happen, else the next slot, else a cycle. -/

namespace Sys2Proof.Machine

/-! ### A slot (R113, R142, R144) -/

/-- Run a fetched word: the instruction the decoder reads from it, or the trap of a word that names none (R49). The words
of opcodes 0x28-0x2A go to their meanings directly, since Lean's runtime cannot build their constructors (log 128). -/
def runWord (w : W32) (s : State) : Host.Outcome State Fault Refusal :=
  let o := fieldsR w
  match (bits w 26 6).toNat, (bits w 0 6).toNat with
  | 0x2A, _ => execFmt (fieldsF w) s
  | 0x28, 0 => execEncPost o s
  | 0x28, 1 => execEncWait o s
  | 0x28, 2 => execEncTl o s
  | 0x28, 3 => execFabPut o s
  | 0x29, 0 => execOwnGrant o s
  | 0x29, 1 => execOwnRevoke o s
  | 0x29, 2 => execPinv o s
  | 0x29, 3 => execPzero o s
  | _, _ => match decodeMost w with
    | .ok i => exec i s
    | .error _ => execIllegal w s

/-- Whether a thread's slot arrives with too little of its budget left (R142). -/
def State.overrun (s : State) (t : Thread) : Bool :=
  !t.isFw && t.handler.isNone && s.reload t != 0 && decide (t.csr.remain.toNat < 8)

/-- A thread's slot (R113, R142, R144): an overrun of the budget, a trap that is due, or the fetch and issue of the word
at PC. -/
def takeSlot (t : Thread) (s : State) : Host.Outcome State Fault Refusal :=
  let s := s.atSlot t
  let t := { t.resume with lastIssue := s.now }
  if s.overrun t then execBudgetOverrun t.tid s
  else match t.due with
  | some x => .next (takeTrap { t with due := none } x.cause x.tval t.pc s)
  | none =>
    match s.fetch t with
    | .word w => runWord w s
    | .access => execFetchFault false t.pc s
    | .ue => execFetchFault true t.pc s
    | .miss p => .next (({ s with nextId := s.nextId + 1 } : State).settle (t.missFetch s.now p))
    | .page w => .next ((s.raiseFault t.ctx t.pc.toNat .fetch w (.thread t.tid) (coordOf s.chip t.coreId)).settle
        (t.park s.now (wake .page 0 t.pc)))

/-! ### Uncorrectable words (R185, R389, R455) -/

/-- A burst of the HBM is found uncorrectable: its four words are poisoned and its line is reported (R389) (log 89). -/
def State.upsetHbm (s : State) (pa : Nat) : State :=
  let ws := touchedWords 8 (pa / 32 * 32) 32
  ({ s with poison := ws ++ s.poison.filter fun w => !ws.contains w } : State).ueEvent pa 0xFFFF

/-- An 8-byte word of a scratchpad becomes uncorrectable; firmware core n of die d is numbered 2,048 + 8·d + n. -/
def State.upsetSpad (s : State) (core addr : Nat) : State :=
  if core < 2048 then s.modCore core fun c => { c with spadUE := addr / 8 * 8 :: c.spadUE.filter (· != addr / 8 * 8) }
  else
    let f := s.fwcore ((core - 2048) / 8) (core % 8)
    s.setFw { f with spadUE := addr / 8 * 8 :: f.spadUE.filter (· != addr / 8 * 8) }

/-- A word of an engine context becomes uncorrectable: word `w` of tile register `n`, or with `n` 8 or 9 the word of accumulator 0 or 1
in which element `w` stands (R455) (log 61). -/
def Engine.upset (e : Engine) (n w : Nat) : Engine :=
  if n < 8 then { e with tUE := (n, 8 * w) :: e.tUE.filter (· != (n, 8 * w)) }
  else { e with aUE := (n - 8, 2 * (w / 2)) :: e.aUE.filter (· != (n - 8, 2 * (w / 2))) }
/-- The same for word `w` of a register value 1-41 or 48-63: a vector register has sixteen words of 8 bytes. -/
def Ctx.upset (c : Ctx) (r w : Nat) : Ctx := { c with ue := (r, w) :: c.ue.filter (· != (r, w)) }

/-- An instruction cache gives up a line (R116) (log 45). -/
def State.dropFetched (s : State) (unit line : Nat) : State :=
  { s with
    icache := s.icache.filter (· != (unit, line)),
    icacheUE := s.icacheUE.filter fun w => !(w.1 == unit && w.2 / 128 * 128 == line) }

/-! ### What firmware sets (R317, R385, R388, R391) -/

/-- Firmware sets a stack's ALIMMAX, at which ALIM starts (R385); the controller has no step left to undo there (log 108). -/
def State.setAlimMax (s : State) (stack v : Nat) : State :=
  let kept (p : PowerStep) : Option PowerStep := match p with
    | .duty => some .duty
    | .alim before =>
      let rest := before.filter fun e => e.1 != stack
      if rest.isEmpty then none else some (.alim rest)
  { s.setStack { s.stack stack with alim := v, alimMax := v } with powerSteps := s.powerSteps.filterMap kept }
/-- One more corrected error of an array, counted for firmware (R185) (log 101). -/
def State.countCorrected (s : State) (tile : Bool) (place : Nat) : State :=
  if tile then { s with ceTiles := assign s.ceTiles place (lookupD s.ceTiles place 0 + 1) }
  else { s with ceCores := assign s.ceCores place (lookupD s.ceCores place 0 + 1) }

/-- A choice that is there or not. -/
def chosen : Option State → Host.Outcome State Fault Refusal
  | some s => .next s
  | none => .refused .notEnabled

/-! ### Choices -/

/-- One choice of the environment. A slot is taken only where no other slot comes before it, and cycles pass only where no slot
does (R113) (log 3, 110). -/
def choose (c : Choice) (s : State) : Host.Outcome State Fault Refusal :=
  match c with
  | .event i => if i.isWord then .refused .notEnabled else exec i s
  | .issue tid => match s.thread? tid with
    | some t => if s.maySlot t && s.soonest t then takeSlot t s else .refused .notEnabled
    | none => .refused .notEnabled
  | .advance n =>
    if s.passable (s.now + n) && s.threads.all fun u => !s.maySlot u || decide (s.now + n ≤ s.issueCycle u) then
      .next { s with cycle := s.cycle + BitVec.ofNat 64 n }
    else .refused .notEnabled
  | .earlyXfer core id b => chosen ((s.xfer? core id).bind fun x => earlyByte x b s)
  | .earlyRow core id b => chosen (earlyRow core id b s)
  | .earlyQuery id b => chosen (earlyQuery id b s)
  | .earlyDrain cluster idx acc b => chosen (s.earlyDrain cluster idx acc b)
  | .upsetHbm pa => if s.present pa then .next (s.upsetHbm pa) else .refused .notEnabled
  | .upsetSpad core addr =>
    let size := if core < 2048 then (s.core core).poolSpad * 4096 else 262144
    if core < 2064 ∧ addr < size then .next (s.upsetSpad core addr) else .refused .notEnabled
  | .upsetTile cluster addr =>
    if cluster < 128 ∧ addr < 4194304 then
      .next (s.modCluster cluster fun c => { c with tileUE := addr / 16 * 16 :: c.tileUE.filter (· != addr / 16 * 16) })
    else .refused .notEnabled
  | .upsetEngine cluster idx n w => match s.engine? cluster idx with
    | some e =>
      if (n < 8 ∧ w < 512) ∨ (8 ≤ n ∧ n < 10 ∧ w < 4096) then
        .next (s.modCluster cluster fun c => { c with engines := c.engines.map fun f => if f.idx = idx then e.upset n w else f })
      else .refused .notEnabled
    | none => .refused .notEnabled
  | .upsetReg tid r w => match s.thread? tid with
    | some t =>
      if (1 ≤ r ∧ r < 42 ∧ w = 0) ∨ (48 ≤ r ∧ r < 64 ∧ w < 16) then .next (s.setThread { t with c := t.c.upset r w })
      else .refused .notEnabled
    | none => .refused .notEnabled
  | .corrected tile place =>
    if place < (if tile then 128 else 2064) then .next (s.countCorrected tile place) else .refused .notEnabled
  | .dropFetched unit line => if s.icache.contains (unit, line) then .next (s.dropFetched unit line) else .refused .notEnabled
  | .upsetFetch unit word =>
    if s.cached unit word then .next { s with icacheUE := (unit, word / 4 * 4) :: s.icacheUE } else .refused .notEnabled
  | .passFault ctx page => match s.faults.find? fun f => f.ctx == ctx && f.page == page && f.written, s.job? ctx with
    | some f, some j => .next (s.postEvent j.func 0x01 ctx f.image)
    | _, _ => .refused .notEnabled
  | .endAsleep ctx => chosen (s.endAsleep ctx)
  | .setPower watts => if s.booted && decide (watts ≤ 2400) then .next { s with powerLimit := watts } else .refused .notEnabled
  | .setAlimMax stack v =>
    if s.booted && decide (stack < 12) && decide (4096 ≤ v ∧ v ≤ 49152) then .next (s.setAlimMax stack v) else .refused .notEnabled
  | .setCeThresh count => if s.booted then .next { s with ceThresh := count } else .refused .notEnabled
  | .setTemps crit exit => if s.booted then .next { s with critTemp := crit, exitTemp := exit } else .refused .notEnabled

/-! ### With an empty agenda -/

/-- A step that an event may take. -/
abbrev Event' := State → Host.Outcome State Fault Refusal

/-- The events of the threads, stores and messages in progress. -/
def State.threadEvents (s : State) : List Event' :=
  s.threads.flatMap (fun t => [execMemoryReply t.tid, execContextSaveDone t.tid, execTaskRestoreDone t.tid, execContractBudgetExhausted t.tid]
    ++ t.unretired.map fun r => execRegionRetire t.tid r.seq)
  ++ (s.stores.map fun x => execStorePerformed x.id)
  ++ (List.range s.noteOps.length).map execNoteOpArrive ++ (List.range s.tails.length).map execTailWrite
/-- The events of the cores and clusters. -/
def State.placeEvents (s : State) : List Event' :=
  (s.cores.flatMap fun c => [execAmsgHandlerStart c.id] ++ (List.range c.outb.length).map (execAmsgArrive c.id)
    ++ (c.xq.flatMap fun x => (List.range x.pieces.length).map (execTransferPiecePerformed c.id x.id) ++ [execTransferComplete c.id x.id])
    ++ c.rowq.flatMap fun r => r.left.map (execRowChunkDone c.id r.id))
  ++ s.clusters.flatMap fun k =>
    (k.engines.flatMap fun e => [execDrainStart k.id e.idx 0, execDrainStart k.id e.idx 1, execDrainRowDone k.id e.idx 0,
      execDrainRowDone k.id e.idx 1, execDrainComplete k.id e.idx 0, execDrainComplete k.id e.idx 1, execArrayPartDone k.id e.idx])
    ++ (k.records.flatMap fun h => (List.range h.pieces.length).map (execSubscriptionFetchDone k.id h.id)
      ++ match s.storePlace h.ctx h.r h.hint with
        | some (c, p) => [execRecordDispatch k.id h.id c p]
        | none => [])
    ++ (k.contracts.flatMap fun c => [execContractDeadline k.id c.idx, execContractRelease k.id c.idx])
    ++ k.slots.map fun m => execSpawnQueueConsume m.ctx m.q
/-- The events of pipelines, queries, queues and jobs. -/
def State.jobEvents (s : State) : List Event' :=
  (s.pipelines.flatMap fun p => [execPipelinePlace p.id] ++ (p.stages.map fun g => execStageRelease p.id g.s)
    ++ p.chans.flatMap fun c => [execLoaderTileStart p.id c.n, execLoaderTileDone p.id c.n, execStorerRecord p.id c.n,
      execStorerRecordDone p.id c.n])
  ++ (s.queries.flatMap fun q => [execQueryHandover q.id] ++ (List.range q.pages.length).map (execScanStep q.id)
    ++ [execQueryComplete q.id])
  ++ (s.jobs.flatMap fun j => (j.mapAsked ++ j.remap).flatMap fun q => (s.ownedBy j.ctx).flatMap fun c =>
    (List.range Config.queueSlots).map (execQueueMap j.ctx q c.id))
  ++ (s.qwaits.map fun w => execHoldExpire w.tid) ++ [execQuiesceTimeout, execAttestSignatureDone]
/-- Phases and slots for tasks that are ready (R117, R137). -/
def State.placingEvents (s : State) : List Event' :=
  (s.threads.filter (·.waitsPhase)).flatMap fun t =>
    if t.evicted then match s.restorePlace t with
      | some (c, p) => [execTaskRestore t.tid c p]
      | none => s.cores.flatMap fun c => (List.range 7).map (execTaskRestore t.tid c.id)
    else (List.range 7).map fun p => execTellerLendPhase t.coreId p t.tid
/-- What the tellers decide between slots, and the base dies' buffers. -/
def State.tellerEvents (s : State) : List Event' :=
  (s.threads.flatMap fun t => [execTaskEvict t.tid 0, execPreemptionRequest t.tid, execAffinityMigration t.tid 0, execPriorityAge t.tid])
  ++ (s.clusters.flatMap fun k => k.records.flatMap fun h => [execPreemptionRequest h.id, execPriorityAge h.id])
  ++ (s.jobs.map fun j => execAllAsleep j.ctx) ++ s.hbm.map fun k => execPostedWriteBufferDrain k.n

/-- What happens at its own cycle: the clearing of a window and the expiry of a wait (R143, R228). -/
def State.timedEvents (s : State) : List Event' :=
  s.openWindows.map execClearing ++ s.threads.map fun t => execWaitLimitExpiry t.tid

/-- The first event that can happen (log 3). -/
def firstEvent : List Event' → State → Option (Host.Outcome State Fault Refusal)
  | [], _ => none
  | f :: fs, s => match f s with
    | .refused _ => firstEvent fs s
    | r => some r

/-- What happens where the agenda says nothing: the package reset comes first (log 3, 41). -/
def idleStep (s : State) : Host.Outcome State Fault Refusal :=
  if !s.booted then execPackageReset s
  else match firstEvent (s.threadEvents ++ s.placeEvents ++ s.jobEvents ++ s.placingEvents ++ s.tellerEvents ++ s.timedEvents) s with
    | some r => r
    | none => match s.nextSlot with
      | some t => takeSlot t s
      | none => .next { s with cycle := s.cycle + 1#64 }

/-- A step before what follows from it (log 3, 8). -/
def stepBody (s : State) : Host.Outcome State Fault Refusal :=
  match s.agenda with
  | c :: rest => choose c { s with agenda := rest }
  | [] => idleStep s

end Sys2Proof.Machine
end

