-- ==== Sys2Proof/Machine/Place.lean ====
section
/-! DEFINITION. Placing an instruction word where the machine fetches its next one (log 41): where a thread's slot comes next, at its
PC; where none does, a job with one thread is put on the package, as firmware's launch would. -/

namespace Sys2Proof.Machine

/-- The word at the PC of the thread whose slot comes next, in its instruction cache too (R116). -/
def State.placeAt (s : State) (t : Thread) (pa w : Nat) : State :=
  let s := s.cacheLine t.unit pa
  { s with
    mem := Memory.write s.mem pa 4 w, poison := s.poison.filter fun x => x != pa / 8 * 8,
    icacheUE := s.icacheUE.filter fun x => x != (t.unit, pa / 4 * 4), agenda := [.issue t.tid] }
/-- The leaf of a thread's PC, in its core's instruction TLB (R197). -/
def State.placeLeaf (s : State) (t : Thread) : State :=
  let va := t.pc.toNat
  if s.translated t .fetch va then s
  else match s.leaf [] t.cluster t.ctx va with
    | .ok (e, level) => s.cacheFill ⟨.itlb t.coreId, t.ctx, level, va / 2 ^ levelShift level * 2 ^ levelShift level, e⟩
    | .error _ => s

/-- The job of the placed thread: no areas, no budget, no limits. -/
def placedJob (ctx : Nat) : Job :=
  { ctx := ctx, func := 0, cbase := 0, dbase := 0, root := 0, saveVA := 0, saveBytes := 0, reportVA := 0, reportBytes := 0,
    faultVA := 0, faultLog2 := 0, handler := 0, asleep := none, wlimit := 0, budget := 0, age := 64, ageCap := 64, energy := 0,
    faultK := 0, frames := [], disarmed := false, sleepTask := none, remap := [], mapAsked := [] }

/-- Address of the placed word: page 1 of the job, physical page 1 of stack 0. -/
def placedVa : Nat := 65536
/-- A cached leaf of 64 KiB that lets the job fetch it (R192, R197). -/
def placedLeaf : Word := BitVec.ofNat 64 (placedVa + 0x1F)

/-- A trained stack (R375, R449). -/
def trained (k : Stack) : Stack :=
  let k := { k with dies := 0xFFFF#16, state := 2 }
  { k with igran := k.granules }

/-- Put a job with one thread on the first unowned core and the word at its PC (log 41). -/
def State.install (s : State) (w : Nat) : State :=
  let ctx := ((List.range (min 4096 (s.jobs.length + 1))).find? fun c => (s.job? c).isNone).getD 0
  let core := ((List.range (min 2048 (s.cores.length + 1))).find? fun c => (s.core c).owner.isNone).getD 0
  let cl := coreCluster core
  let now := max s.now 1
  let at_ := if now % 8 = 7 then now + 1 else now
  let t := Thread.fresh s.nextTid ctx (.phase core (at_ % 8)) (BitVec.ofNat 64 placedVa)
  let s := s.modCore core fun c => { c with owner := some ctx, poolReg := 8, poolL1 := 4, tagged := 4, poolSpad := 52 }
  let s := s.modCluster cl fun c => { c with released := true, owner := some ctx }
  let s := if s.present placedVa then s else s.setStack (trained (s.stack 0))
  ({ s with
      cycle := BitVec.ofNat 64 at_, cur := t.tid, nextTid := s.nextTid + 1, threads := s.threads ++ [t],
      jobs := s.jobs ++ [placedJob ctx], tlb := ⟨.itlb core, ctx, 3, placedVa, placedLeaf⟩ :: s.tlb } : State).placeAt t placedVa w

/-- Place a word (log 41). -/
def State.placeWord (s : State) (w : Nat) : State :=
  match s.nextSlot with
  | some t =>
    if t.due.isSome || s.overrun t then s.install w
    else match s.access t .fetch t.pc.toNat 4 with
      | .ok pa _ => if t.isFw && !s.present pa then s.install w else (s.placeLeaf t).placeAt t pa w
      | _ => s.install w
  | none => s.install w

end Sys2Proof.Machine
end

