-- ==== Sys2Proof/Machine/Step.lean ====
section
/-! DEFINITION. One step of the machine, and the placing of an instruction where the next step fetches it. -/

namespace Sys2Proof.Machine

/-- One step, with what follows from it at once. -/
def step (s : State) : Host.Outcome State Fault Refusal :=
  match stepBody s with
  | .next s' => .next s'.follow
  | .fault f => .fault f
  | .refused r => .refused r

/-- `s` with an instruction word where `step` fetches its next instruction (log 41). -/
def State.withFetchWord (s : State) (nbits w : Nat) : State := s.placeWord (w % 2 ^ nbits)

end Sys2Proof.Machine
end

