-- ==== Sys2Proof/Laws/Words.lean ====
section
/-! SUPPORT. Fields of packed words: each field of a format reads back from the word it was packed into. -/

namespace Sys2Proof

/-- Reading above the low part of an append. -/
theorem extract_high {n m k : Nat} (x : BitVec n) (y : BitVec m) (lo : Nat) (h : m ≤ lo) :
    (x ++ y).extractLsb' lo k = x.extractLsb' (lo - m) k := by
  ext i hi
  simp only [BitVec.getElem_extractLsb', BitVec.getLsbD_append]
  rw [if_neg (by omega)]
  congr 1
  omega

/-- Reading inside the low part of an append. -/
theorem extract_low {n m k : Nat} (x : BitVec n) (y : BitVec m) (lo : Nat) (h : lo + k ≤ m) :
    (x ++ y).extractLsb' lo k = y.extractLsb' lo k := by
  ext i hi
  simp only [BitVec.getElem_extractLsb', BitVec.getLsbD_append]
  rw [if_pos (by omega)]

theorem extract_all {n : Nat} (x : BitVec n) : x.extractLsb' 0 n = x := by simp

@[simp] theorem packR_fn (op : BitVec 6) (o : OpR) (fn : BitVec 6) :
    bits (packR op o fn) 0 6 = fn := by
  show (op ++ o.d ++ o.a ++ o.b ++ o.w ++ fn).extractLsb' 0 6 = fn
  rw [extract_low _ _ _ (by decide)]
  exact extract_all _

@[simp] theorem packR_w (op : BitVec 6) (o : OpR) (fn : BitVec 6) :
    bits (packR op o fn) 6 2 = o.w := by
  show (op ++ o.d ++ o.a ++ o.b ++ o.w ++ fn).extractLsb' 6 2 = o.w
  rw [extract_high _ _ _ (by decide)]
  rw [extract_low _ _ _ (by decide)]
  exact extract_all _

@[simp] theorem packR_b (op : BitVec 6) (o : OpR) (fn : BitVec 6) :
    bits (packR op o fn) 8 6 = o.b := by
  show (op ++ o.d ++ o.a ++ o.b ++ o.w ++ fn).extractLsb' 8 6 = o.b
  iterate 2 rw [extract_high _ _ _ (by decide)]
  rw [extract_low _ _ _ (by decide)]
  exact extract_all _

@[simp] theorem packR_a (op : BitVec 6) (o : OpR) (fn : BitVec 6) :
    bits (packR op o fn) 14 6 = o.a := by
  show (op ++ o.d ++ o.a ++ o.b ++ o.w ++ fn).extractLsb' 14 6 = o.a
  iterate 3 rw [extract_high _ _ _ (by decide)]
  rw [extract_low _ _ _ (by decide)]
  exact extract_all _

@[simp] theorem packR_d (op : BitVec 6) (o : OpR) (fn : BitVec 6) :
    bits (packR op o fn) 20 6 = o.d := by
  show (op ++ o.d ++ o.a ++ o.b ++ o.w ++ fn).extractLsb' 20 6 = o.d
  iterate 4 rw [extract_high _ _ _ (by decide)]
  rw [extract_low _ _ _ (by decide)]
  exact extract_all _

@[simp] theorem packR_op (op : BitVec 6) (o : OpR) (fn : BitVec 6) :
    bits (packR op o fn) 26 6 = op := by
  show (op ++ o.d ++ o.a ++ o.b ++ o.w ++ fn).extractLsb' 26 6 = op
  iterate 5 rw [extract_high _ _ _ (by decide)]
  exact extract_all _

@[simp] theorem fieldsR_packR (op : BitVec 6) (o : OpR) (fn : BitVec 6) : fieldsR (packR op o fn) = o := by
  simp only [fieldsR, packR_d, packR_a, packR_b, packR_w]

@[simp] theorem packA_ord (op : BitVec 6) (o : OpA) (f4 : BitVec 4) :
    bits (packA op o f4) 0 2 = o.ord := by
  show (op ++ o.d ++ o.a ++ o.b ++ o.w ++ f4 ++ o.ord).extractLsb' 0 2 = o.ord
  rw [extract_low _ _ _ (by decide)]
  exact extract_all _

@[simp] theorem packA_fn (op : BitVec 6) (o : OpA) (f4 : BitVec 4) :
    bits (packA op o f4) 2 4 = f4 := by
  show (op ++ o.d ++ o.a ++ o.b ++ o.w ++ f4 ++ o.ord).extractLsb' 2 4 = f4
  rw [extract_high _ _ _ (by decide)]
  rw [extract_low _ _ _ (by decide)]
  exact extract_all _

@[simp] theorem packA_w (op : BitVec 6) (o : OpA) (f4 : BitVec 4) :
    bits (packA op o f4) 6 2 = o.w := by
  show (op ++ o.d ++ o.a ++ o.b ++ o.w ++ f4 ++ o.ord).extractLsb' 6 2 = o.w
  iterate 2 rw [extract_high _ _ _ (by decide)]
  rw [extract_low _ _ _ (by decide)]
  exact extract_all _

@[simp] theorem packA_b (op : BitVec 6) (o : OpA) (f4 : BitVec 4) :
    bits (packA op o f4) 8 6 = o.b := by
  show (op ++ o.d ++ o.a ++ o.b ++ o.w ++ f4 ++ o.ord).extractLsb' 8 6 = o.b
  iterate 3 rw [extract_high _ _ _ (by decide)]
  rw [extract_low _ _ _ (by decide)]
  exact extract_all _

@[simp] theorem packA_a (op : BitVec 6) (o : OpA) (f4 : BitVec 4) :
    bits (packA op o f4) 14 6 = o.a := by
  show (op ++ o.d ++ o.a ++ o.b ++ o.w ++ f4 ++ o.ord).extractLsb' 14 6 = o.a
  iterate 4 rw [extract_high _ _ _ (by decide)]
  rw [extract_low _ _ _ (by decide)]
  exact extract_all _

@[simp] theorem packA_d (op : BitVec 6) (o : OpA) (f4 : BitVec 4) :
    bits (packA op o f4) 20 6 = o.d := by
  show (op ++ o.d ++ o.a ++ o.b ++ o.w ++ f4 ++ o.ord).extractLsb' 20 6 = o.d
  iterate 5 rw [extract_high _ _ _ (by decide)]
  rw [extract_low _ _ _ (by decide)]
  exact extract_all _

@[simp] theorem packA_op (op : BitVec 6) (o : OpA) (f4 : BitVec 4) :
    bits (packA op o f4) 26 6 = op := by
  show (op ++ o.d ++ o.a ++ o.b ++ o.w ++ f4 ++ o.ord).extractLsb' 26 6 = op
  iterate 6 rw [extract_high _ _ _ (by decide)]
  exact extract_all _

@[simp] theorem fieldsA_packA (op : BitVec 6) (o : OpA) (f4 : BitVec 4) : fieldsA (packA op o f4) = o := by
  simp only [fieldsA, packA_d, packA_a, packA_b, packA_w, packA_ord]

@[simp] theorem packI_imm (op : BitVec 6) (o : OpI) (f3 : BitVec 3) :
    bits (packI op o f3) 0 11 = o.imm := by
  show (op ++ o.d ++ o.a ++ f3 ++ o.imm).extractLsb' 0 11 = o.imm
  rw [extract_low _ _ _ (by decide)]
  exact extract_all _

@[simp] theorem packI_fn (op : BitVec 6) (o : OpI) (f3 : BitVec 3) :
    bits (packI op o f3) 11 3 = f3 := by
  show (op ++ o.d ++ o.a ++ f3 ++ o.imm).extractLsb' 11 3 = f3
  rw [extract_high _ _ _ (by decide)]
  rw [extract_low _ _ _ (by decide)]
  exact extract_all _

@[simp] theorem packI_a (op : BitVec 6) (o : OpI) (f3 : BitVec 3) :
    bits (packI op o f3) 14 6 = o.a := by
  show (op ++ o.d ++ o.a ++ f3 ++ o.imm).extractLsb' 14 6 = o.a
  iterate 2 rw [extract_high _ _ _ (by decide)]
  rw [extract_low _ _ _ (by decide)]
  exact extract_all _

@[simp] theorem packI_d (op : BitVec 6) (o : OpI) (f3 : BitVec 3) :
    bits (packI op o f3) 20 6 = o.d := by
  show (op ++ o.d ++ o.a ++ f3 ++ o.imm).extractLsb' 20 6 = o.d
  iterate 3 rw [extract_high _ _ _ (by decide)]
  rw [extract_low _ _ _ (by decide)]
  exact extract_all _

@[simp] theorem packI_op (op : BitVec 6) (o : OpI) (f3 : BitVec 3) :
    bits (packI op o f3) 26 6 = op := by
  show (op ++ o.d ++ o.a ++ f3 ++ o.imm).extractLsb' 26 6 = op
  iterate 4 rw [extract_high _ _ _ (by decide)]
  exact extract_all _

@[simp] theorem fieldsI_packI (op : BitVec 6) (o : OpI) (f3 : BitVec 3) : fieldsI (packI op o f3) = o := by
  simp only [fieldsI, packI_d, packI_a, packI_imm]

@[simp] theorem packS_imm (op : BitVec 6) (o : OpS) (f3 : BitVec 3) :
    bits (packS op o f3) 0 11 = o.imm := by
  show (op ++ o.b ++ o.a ++ f3 ++ o.imm).extractLsb' 0 11 = o.imm
  rw [extract_low _ _ _ (by decide)]
  exact extract_all _

@[simp] theorem packS_fn (op : BitVec 6) (o : OpS) (f3 : BitVec 3) :
    bits (packS op o f3) 11 3 = f3 := by
  show (op ++ o.b ++ o.a ++ f3 ++ o.imm).extractLsb' 11 3 = f3
  rw [extract_high _ _ _ (by decide)]
  rw [extract_low _ _ _ (by decide)]
  exact extract_all _

@[simp] theorem packS_a (op : BitVec 6) (o : OpS) (f3 : BitVec 3) :
    bits (packS op o f3) 14 6 = o.a := by
  show (op ++ o.b ++ o.a ++ f3 ++ o.imm).extractLsb' 14 6 = o.a
  iterate 2 rw [extract_high _ _ _ (by decide)]
  rw [extract_low _ _ _ (by decide)]
  exact extract_all _

@[simp] theorem packS_b (op : BitVec 6) (o : OpS) (f3 : BitVec 3) :
    bits (packS op o f3) 20 6 = o.b := by
  show (op ++ o.b ++ o.a ++ f3 ++ o.imm).extractLsb' 20 6 = o.b
  iterate 3 rw [extract_high _ _ _ (by decide)]
  rw [extract_low _ _ _ (by decide)]
  exact extract_all _

@[simp] theorem packS_op (op : BitVec 6) (o : OpS) (f3 : BitVec 3) :
    bits (packS op o f3) 26 6 = op := by
  show (op ++ o.b ++ o.a ++ f3 ++ o.imm).extractLsb' 26 6 = op
  iterate 4 rw [extract_high _ _ _ (by decide)]
  exact extract_all _

@[simp] theorem fieldsS_packS (op : BitVec 6) (o : OpS) (f3 : BitVec 3) : fieldsS (packS op o f3) = o := by
  simp only [fieldsS, packS_b, packS_a, packS_imm]

@[simp] theorem packU_imm (op : BitVec 6) (o : OpU) :
    bits (packU op o) 0 20 = o.imm := by
  show (op ++ o.d ++ o.imm).extractLsb' 0 20 = o.imm
  rw [extract_low _ _ _ (by decide)]
  exact extract_all _

@[simp] theorem packU_d (op : BitVec 6) (o : OpU) :
    bits (packU op o) 20 6 = o.d := by
  show (op ++ o.d ++ o.imm).extractLsb' 20 6 = o.d
  rw [extract_high _ _ _ (by decide)]
  rw [extract_low _ _ _ (by decide)]
  exact extract_all _

@[simp] theorem packU_op (op : BitVec 6) (o : OpU) :
    bits (packU op o) 26 6 = op := by
  show (op ++ o.d ++ o.imm).extractLsb' 26 6 = op
  iterate 2 rw [extract_high _ _ _ (by decide)]
  exact extract_all _

@[simp] theorem fieldsU_packU (op : BitVec 6) (o : OpU) : fieldsU (packU op o) = o := by
  simp only [fieldsU, packU_d, packU_imm]

@[simp] theorem packC_csr (op : BitVec 6) (o : OpC) (f2 : BitVec 2) :
    bits (packC op o f2) 0 12 = o.csr := by
  show (op ++ o.d ++ o.a ++ f2 ++ o.csr).extractLsb' 0 12 = o.csr
  rw [extract_low _ _ _ (by decide)]
  exact extract_all _

@[simp] theorem packC_fn (op : BitVec 6) (o : OpC) (f2 : BitVec 2) :
    bits (packC op o f2) 12 2 = f2 := by
  show (op ++ o.d ++ o.a ++ f2 ++ o.csr).extractLsb' 12 2 = f2
  rw [extract_high _ _ _ (by decide)]
  rw [extract_low _ _ _ (by decide)]
  exact extract_all _

@[simp] theorem packC_a (op : BitVec 6) (o : OpC) (f2 : BitVec 2) :
    bits (packC op o f2) 14 6 = o.a := by
  show (op ++ o.d ++ o.a ++ f2 ++ o.csr).extractLsb' 14 6 = o.a
  iterate 2 rw [extract_high _ _ _ (by decide)]
  rw [extract_low _ _ _ (by decide)]
  exact extract_all _

@[simp] theorem packC_d (op : BitVec 6) (o : OpC) (f2 : BitVec 2) :
    bits (packC op o f2) 20 6 = o.d := by
  show (op ++ o.d ++ o.a ++ f2 ++ o.csr).extractLsb' 20 6 = o.d
  iterate 3 rw [extract_high _ _ _ (by decide)]
  rw [extract_low _ _ _ (by decide)]
  exact extract_all _

@[simp] theorem packC_op (op : BitVec 6) (o : OpC) (f2 : BitVec 2) :
    bits (packC op o f2) 26 6 = op := by
  show (op ++ o.d ++ o.a ++ f2 ++ o.csr).extractLsb' 26 6 = op
  iterate 4 rw [extract_high _ _ _ (by decide)]
  exact extract_all _

@[simp] theorem fieldsC_packC (op : BitVec 6) (o : OpC) (f2 : BitVec 2) : fieldsC (packC op o f2) = o := by
  simp only [fieldsC, packC_d, packC_a, packC_csr]

@[simp] theorem packV_fn (op : BitVec 6) (o : OpV) (fn : BitVec 5) :
    bits (packV op o fn) 0 5 = fn := by
  show (op ++ o.d ++ o.a ++ o.b ++ o.k ++ fn).extractLsb' 0 5 = fn
  rw [extract_low _ _ _ (by decide)]
  exact extract_all _

@[simp] theorem packV_k (op : BitVec 6) (o : OpV) (fn : BitVec 5) :
    bits (packV op o fn) 5 3 = o.k := by
  show (op ++ o.d ++ o.a ++ o.b ++ o.k ++ fn).extractLsb' 5 3 = o.k
  rw [extract_high _ _ _ (by decide)]
  rw [extract_low _ _ _ (by decide)]
  exact extract_all _

@[simp] theorem packV_b (op : BitVec 6) (o : OpV) (fn : BitVec 5) :
    bits (packV op o fn) 8 6 = o.b := by
  show (op ++ o.d ++ o.a ++ o.b ++ o.k ++ fn).extractLsb' 8 6 = o.b
  iterate 2 rw [extract_high _ _ _ (by decide)]
  rw [extract_low _ _ _ (by decide)]
  exact extract_all _

@[simp] theorem packV_a (op : BitVec 6) (o : OpV) (fn : BitVec 5) :
    bits (packV op o fn) 14 6 = o.a := by
  show (op ++ o.d ++ o.a ++ o.b ++ o.k ++ fn).extractLsb' 14 6 = o.a
  iterate 3 rw [extract_high _ _ _ (by decide)]
  rw [extract_low _ _ _ (by decide)]
  exact extract_all _

@[simp] theorem packV_d (op : BitVec 6) (o : OpV) (fn : BitVec 5) :
    bits (packV op o fn) 20 6 = o.d := by
  show (op ++ o.d ++ o.a ++ o.b ++ o.k ++ fn).extractLsb' 20 6 = o.d
  iterate 4 rw [extract_high _ _ _ (by decide)]
  rw [extract_low _ _ _ (by decide)]
  exact extract_all _

@[simp] theorem packV_op (op : BitVec 6) (o : OpV) (fn : BitVec 5) :
    bits (packV op o fn) 26 6 = op := by
  show (op ++ o.d ++ o.a ++ o.b ++ o.k ++ fn).extractLsb' 26 6 = op
  iterate 5 rw [extract_high _ _ _ (by decide)]
  exact extract_all _

@[simp] theorem fieldsV_packV (op : BitVec 6) (o : OpV) (fn : BitVec 5) : fieldsV (packV op o fn) = o := by
  simp only [fieldsV, packV_d, packV_a, packV_b, packV_k]

@[simp] theorem packB_off (op : BitVec 6) (o : OpB) :
    bits (packB op o) 0 14 = o.off := by
  show (op ++ o.a ++ o.b ++ o.off).extractLsb' 0 14 = o.off
  rw [extract_low _ _ _ (by decide)]
  exact extract_all _

@[simp] theorem packB_b (op : BitVec 6) (o : OpB) :
    bits (packB op o) 14 6 = o.b := by
  show (op ++ o.a ++ o.b ++ o.off).extractLsb' 14 6 = o.b
  rw [extract_high _ _ _ (by decide)]
  rw [extract_low _ _ _ (by decide)]
  exact extract_all _

@[simp] theorem packB_a (op : BitVec 6) (o : OpB) :
    bits (packB op o) 20 6 = o.a := by
  show (op ++ o.a ++ o.b ++ o.off).extractLsb' 20 6 = o.a
  iterate 2 rw [extract_high _ _ _ (by decide)]
  rw [extract_low _ _ _ (by decide)]
  exact extract_all _

@[simp] theorem packB_op (op : BitVec 6) (o : OpB) :
    bits (packB op o) 26 6 = op := by
  show (op ++ o.a ++ o.b ++ o.off).extractLsb' 26 6 = op
  iterate 3 rw [extract_high _ _ _ (by decide)]
  exact extract_all _

@[simp] theorem fieldsB_packB (op : BitVec 6) (o : OpB) : fieldsB (packB op o) = o := by
  simp only [fieldsB, packB_a, packB_b, packB_off]

@[simp] theorem packP_off (op : BitVec 6) (o : OpP) (n : BitVec 1) :
    bits (packP op o n) 0 14 = o.off := by
  show (op ++ o.hi ++ n ++ o.p ++ o.b ++ o.off).extractLsb' 0 14 = o.off
  rw [extract_low _ _ _ (by decide)]
  exact extract_all _

@[simp] theorem packP_b (op : BitVec 6) (o : OpP) (n : BitVec 1) :
    bits (packP op o n) 14 6 = o.b := by
  show (op ++ o.hi ++ n ++ o.p ++ o.b ++ o.off).extractLsb' 14 6 = o.b
  rw [extract_high _ _ _ (by decide)]
  rw [extract_low _ _ _ (by decide)]
  exact extract_all _

@[simp] theorem packP_p (op : BitVec 6) (o : OpP) (n : BitVec 1) :
    bits (packP op o n) 20 2 = o.p := by
  show (op ++ o.hi ++ n ++ o.p ++ o.b ++ o.off).extractLsb' 20 2 = o.p
  iterate 2 rw [extract_high _ _ _ (by decide)]
  rw [extract_low _ _ _ (by decide)]
  exact extract_all _

@[simp] theorem packP_fn (op : BitVec 6) (o : OpP) (n : BitVec 1) :
    bits (packP op o n) 22 1 = n := by
  show (op ++ o.hi ++ n ++ o.p ++ o.b ++ o.off).extractLsb' 22 1 = n
  iterate 3 rw [extract_high _ _ _ (by decide)]
  rw [extract_low _ _ _ (by decide)]
  exact extract_all _

@[simp] theorem packP_hi (op : BitVec 6) (o : OpP) (n : BitVec 1) :
    bits (packP op o n) 23 3 = o.hi := by
  show (op ++ o.hi ++ n ++ o.p ++ o.b ++ o.off).extractLsb' 23 3 = o.hi
  iterate 4 rw [extract_high _ _ _ (by decide)]
  rw [extract_low _ _ _ (by decide)]
  exact extract_all _

@[simp] theorem packP_op (op : BitVec 6) (o : OpP) (n : BitVec 1) :
    bits (packP op o n) 26 6 = op := by
  show (op ++ o.hi ++ n ++ o.p ++ o.b ++ o.off).extractLsb' 26 6 = op
  iterate 5 rw [extract_high _ _ _ (by decide)]
  exact extract_all _

@[simp] theorem fieldsP_packP (op : BitVec 6) (o : OpP) (n : BitVec 1) : fieldsP (packP op o n) = o := by
  simp only [fieldsP, packP_hi, packP_p, packP_b, packP_off]

@[simp] theorem packJ_off (op : BitVec 6) (o : OpJ) :
    bits (packJ op o) 0 20 = o.off := by
  show (op ++ o.d ++ o.off).extractLsb' 0 20 = o.off
  rw [extract_low _ _ _ (by decide)]
  exact extract_all _

@[simp] theorem packJ_d (op : BitVec 6) (o : OpJ) :
    bits (packJ op o) 20 6 = o.d := by
  show (op ++ o.d ++ o.off).extractLsb' 20 6 = o.d
  rw [extract_high _ _ _ (by decide)]
  rw [extract_low _ _ _ (by decide)]
  exact extract_all _

@[simp] theorem packJ_op (op : BitVec 6) (o : OpJ) :
    bits (packJ op o) 26 6 = op := by
  show (op ++ o.d ++ o.off).extractLsb' 26 6 = op
  iterate 2 rw [extract_high _ _ _ (by decide)]
  exact extract_all _

@[simp] theorem fieldsJ_packJ (op : BitVec 6) (o : OpJ) : fieldsJ (packJ op o) = o := by
  simp only [fieldsJ, packJ_d, packJ_off]

@[simp] theorem packJr_imm (op : BitVec 6) (o : OpJr) :
    bits (packJr op o) 0 14 = o.imm := by
  show (op ++ o.d ++ o.a ++ o.imm).extractLsb' 0 14 = o.imm
  rw [extract_low _ _ _ (by decide)]
  exact extract_all _

@[simp] theorem packJr_a (op : BitVec 6) (o : OpJr) :
    bits (packJr op o) 14 6 = o.a := by
  show (op ++ o.d ++ o.a ++ o.imm).extractLsb' 14 6 = o.a
  rw [extract_high _ _ _ (by decide)]
  rw [extract_low _ _ _ (by decide)]
  exact extract_all _

@[simp] theorem packJr_d (op : BitVec 6) (o : OpJr) :
    bits (packJr op o) 20 6 = o.d := by
  show (op ++ o.d ++ o.a ++ o.imm).extractLsb' 20 6 = o.d
  iterate 2 rw [extract_high _ _ _ (by decide)]
  rw [extract_low _ _ _ (by decide)]
  exact extract_all _

@[simp] theorem packJr_op (op : BitVec 6) (o : OpJr) :
    bits (packJr op o) 26 6 = op := by
  show (op ++ o.d ++ o.a ++ o.imm).extractLsb' 26 6 = op
  iterate 3 rw [extract_high _ _ _ (by decide)]
  exact extract_all _

@[simp] theorem fieldsJr_packJr (op : BitVec 6) (o : OpJr) : fieldsJr (packJr op o) = o := by
  simp only [fieldsJr, packJr_d, packJr_a, packJr_imm]

@[simp] theorem packX_tag (op : BitVec 6) (o : OpX) (xf : BitVec 2) :
    bits (packX op o xf) 0 6 = o.tag := by
  show (op ++ xf ++ o.a ++ o.b ++ o.c ++ o.tag).extractLsb' 0 6 = o.tag
  rw [extract_low _ _ _ (by decide)]
  exact extract_all _

@[simp] theorem packX_c (op : BitVec 6) (o : OpX) (xf : BitVec 2) :
    bits (packX op o xf) 6 6 = o.c := by
  show (op ++ xf ++ o.a ++ o.b ++ o.c ++ o.tag).extractLsb' 6 6 = o.c
  rw [extract_high _ _ _ (by decide)]
  rw [extract_low _ _ _ (by decide)]
  exact extract_all _

@[simp] theorem packX_b (op : BitVec 6) (o : OpX) (xf : BitVec 2) :
    bits (packX op o xf) 12 6 = o.b := by
  show (op ++ xf ++ o.a ++ o.b ++ o.c ++ o.tag).extractLsb' 12 6 = o.b
  iterate 2 rw [extract_high _ _ _ (by decide)]
  rw [extract_low _ _ _ (by decide)]
  exact extract_all _

@[simp] theorem packX_a (op : BitVec 6) (o : OpX) (xf : BitVec 2) :
    bits (packX op o xf) 18 6 = o.a := by
  show (op ++ xf ++ o.a ++ o.b ++ o.c ++ o.tag).extractLsb' 18 6 = o.a
  iterate 3 rw [extract_high _ _ _ (by decide)]
  rw [extract_low _ _ _ (by decide)]
  exact extract_all _

@[simp] theorem packX_fn (op : BitVec 6) (o : OpX) (xf : BitVec 2) :
    bits (packX op o xf) 24 2 = xf := by
  show (op ++ xf ++ o.a ++ o.b ++ o.c ++ o.tag).extractLsb' 24 2 = xf
  iterate 4 rw [extract_high _ _ _ (by decide)]
  rw [extract_low _ _ _ (by decide)]
  exact extract_all _

@[simp] theorem packX_op (op : BitVec 6) (o : OpX) (xf : BitVec 2) :
    bits (packX op o xf) 26 6 = op := by
  show (op ++ xf ++ o.a ++ o.b ++ o.c ++ o.tag).extractLsb' 26 6 = op
  iterate 5 rw [extract_high _ _ _ (by decide)]
  exact extract_all _

@[simp] theorem fieldsX_packX (op : BitVec 6) (o : OpX) (xf : BitVec 2) : fieldsX (packX op o xf) = o := by
  simp only [fieldsX, packX_a, packX_b, packX_c, packX_tag]

@[simp] theorem packQ_i (op : BitVec 6) (o : OpQ) (qf : BitVec 5) :
    bits (packQ op o qf) 0 1 = BitVec.ofBool o.i := by
  show (op ++ o.d ++ o.a ++ o.b ++ qf ++ o.pd ++ BitVec.ofBool o.i).extractLsb' 0 1 = BitVec.ofBool o.i
  rw [extract_low _ _ _ (by decide)]
  exact extract_all _

@[simp] theorem packQ_pd (op : BitVec 6) (o : OpQ) (qf : BitVec 5) :
    bits (packQ op o qf) 1 2 = o.pd := by
  show (op ++ o.d ++ o.a ++ o.b ++ qf ++ o.pd ++ BitVec.ofBool o.i).extractLsb' 1 2 = o.pd
  rw [extract_high _ _ _ (by decide)]
  rw [extract_low _ _ _ (by decide)]
  exact extract_all _

@[simp] theorem packQ_fn (op : BitVec 6) (o : OpQ) (qf : BitVec 5) :
    bits (packQ op o qf) 3 5 = qf := by
  show (op ++ o.d ++ o.a ++ o.b ++ qf ++ o.pd ++ BitVec.ofBool o.i).extractLsb' 3 5 = qf
  iterate 2 rw [extract_high _ _ _ (by decide)]
  rw [extract_low _ _ _ (by decide)]
  exact extract_all _

@[simp] theorem packQ_b (op : BitVec 6) (o : OpQ) (qf : BitVec 5) :
    bits (packQ op o qf) 8 6 = o.b := by
  show (op ++ o.d ++ o.a ++ o.b ++ qf ++ o.pd ++ BitVec.ofBool o.i).extractLsb' 8 6 = o.b
  iterate 3 rw [extract_high _ _ _ (by decide)]
  rw [extract_low _ _ _ (by decide)]
  exact extract_all _

@[simp] theorem packQ_a (op : BitVec 6) (o : OpQ) (qf : BitVec 5) :
    bits (packQ op o qf) 14 6 = o.a := by
  show (op ++ o.d ++ o.a ++ o.b ++ qf ++ o.pd ++ BitVec.ofBool o.i).extractLsb' 14 6 = o.a
  iterate 4 rw [extract_high _ _ _ (by decide)]
  rw [extract_low _ _ _ (by decide)]
  exact extract_all _

@[simp] theorem packQ_d (op : BitVec 6) (o : OpQ) (qf : BitVec 5) :
    bits (packQ op o qf) 20 6 = o.d := by
  show (op ++ o.d ++ o.a ++ o.b ++ qf ++ o.pd ++ BitVec.ofBool o.i).extractLsb' 20 6 = o.d
  iterate 5 rw [extract_high _ _ _ (by decide)]
  rw [extract_low _ _ _ (by decide)]
  exact extract_all _

@[simp] theorem packQ_op (op : BitVec 6) (o : OpQ) (qf : BitVec 5) :
    bits (packQ op o qf) 26 6 = op := by
  show (op ++ o.d ++ o.a ++ o.b ++ qf ++ o.pd ++ BitVec.ofBool o.i).extractLsb' 26 6 = op
  iterate 6 rw [extract_high _ _ _ (by decide)]
  exact extract_all _

@[simp] theorem fieldsQ_packQ (op : BitVec 6) (o : OpQ) (qf : BitVec 5) : fieldsQ (packQ op o qf) = o := by
  simp only [fieldsQ, packQ_d, packQ_a, packQ_b, packQ_pd, packQ_i]
  rcases o with ⟨d, a, b, pd, i⟩
  cases i <;> rfl

@[simp] theorem packM_ctl (op : BitVec 6) (o : OpM) (mf : BitVec 4) :
    bits (packM op o mf) 0 3 = o.ctl := by
  show (op ++ mf ++ o.ta ++ o.tb ++ o.c ++ o.slot ++ o.a ++ o.ctl).extractLsb' 0 3 = o.ctl
  rw [extract_low _ _ _ (by decide)]
  exact extract_all _

@[simp] theorem packM_a (op : BitVec 6) (o : OpM) (mf : BitVec 4) :
    bits (packM op o mf) 3 6 = o.a := by
  show (op ++ mf ++ o.ta ++ o.tb ++ o.c ++ o.slot ++ o.a ++ o.ctl).extractLsb' 3 6 = o.a
  rw [extract_high _ _ _ (by decide)]
  rw [extract_low _ _ _ (by decide)]
  exact extract_all _

@[simp] theorem packM_slot (op : BitVec 6) (o : OpM) (mf : BitVec 4) :
    bits (packM op o mf) 9 6 = o.slot := by
  show (op ++ mf ++ o.ta ++ o.tb ++ o.c ++ o.slot ++ o.a ++ o.ctl).extractLsb' 9 6 = o.slot
  iterate 2 rw [extract_high _ _ _ (by decide)]
  rw [extract_low _ _ _ (by decide)]
  exact extract_all _

@[simp] theorem packM_c (op : BitVec 6) (o : OpM) (mf : BitVec 4) :
    bits (packM op o mf) 15 1 = o.c := by
  show (op ++ mf ++ o.ta ++ o.tb ++ o.c ++ o.slot ++ o.a ++ o.ctl).extractLsb' 15 1 = o.c
  iterate 3 rw [extract_high _ _ _ (by decide)]
  rw [extract_low _ _ _ (by decide)]
  exact extract_all _

@[simp] theorem packM_tb (op : BitVec 6) (o : OpM) (mf : BitVec 4) :
    bits (packM op o mf) 16 3 = o.tb := by
  show (op ++ mf ++ o.ta ++ o.tb ++ o.c ++ o.slot ++ o.a ++ o.ctl).extractLsb' 16 3 = o.tb
  iterate 4 rw [extract_high _ _ _ (by decide)]
  rw [extract_low _ _ _ (by decide)]
  exact extract_all _

@[simp] theorem packM_ta (op : BitVec 6) (o : OpM) (mf : BitVec 4) :
    bits (packM op o mf) 19 3 = o.ta := by
  show (op ++ mf ++ o.ta ++ o.tb ++ o.c ++ o.slot ++ o.a ++ o.ctl).extractLsb' 19 3 = o.ta
  iterate 5 rw [extract_high _ _ _ (by decide)]
  rw [extract_low _ _ _ (by decide)]
  exact extract_all _

@[simp] theorem packM_fn (op : BitVec 6) (o : OpM) (mf : BitVec 4) :
    bits (packM op o mf) 22 4 = mf := by
  show (op ++ mf ++ o.ta ++ o.tb ++ o.c ++ o.slot ++ o.a ++ o.ctl).extractLsb' 22 4 = mf
  iterate 6 rw [extract_high _ _ _ (by decide)]
  rw [extract_low _ _ _ (by decide)]
  exact extract_all _

@[simp] theorem packM_op (op : BitVec 6) (o : OpM) (mf : BitVec 4) :
    bits (packM op o mf) 26 6 = op := by
  show (op ++ mf ++ o.ta ++ o.tb ++ o.c ++ o.slot ++ o.a ++ o.ctl).extractLsb' 26 6 = op
  iterate 7 rw [extract_high _ _ _ (by decide)]
  exact extract_all _

@[simp] theorem fieldsM_packM (op : BitVec 6) (o : OpM) (mf : BitVec 4) : fieldsM (packM op o mf) = o := by
  simp only [fieldsM, packM_ta, packM_tb, packM_c, packM_slot, packM_a, packM_ctl]

@[simp] theorem packF_rsv (op : BitVec 6) (o : OpF) :
    bits (packF op o) 0 11 = o.rsv := by
  show (op ++ o.fa ++ o.fb ++ o.fr ++ o.rc ++ o.sat ++ o.rsv).extractLsb' 0 11 = o.rsv
  rw [extract_low _ _ _ (by decide)]
  exact extract_all _

@[simp] theorem packF_sat (op : BitVec 6) (o : OpF) :
    bits (packF op o) 11 1 = o.sat := by
  show (op ++ o.fa ++ o.fb ++ o.fr ++ o.rc ++ o.sat ++ o.rsv).extractLsb' 11 1 = o.sat
  rw [extract_high _ _ _ (by decide)]
  rw [extract_low _ _ _ (by decide)]
  exact extract_all _

@[simp] theorem packF_rc (op : BitVec 6) (o : OpF) :
    bits (packF op o) 12 2 = o.rc := by
  show (op ++ o.fa ++ o.fb ++ o.fr ++ o.rc ++ o.sat ++ o.rsv).extractLsb' 12 2 = o.rc
  iterate 2 rw [extract_high _ _ _ (by decide)]
  rw [extract_low _ _ _ (by decide)]
  exact extract_all _

@[simp] theorem packF_fr (op : BitVec 6) (o : OpF) :
    bits (packF op o) 14 4 = o.fr := by
  show (op ++ o.fa ++ o.fb ++ o.fr ++ o.rc ++ o.sat ++ o.rsv).extractLsb' 14 4 = o.fr
  iterate 3 rw [extract_high _ _ _ (by decide)]
  rw [extract_low _ _ _ (by decide)]
  exact extract_all _

@[simp] theorem packF_fb (op : BitVec 6) (o : OpF) :
    bits (packF op o) 18 4 = o.fb := by
  show (op ++ o.fa ++ o.fb ++ o.fr ++ o.rc ++ o.sat ++ o.rsv).extractLsb' 18 4 = o.fb
  iterate 4 rw [extract_high _ _ _ (by decide)]
  rw [extract_low _ _ _ (by decide)]
  exact extract_all _

@[simp] theorem packF_fa (op : BitVec 6) (o : OpF) :
    bits (packF op o) 22 4 = o.fa := by
  show (op ++ o.fa ++ o.fb ++ o.fr ++ o.rc ++ o.sat ++ o.rsv).extractLsb' 22 4 = o.fa
  iterate 5 rw [extract_high _ _ _ (by decide)]
  rw [extract_low _ _ _ (by decide)]
  exact extract_all _

@[simp] theorem packF_op (op : BitVec 6) (o : OpF) :
    bits (packF op o) 26 6 = op := by
  show (op ++ o.fa ++ o.fb ++ o.fr ++ o.rc ++ o.sat ++ o.rsv).extractLsb' 26 6 = op
  iterate 6 rw [extract_high _ _ _ (by decide)]
  exact extract_all _

@[simp] theorem fieldsF_packF (op : BitVec 6) (o : OpF) : fieldsF (packF op o) = o := by
  simp only [fieldsF, packF_fa, packF_fb, packF_fr, packF_rc, packF_sat, packF_rsv]

end Sys2Proof
end

