-- ==== Sys2Proof/Laws/PerInstr.lean ====
section
/-! SUPPORT. Decoding an encoded instruction gives it back, one lemma per constructor of Instr (the family RoundTrip of LAWS.json): no
encoding drops or swaps a field. An event is no word, so its statement is about nothing. -/

namespace Sys2Proof

theorem decode_01 (w : W32) (h : bits w 26 6 = 0x01#6) : decode w = decode01 w := by
  unfold decode decodeMost
  rw [h]
  rfl

theorem decode_02 (w : W32) (h : bits w 26 6 = 0x02#6) : decode w = decode02 w := by
  unfold decode decodeMost
  rw [h]
  rfl

theorem decode_03 (w : W32) (h : bits w 26 6 = 0x03#6) : decode w = decode03 w := by
  unfold decode decodeMost
  rw [h]
  rfl

theorem decode_06 (w : W32) (h : bits w 26 6 = 0x06#6) : decode w = decode06 w := by
  unfold decode decodeMost
  rw [h]
  rfl

theorem decode_07 (w : W32) (h : bits w 26 6 = 0x07#6) : decode w = decode07 w := by
  unfold decode decodeMost
  rw [h]
  rfl

theorem decode_08 (w : W32) (h : bits w 26 6 = 0x08#6) : decode w = decode08 w := by
  unfold decode decodeMost
  rw [h]
  rfl

theorem decode_09 (w : W32) (h : bits w 26 6 = 0x09#6) : decode w = decode09 w := by
  unfold decode decodeMost
  rw [h]
  rfl

theorem decode_0A (w : W32) (h : bits w 26 6 = 0x0A#6) : decode w = decode0A w := by
  unfold decode decodeMost
  rw [h]
  rfl

theorem decode_0B (w : W32) (h : bits w 26 6 = 0x0B#6) : decode w = decode0B w := by
  unfold decode decodeMost
  rw [h]
  rfl

theorem decode_11 (w : W32) (h : bits w 26 6 = 0x11#6) : decode w = decode11 w := by
  unfold decode decodeMost
  rw [h]
  rfl

theorem decode_14 (w : W32) (h : bits w 26 6 = 0x14#6) : decode w = decode14 w := by
  unfold decode decodeMost
  rw [h]
  rfl

theorem decode_15 (w : W32) (h : bits w 26 6 = 0x15#6) : decode w = decode15 w := by
  unfold decode decodeMost
  rw [h]
  rfl

theorem decode_16 (w : W32) (h : bits w 26 6 = 0x16#6) : decode w = decode16 w := by
  unfold decode decodeMost
  rw [h]
  rfl

theorem decode_17 (w : W32) (h : bits w 26 6 = 0x17#6) : decode w = decode17 w := by
  unfold decode decodeMost
  rw [h]
  rfl

theorem decode_18 (w : W32) (h : bits w 26 6 = 0x18#6) : decode w = decode18 w := by
  unfold decode decodeMost
  rw [h]
  rfl

theorem decode_19 (w : W32) (h : bits w 26 6 = 0x19#6) : decode w = decode19 w := by
  unfold decode decodeMost
  rw [h]
  rfl

theorem decode_1A (w : W32) (h : bits w 26 6 = 0x1A#6) : decode w = decode1A w := by
  unfold decode decodeMost
  rw [h]
  rfl

theorem decode_1B (w : W32) (h : bits w 26 6 = 0x1B#6) : decode w = decode1B w := by
  unfold decode decodeMost
  rw [h]
  rfl

theorem decode_1C (w : W32) (h : bits w 26 6 = 0x1C#6) : decode w = decode1C w := by
  unfold decode decodeMost
  rw [h]
  rfl

theorem decode_1D (w : W32) (h : bits w 26 6 = 0x1D#6) : decode w = decode1D w := by
  unfold decode decodeMost
  rw [h]
  rfl

theorem decode_1E (w : W32) (h : bits w 26 6 = 0x1E#6) : decode w = decode1E w := by
  unfold decode decodeMost
  rw [h]
  rfl

theorem decode_1F (w : W32) (h : bits w 26 6 = 0x1F#6) : decode w = decode1F w := by
  unfold decode decodeMost
  rw [h]
  rfl

theorem decode_20 (w : W32) (h : bits w 26 6 = 0x20#6) : decode w = decode20 w := by
  unfold decode decodeMost
  rw [h]
  rfl

theorem decode_21 (w : W32) (h : bits w 26 6 = 0x21#6) : decode w = decode21 w := by
  unfold decode decodeMost
  rw [h]
  rfl

theorem decode_22 (w : W32) (h : bits w 26 6 = 0x22#6) : decode w = decode22 w := by
  unfold decode decodeMost
  rw [h]
  rfl

theorem decode_23 (w : W32) (h : bits w 26 6 = 0x23#6) : decode w = decode23 w := by
  unfold decode decodeMost
  rw [h]
  rfl

theorem decode_24 (w : W32) (h : bits w 26 6 = 0x24#6) : decode w = decode24 w := by
  unfold decode decodeMost
  rw [h]
  rfl

theorem decode_25 (w : W32) (h : bits w 26 6 = 0x25#6) : decode w = decode25 w := by
  unfold decode decodeMost
  rw [h]
  rfl

theorem decode_26 (w : W32) (h : bits w 26 6 = 0x26#6) : decode w = decode26 w := by
  unfold decode decodeMost
  rw [h]
  rfl

theorem decode_27 (w : W32) (h : bits w 26 6 = 0x27#6) : decode w = decode27 w := by
  unfold decode decodeMost
  rw [h]
  rfl

theorem decode_28 (w : W32) (h : bits w 26 6 = 0x28#6) : decode w = decode28 w := by
  unfold decode
  rw [h]
  rfl

theorem decode_29 (w : W32) (h : bits w 26 6 = 0x29#6) : decode w = decode29 w := by
  unfold decode
  rw [h]
  rfl

theorem packA_low (op : BitVec 6) (o : OpA) (f4 : BitVec 4) : bits (packA op o f4) 0 6 = f4 ++ o.ord := by
  show (op ++ o.d ++ o.a ++ o.b ++ o.w ++ f4 ++ o.ord).extractLsb' 0 6 = f4 ++ o.ord
  ext i hi
  rw [BitVec.getElem_extractLsb', BitVec.getLsbD_append, BitVec.getLsbD_append, BitVec.getElem_append]
  rw [Nat.zero_add]
  by_cases h : i < 2
  · rw [if_pos h, dif_pos h, BitVec.getLsbD_eq_getElem]
  · rw [if_neg h, dif_neg h, if_pos (by omega), BitVec.getLsbD_eq_getElem]

/-- The four values of a 2-bit field. -/
theorem two_bits (x : BitVec 2) : x = 0#2 ∨ x = 1#2 ∨ x = 2#2 ∨ x = 3#2 := by
  revert x
  decide

end Sys2Proof

namespace Sys2Proof.Laws.RoundTrip

/-- Decoding the word of an instruction gives the instruction, with every operand. -/
def Statement (i : Instr) : Prop := i.isWord = true → decode i.encode = .ok i

theorem add (o : OpR) : Statement (.add o) := fun _ => by
  show decode (packR 0x01#6 o 0#6) = _
  rw [decode_01 _ (packR_op ..)]
  unfold decode01
  rw [packR_fn, fieldsR_packR]
  rfl

theorem sub (o : OpR) : Statement (.sub o) := fun _ => by
  show decode (packR 0x01#6 o 1#6) = _
  rw [decode_01 _ (packR_op ..)]
  unfold decode01
  rw [packR_fn, fieldsR_packR]
  rfl

theorem and_ (o : OpR) : Statement (.and_ o) := fun _ => by
  show decode (packR 0x01#6 o 2#6) = _
  rw [decode_01 _ (packR_op ..)]
  unfold decode01
  rw [packR_fn, fieldsR_packR]
  rfl

theorem or_ (o : OpR) : Statement (.or_ o) := fun _ => by
  show decode (packR 0x01#6 o 3#6) = _
  rw [decode_01 _ (packR_op ..)]
  unfold decode01
  rw [packR_fn, fieldsR_packR]
  rfl

theorem xor_ (o : OpR) : Statement (.xor_ o) := fun _ => by
  show decode (packR 0x01#6 o 4#6) = _
  rw [decode_01 _ (packR_op ..)]
  unfold decode01
  rw [packR_fn, fieldsR_packR]
  rfl

theorem andn (o : OpR) : Statement (.andn o) := fun _ => by
  show decode (packR 0x01#6 o 5#6) = _
  rw [decode_01 _ (packR_op ..)]
  unfold decode01
  rw [packR_fn, fieldsR_packR]
  rfl

theorem sll (o : OpR) : Statement (.sll o) := fun _ => by
  show decode (packR 0x01#6 o 6#6) = _
  rw [decode_01 _ (packR_op ..)]
  unfold decode01
  rw [packR_fn, fieldsR_packR]
  rfl

theorem srl (o : OpR) : Statement (.srl o) := fun _ => by
  show decode (packR 0x01#6 o 7#6) = _
  rw [decode_01 _ (packR_op ..)]
  unfold decode01
  rw [packR_fn, fieldsR_packR]
  rfl

theorem sra (o : OpR) : Statement (.sra o) := fun _ => by
  show decode (packR 0x01#6 o 8#6) = _
  rw [decode_01 _ (packR_op ..)]
  unfold decode01
  rw [packR_fn, fieldsR_packR]
  rfl

theorem ror (o : OpR) : Statement (.ror o) := fun _ => by
  show decode (packR 0x01#6 o 9#6) = _
  rw [decode_01 _ (packR_op ..)]
  unfold decode01
  rw [packR_fn, fieldsR_packR]
  rfl

theorem slt (o : OpR) : Statement (.slt o) := fun _ => by
  show decode (packR 0x01#6 o 10#6) = _
  rw [decode_01 _ (packR_op ..)]
  unfold decode01
  rw [packR_fn, fieldsR_packR]
  rfl

theorem sltz (o : OpR) : Statement (.sltz o) := fun _ => by
  show decode (packR 0x01#6 o 11#6) = _
  rw [decode_01 _ (packR_op ..)]
  unfold decode01
  rw [packR_fn, fieldsR_packR]
  rfl

theorem seq (o : OpR) : Statement (.seq o) := fun _ => by
  show decode (packR 0x01#6 o 12#6) = _
  rw [decode_01 _ (packR_op ..)]
  unfold decode01
  rw [packR_fn, fieldsR_packR]
  rfl

theorem min_ (o : OpR) : Statement (.min_ o) := fun _ => by
  show decode (packR 0x01#6 o 13#6) = _
  rw [decode_01 _ (packR_op ..)]
  unfold decode01
  rw [packR_fn, fieldsR_packR]
  rfl

theorem max_ (o : OpR) : Statement (.max_ o) := fun _ => by
  show decode (packR 0x01#6 o 14#6) = _
  rw [decode_01 _ (packR_op ..)]
  unfold decode01
  rw [packR_fn, fieldsR_packR]
  rfl

theorem minz (o : OpR) : Statement (.minz o) := fun _ => by
  show decode (packR 0x01#6 o 15#6) = _
  rw [decode_01 _ (packR_op ..)]
  unfold decode01
  rw [packR_fn, fieldsR_packR]
  rfl

theorem maxz (o : OpR) : Statement (.maxz o) := fun _ => by
  show decode (packR 0x01#6 o 16#6) = _
  rw [decode_01 _ (packR_op ..)]
  unfold decode01
  rw [packR_fn, fieldsR_packR]
  rfl

theorem adds (o : OpR) : Statement (.adds o) := fun _ => by
  show decode (packR 0x01#6 o 17#6) = _
  rw [decode_01 _ (packR_op ..)]
  unfold decode01
  rw [packR_fn, fieldsR_packR]
  rfl

theorem subs (o : OpR) : Statement (.subs o) := fun _ => by
  show decode (packR 0x01#6 o 18#6) = _
  rw [decode_01 _ (packR_op ..)]
  unfold decode01
  rw [packR_fn, fieldsR_packR]
  rfl

theorem clz (o : OpR) : Statement (.clz o) := fun _ => by
  show decode (packR 0x01#6 o 19#6) = _
  rw [decode_01 _ (packR_op ..)]
  unfold decode01
  rw [packR_fn, fieldsR_packR]
  rfl

theorem ctz (o : OpR) : Statement (.ctz o) := fun _ => by
  show decode (packR 0x01#6 o 20#6) = _
  rw [decode_01 _ (packR_op ..)]
  unfold decode01
  rw [packR_fn, fieldsR_packR]
  rfl

theorem popc (o : OpR) : Statement (.popc o) := fun _ => by
  show decode (packR 0x01#6 o 21#6) = _
  rw [decode_01 _ (packR_op ..)]
  unfold decode01
  rw [packR_fn, fieldsR_packR]
  rfl

theorem bswap (o : OpR) : Statement (.bswap o) := fun _ => by
  show decode (packR 0x01#6 o 22#6) = _
  rw [decode_01 _ (packR_op ..)]
  unfold decode01
  rw [packR_fn, fieldsR_packR]
  rfl

theorem sxb (o : OpR) : Statement (.sxb o) := fun _ => by
  show decode (packR 0x01#6 o 23#6) = _
  rw [decode_01 _ (packR_op ..)]
  unfold decode01
  rw [packR_fn, fieldsR_packR]
  rfl

theorem sxh (o : OpR) : Statement (.sxh o) := fun _ => by
  show decode (packR 0x01#6 o 24#6) = _
  rw [decode_01 _ (packR_op ..)]
  unfold decode01
  rw [packR_fn, fieldsR_packR]
  rfl

theorem sxw (o : OpR) : Statement (.sxw o) := fun _ => by
  show decode (packR 0x01#6 o 25#6) = _
  rw [decode_01 _ (packR_op ..)]
  unfold decode01
  rw [packR_fn, fieldsR_packR]
  rfl

theorem zxw (o : OpR) : Statement (.zxw o) := fun _ => by
  show decode (packR 0x01#6 o 26#6) = _
  rw [decode_01 _ (packR_op ..)]
  unfold decode01
  rw [packR_fn, fieldsR_packR]
  rfl

theorem mvt (o : OpR) : Statement (.mvt o) := fun _ => by
  show decode (packR 0x01#6 o 27#6) = _
  rw [decode_01 _ (packR_op ..)]
  unfold decode01
  rw [packR_fn, fieldsR_packR]
  rfl

theorem mvp (o : OpR) : Statement (.mvp o) := fun _ => by
  show decode (packR 0x01#6 o 28#6) = _
  rw [decode_01 _ (packR_op ..)]
  unfold decode01
  rw [packR_fn, fieldsR_packR]
  rfl

theorem rclr (o : OpR) : Statement (.rclr o) := fun _ => by
  show decode (packR 0x01#6 o 29#6) = _
  rw [decode_01 _ (packR_op ..)]
  unfold decode01
  rw [packR_fn, fieldsR_packR]
  rfl

theorem rful (o : OpR) : Statement (.rful o) := fun _ => by
  show decode (packR 0x01#6 o 30#6) = _
  rw [decode_01 _ (packR_op ..)]
  unfold decode01
  rw [packR_fn, fieldsR_packR]
  rfl

theorem addi (o : OpI) : Statement (.addi o) := fun _ => by
  show decode (packI 0x02#6 o 0#3) = _
  rw [decode_02 _ (packI_op ..)]
  unfold decode02
  rw [packI_fn, fieldsI_packI]
  rfl

theorem andi (o : OpI) : Statement (.andi o) := fun _ => by
  show decode (packI 0x02#6 o 1#3) = _
  rw [decode_02 _ (packI_op ..)]
  unfold decode02
  rw [packI_fn, fieldsI_packI]
  rfl

theorem andiz (o : OpI) : Statement (.andiz o) := fun _ => by
  show decode (packI 0x02#6 o 2#3) = _
  rw [decode_02 _ (packI_op ..)]
  unfold decode02
  rw [packI_fn, fieldsI_packI]
  rfl

theorem ori (o : OpI) : Statement (.ori o) := fun _ => by
  show decode (packI 0x02#6 o 3#3) = _
  rw [decode_02 _ (packI_op ..)]
  unfold decode02
  rw [packI_fn, fieldsI_packI]
  rfl

theorem oriz (o : OpI) : Statement (.oriz o) := fun _ => by
  show decode (packI 0x02#6 o 4#3) = _
  rw [decode_02 _ (packI_op ..)]
  unfold decode02
  rw [packI_fn, fieldsI_packI]
  rfl

theorem xori (o : OpI) : Statement (.xori o) := fun _ => by
  show decode (packI 0x02#6 o 5#3) = _
  rw [decode_02 _ (packI_op ..)]
  unfold decode02
  rw [packI_fn, fieldsI_packI]
  rfl

theorem xoriz (o : OpI) : Statement (.xoriz o) := fun _ => by
  show decode (packI 0x02#6 o 6#3) = _
  rw [decode_02 _ (packI_op ..)]
  unfold decode02
  rw [packI_fn, fieldsI_packI]
  rfl

theorem slli (o : OpI) : Statement (.slli o) := fun _ => by
  show decode (packI 0x03#6 o 0#3) = _
  rw [decode_03 _ (packI_op ..)]
  unfold decode03
  rw [packI_fn, fieldsI_packI]
  rfl

theorem srli (o : OpI) : Statement (.srli o) := fun _ => by
  show decode (packI 0x03#6 o 1#3) = _
  rw [decode_03 _ (packI_op ..)]
  unfold decode03
  rw [packI_fn, fieldsI_packI]
  rfl

theorem srai (o : OpI) : Statement (.srai o) := fun _ => by
  show decode (packI 0x03#6 o 2#3) = _
  rw [decode_03 _ (packI_op ..)]
  unfold decode03
  rw [packI_fn, fieldsI_packI]
  rfl

theorem rori (o : OpI) : Statement (.rori o) := fun _ => by
  show decode (packI 0x03#6 o 3#3) = _
  rw [decode_03 _ (packI_op ..)]
  unfold decode03
  rw [packI_fn, fieldsI_packI]
  rfl

theorem slti (o : OpI) : Statement (.slti o) := fun _ => by
  show decode (packI 0x03#6 o 4#3) = _
  rw [decode_03 _ (packI_op ..)]
  unfold decode03
  rw [packI_fn, fieldsI_packI]
  rfl

theorem sltiz (o : OpI) : Statement (.sltiz o) := fun _ => by
  show decode (packI 0x03#6 o 5#3) = _
  rw [decode_03 _ (packI_op ..)]
  unfold decode03
  rw [packI_fn, fieldsI_packI]
  rfl

theorem seqi (o : OpI) : Statement (.seqi o) := fun _ => by
  show decode (packI 0x03#6 o 6#3) = _
  rw [decode_03 _ (packI_op ..)]
  unfold decode03
  rw [packI_fn, fieldsI_packI]
  rfl

theorem shlim (o : OpU) : Statement (.shlim o) := fun _ => by
  show decode (packU 0x04#6 o) = _
  unfold decode decodeMost
  rw [packU_op, fieldsU_packU]
  rfl

theorem addpc (o : OpU) : Statement (.addpc o) := fun _ => by
  show decode (packU 0x05#6 o) = _
  unfold decode decodeMost
  rw [packU_op, fieldsU_packU]
  rfl

theorem mul (o : OpR) : Statement (.mul o) := fun _ => by
  show decode (packR 0x06#6 o 0#6) = _
  rw [decode_06 _ (packR_op ..)]
  unfold decode06
  rw [packR_fn, fieldsR_packR]
  rfl

theorem mulh (o : OpR) : Statement (.mulh o) := fun _ => by
  show decode (packR 0x06#6 o 1#6) = _
  rw [decode_06 _ (packR_op ..)]
  unfold decode06
  rw [packR_fn, fieldsR_packR]
  rfl

theorem mulhz (o : OpR) : Statement (.mulhz o) := fun _ => by
  show decode (packR 0x06#6 o 2#6) = _
  rw [decode_06 _ (packR_op ..)]
  unfold decode06
  rw [packR_fn, fieldsR_packR]
  rfl

theorem div (o : OpR) : Statement (.div o) := fun _ => by
  show decode (packR 0x06#6 o 3#6) = _
  rw [decode_06 _ (packR_op ..)]
  unfold decode06
  rw [packR_fn, fieldsR_packR]
  rfl

theorem divz (o : OpR) : Statement (.divz o) := fun _ => by
  show decode (packR 0x06#6 o 4#6) = _
  rw [decode_06 _ (packR_op ..)]
  unfold decode06
  rw [packR_fn, fieldsR_packR]
  rfl

theorem rem (o : OpR) : Statement (.rem o) := fun _ => by
  show decode (packR 0x06#6 o 5#6) = _
  rw [decode_06 _ (packR_op ..)]
  unfold decode06
  rw [packR_fn, fieldsR_packR]
  rfl

theorem remz (o : OpR) : Statement (.remz o) := fun _ => by
  show decode (packR 0x06#6 o 6#6) = _
  rw [decode_06 _ (packR_op ..)]
  unfold decode06
  rw [packR_fn, fieldsR_packR]
  rfl

theorem csrr (o : OpC) : Statement (.csrr o) := fun _ => by
  show decode (packC 0x07#6 o 0#2) = _
  rw [decode_07 _ (packC_op ..)]
  unfold decode07
  rw [packC_fn, fieldsC_packC]
  rfl

theorem csrx (o : OpC) : Statement (.csrx o) := fun _ => by
  show decode (packC 0x07#6 o 1#2) = _
  rw [decode_07 _ (packC_op ..)]
  unfold decode07
  rw [packC_fn, fieldsC_packC]
  rfl

theorem csrs (o : OpC) : Statement (.csrs o) := fun _ => by
  show decode (packC 0x07#6 o 2#2) = _
  rw [decode_07 _ (packC_op ..)]
  unfold decode07
  rw [packC_fn, fieldsC_packC]
  rfl

theorem csrc (o : OpC) : Statement (.csrc o) := fun _ => by
  show decode (packC 0x07#6 o 3#2) = _
  rw [decode_07 _ (packC_op ..)]
  unfold decode07
  rw [packC_fn, fieldsC_packC]
  rfl

theorem vadd (o : OpV) : Statement (.vadd o) := fun _ => by
  show decode (packV 0x08#6 o 0#5) = _
  rw [decode_08 _ (packV_op ..)]
  unfold decode08
  rw [packV_fn, fieldsV_packV]
  rfl

theorem vsub (o : OpV) : Statement (.vsub o) := fun _ => by
  show decode (packV 0x08#6 o 1#5) = _
  rw [decode_08 _ (packV_op ..)]
  unfold decode08
  rw [packV_fn, fieldsV_packV]
  rfl

theorem vmul (o : OpV) : Statement (.vmul o) := fun _ => by
  show decode (packV 0x08#6 o 2#5) = _
  rw [decode_08 _ (packV_op ..)]
  unfold decode08
  rw [packV_fn, fieldsV_packV]
  rfl

theorem vmulh (o : OpV) : Statement (.vmulh o) := fun _ => by
  show decode (packV 0x08#6 o 3#5) = _
  rw [decode_08 _ (packV_op ..)]
  unfold decode08
  rw [packV_fn, fieldsV_packV]
  rfl

theorem vand (o : OpV) : Statement (.vand o) := fun _ => by
  show decode (packV 0x08#6 o 4#5) = _
  rw [decode_08 _ (packV_op ..)]
  unfold decode08
  rw [packV_fn, fieldsV_packV]
  rfl

theorem vor (o : OpV) : Statement (.vor o) := fun _ => by
  show decode (packV 0x08#6 o 5#5) = _
  rw [decode_08 _ (packV_op ..)]
  unfold decode08
  rw [packV_fn, fieldsV_packV]
  rfl

theorem vxor (o : OpV) : Statement (.vxor o) := fun _ => by
  show decode (packV 0x08#6 o 6#5) = _
  rw [decode_08 _ (packV_op ..)]
  unfold decode08
  rw [packV_fn, fieldsV_packV]
  rfl

theorem vsll (o : OpV) : Statement (.vsll o) := fun _ => by
  show decode (packV 0x08#6 o 7#5) = _
  rw [decode_08 _ (packV_op ..)]
  unfold decode08
  rw [packV_fn, fieldsV_packV]
  rfl

theorem vsrl (o : OpV) : Statement (.vsrl o) := fun _ => by
  show decode (packV 0x08#6 o 8#5) = _
  rw [decode_08 _ (packV_op ..)]
  unfold decode08
  rw [packV_fn, fieldsV_packV]
  rfl

theorem vsra (o : OpV) : Statement (.vsra o) := fun _ => by
  show decode (packV 0x08#6 o 9#5) = _
  rw [decode_08 _ (packV_op ..)]
  unfold decode08
  rw [packV_fn, fieldsV_packV]
  rfl

theorem vmin (o : OpV) : Statement (.vmin o) := fun _ => by
  show decode (packV 0x08#6 o 10#5) = _
  rw [decode_08 _ (packV_op ..)]
  unfold decode08
  rw [packV_fn, fieldsV_packV]
  rfl

theorem vmax (o : OpV) : Statement (.vmax o) := fun _ => by
  show decode (packV 0x08#6 o 11#5) = _
  rw [decode_08 _ (packV_op ..)]
  unfold decode08
  rw [packV_fn, fieldsV_packV]
  rfl

theorem vclt (o : OpV) : Statement (.vclt o) := fun _ => by
  show decode (packV 0x08#6 o 12#5) = _
  rw [decode_08 _ (packV_op ..)]
  unfold decode08
  rw [packV_fn, fieldsV_packV]
  rfl

theorem vceq (o : OpV) : Statement (.vceq o) := fun _ => by
  show decode (packV 0x08#6 o 13#5) = _
  rw [decode_08 _ (packV_op ..)]
  unfold decode08
  rw [packV_fn, fieldsV_packV]
  rfl

theorem vfadd (o : OpV) : Statement (.vfadd o) := fun _ => by
  show decode (packV 0x09#6 o 0#5) = _
  rw [decode_09 _ (packV_op ..)]
  unfold decode09
  rw [packV_fn, fieldsV_packV]
  rfl

theorem vfsub (o : OpV) : Statement (.vfsub o) := fun _ => by
  show decode (packV 0x09#6 o 1#5) = _
  rw [decode_09 _ (packV_op ..)]
  unfold decode09
  rw [packV_fn, fieldsV_packV]
  rfl

theorem vfmul (o : OpV) : Statement (.vfmul o) := fun _ => by
  show decode (packV 0x09#6 o 2#5) = _
  rw [decode_09 _ (packV_op ..)]
  unfold decode09
  rw [packV_fn, fieldsV_packV]
  rfl

theorem vfma (o : OpV) : Statement (.vfma o) := fun _ => by
  show decode (packV 0x09#6 o 3#5) = _
  rw [decode_09 _ (packV_op ..)]
  unfold decode09
  rw [packV_fn, fieldsV_packV]
  rfl

theorem vfmax (o : OpV) : Statement (.vfmax o) := fun _ => by
  show decode (packV 0x09#6 o 4#5) = _
  rw [decode_09 _ (packV_op ..)]
  unfold decode09
  rw [packV_fn, fieldsV_packV]
  rfl

theorem vfmin (o : OpV) : Statement (.vfmin o) := fun _ => by
  show decode (packV 0x09#6 o 5#5) = _
  rw [decode_09 _ (packV_op ..)]
  unfold decode09
  rw [packV_fn, fieldsV_packV]
  rfl

theorem vfclt (o : OpV) : Statement (.vfclt o) := fun _ => by
  show decode (packV 0x09#6 o 6#5) = _
  rw [decode_09 _ (packV_op ..)]
  unfold decode09
  rw [packV_fn, fieldsV_packV]
  rfl

theorem vfceq (o : OpV) : Statement (.vfceq o) := fun _ => by
  show decode (packV 0x09#6 o 7#5) = _
  rw [decode_09 _ (packV_op ..)]
  unfold decode09
  rw [packV_fn, fieldsV_packV]
  rfl

theorem vbcast (o : OpV) : Statement (.vbcast o) := fun _ => by
  show decode (packV 0x0A#6 o 0#5) = _
  rw [decode_0A _ (packV_op ..)]
  unfold decode0A
  rw [packV_fn, fieldsV_packV]
  rfl

theorem vext (o : OpV) : Statement (.vext o) := fun _ => by
  show decode (packV 0x0A#6 o 1#5) = _
  rw [decode_0A _ (packV_op ..)]
  unfold decode0A
  rw [packV_fn, fieldsV_packV]
  rfl

theorem vins (o : OpV) : Statement (.vins o) := fun _ => by
  show decode (packV 0x0A#6 o 2#5) = _
  rw [decode_0A _ (packV_op ..)]
  unfold decode0A
  rw [packV_fn, fieldsV_packV]
  rfl

theorem vrot (o : OpV) : Statement (.vrot o) := fun _ => by
  show decode (packV 0x0A#6 o 3#5) = _
  rw [decode_0A _ (packV_op ..)]
  unfold decode0A
  rw [packV_fn, fieldsV_packV]
  rfl

theorem vperm (o : OpV) : Statement (.vperm o) := fun _ => by
  show decode (packV 0x0A#6 o 4#5) = _
  rw [decode_0A _ (packV_op ..)]
  unfold decode0A
  rw [packV_fn, fieldsV_packV]
  rfl

theorem vredadd (o : OpV) : Statement (.vredadd o) := fun _ => by
  show decode (packV 0x0A#6 o 5#5) = _
  rw [decode_0A _ (packV_op ..)]
  unfold decode0A
  rw [packV_fn, fieldsV_packV]
  rfl

theorem vredmax (o : OpV) : Statement (.vredmax o) := fun _ => by
  show decode (packV 0x0A#6 o 6#5) = _
  rw [decode_0A _ (packV_op ..)]
  unfold decode0A
  rw [packV_fn, fieldsV_packV]
  rfl

theorem kget (o : OpV) : Statement (.kget o) := fun _ => by
  show decode (packV 0x0A#6 o 7#5) = _
  rw [decode_0A _ (packV_op ..)]
  unfold decode0A
  rw [packV_fn, fieldsV_packV]
  rfl

theorem kset (o : OpV) : Statement (.kset o) := fun _ => by
  show decode (packV 0x0A#6 o 8#5) = _
  rw [decode_0A _ (packV_op ..)]
  unfold decode0A
  rw [packV_fn, fieldsV_packV]
  rfl

theorem vcvt (o : OpV) : Statement (.vcvt o) := fun _ => by
  show decode (packV 0x0B#6 o 0#5) = _
  rw [decode_0B _ (packV_op ..)]
  unfold decode0B
  rw [packV_fn, fieldsV_packV]
  rfl

theorem vexp2 (o : OpV) : Statement (.vexp2 o) := fun _ => by
  show decode (packV 0x0B#6 o 1#5) = _
  rw [decode_0B _ (packV_op ..)]
  unfold decode0B
  rw [packV_fn, fieldsV_packV]
  rfl

theorem vrcp (o : OpV) : Statement (.vrcp o) := fun _ => by
  show decode (packV 0x0B#6 o 2#5) = _
  rw [decode_0B _ (packV_op ..)]
  unfold decode0B
  rw [packV_fn, fieldsV_packV]
  rfl

theorem vrsq (o : OpV) : Statement (.vrsq o) := fun _ => by
  show decode (packV 0x0B#6 o 3#5) = _
  rw [decode_0B _ (packV_op ..)]
  unfold decode0B
  rw [packV_fn, fieldsV_packV]
  rfl

theorem vgelu (o : OpV) : Statement (.vgelu o) := fun _ => by
  show decode (packV 0x0B#6 o 4#5) = _
  rw [decode_0B _ (packV_op ..)]
  unfold decode0B
  rw [packV_fn, fieldsV_packV]
  rfl

theorem beq (o : OpB) : Statement (.beq o) := fun _ => by
  show decode (packB 0x0C#6 o) = _
  unfold decode decodeMost
  rw [packB_op, fieldsB_packB]
  rfl

theorem bne (o : OpB) : Statement (.bne o) := fun _ => by
  show decode (packB 0x0D#6 o) = _
  unfold decode decodeMost
  rw [packB_op, fieldsB_packB]
  rfl

theorem blt (o : OpB) : Statement (.blt o) := fun _ => by
  show decode (packB 0x0E#6 o) = _
  unfold decode decodeMost
  rw [packB_op, fieldsB_packB]
  rfl

theorem bge (o : OpB) : Statement (.bge o) := fun _ => by
  show decode (packB 0x0F#6 o) = _
  unfold decode decodeMost
  rw [packB_op, fieldsB_packB]
  rfl

theorem bltz (o : OpB) : Statement (.bltz o) := fun _ => by
  show decode (packB 0x10#6 o) = _
  unfold decode decodeMost
  rw [packB_op, fieldsB_packB]
  rfl

theorem bp (o : OpP) : Statement (.bp o) := fun _ => by
  show decode (packP 0x11#6 o 0#1) = _
  rw [decode_11 _ (packP_op ..)]
  unfold decode11
  rw [packP_fn, fieldsP_packP]
  rfl

theorem bnp (o : OpP) : Statement (.bnp o) := fun _ => by
  show decode (packP 0x11#6 o 1#1) = _
  rw [decode_11 _ (packP_op ..)]
  unfold decode11
  rw [packP_fn, fieldsP_packP]
  rfl

theorem jal (o : OpJ) : Statement (.jal o) := fun _ => by
  show decode (packJ 0x12#6 o) = _
  unfold decode decodeMost
  rw [packJ_op, fieldsJ_packJ]
  rfl

theorem jr (o : OpJr) : Statement (.jr o) := fun _ => by
  show decode (packJr 0x13#6 o) = _
  unfold decode decodeMost
  rw [packJr_op, fieldsJr_packJr]
  rfl

theorem pnez (o : OpR) : Statement (.pnez o) := fun _ => by
  show decode (packR 0x14#6 o 0#6) = _
  rw [decode_14 _ (packR_op ..)]
  unfold decode14
  rw [packR_fn, fieldsR_packR]
  rfl

theorem peq (o : OpR) : Statement (.peq o) := fun _ => by
  show decode (packR 0x14#6 o 1#6) = _
  rw [decode_14 _ (packR_op ..)]
  unfold decode14
  rw [packR_fn, fieldsR_packR]
  rfl

theorem plt (o : OpR) : Statement (.plt o) := fun _ => by
  show decode (packR 0x14#6 o 2#6) = _
  rw [decode_14 _ (packR_op ..)]
  unfold decode14
  rw [packR_fn, fieldsR_packR]
  rfl

theorem pltz (o : OpR) : Statement (.pltz o) := fun _ => by
  show decode (packR 0x14#6 o 3#6) = _
  rw [decode_14 _ (packR_op ..)]
  unfold decode14
  rw [packR_fn, fieldsR_packR]
  rfl

theorem pand (o : OpR) : Statement (.pand o) := fun _ => by
  show decode (packR 0x14#6 o 4#6) = _
  rw [decode_14 _ (packR_op ..)]
  unfold decode14
  rw [packR_fn, fieldsR_packR]
  rfl

theorem por (o : OpR) : Statement (.por o) := fun _ => by
  show decode (packR 0x14#6 o 5#6) = _
  rw [decode_14 _ (packR_op ..)]
  unfold decode14
  rw [packR_fn, fieldsR_packR]
  rfl

theorem pxor (o : OpR) : Statement (.pxor o) := fun _ => by
  show decode (packR 0x14#6 o 6#6) = _
  rw [decode_14 _ (packR_op ..)]
  unfold decode14
  rw [packR_fn, fieldsR_packR]
  rfl

theorem pnot (o : OpR) : Statement (.pnot o) := fun _ => by
  show decode (packR 0x14#6 o 7#6) = _
  rw [decode_14 _ (packR_op ..)]
  unfold decode14
  rw [packR_fn, fieldsR_packR]
  rfl

theorem pget (o : OpR) : Statement (.pget o) := fun _ => by
  show decode (packR 0x14#6 o 8#6) = _
  rw [decode_14 _ (packR_op ..)]
  unfold decode14
  rw [packR_fn, fieldsR_packR]
  rfl

theorem yield_ (o : OpR) : Statement (.yield_ o) := fun _ => by
  show decode (packR 0x14#6 o 16#6) = _
  rw [decode_14 _ (packR_op ..)]
  unfold decode14
  rw [packR_fn, fieldsR_packR]
  rfl

theorem exit_ (o : OpR) : Statement (.exit_ o) := fun _ => by
  show decode (packR 0x14#6 o 17#6) = _
  rw [decode_14 _ (packR_op ..)]
  unfold decode14
  rw [packR_fn, fieldsR_packR]
  rfl

theorem brk (o : OpR) : Statement (.brk o) := fun _ => by
  show decode (packR 0x14#6 o 18#6) = _
  rw [decode_14 _ (packR_op ..)]
  unfold decode14
  rw [packR_fn, fieldsR_packR]
  rfl

theorem ecall (o : OpR) : Statement (.ecall o) := fun _ => by
  show decode (packR 0x14#6 o 19#6) = _
  rw [decode_14 _ (packR_op ..)]
  unfold decode14
  rw [packR_fn, fieldsR_packR]
  rfl

theorem eret (o : OpR) : Statement (.eret o) := fun _ => by
  show decode (packR 0x14#6 o 20#6) = _
  rw [decode_14 _ (packR_op ..)]
  unfold decode14
  rw [packR_fn, fieldsR_packR]
  rfl

theorem ldlB (o : OpI) : Statement (.ldlB o) := fun _ => by
  show decode (packI 0x15#6 o 0#3) = _
  rw [decode_15 _ (packI_op ..)]
  unfold decode15
  rw [packI_fn, fieldsI_packI]
  rfl

theorem ldlH (o : OpI) : Statement (.ldlH o) := fun _ => by
  show decode (packI 0x15#6 o 1#3) = _
  rw [decode_15 _ (packI_op ..)]
  unfold decode15
  rw [packI_fn, fieldsI_packI]
  rfl

theorem ldlW (o : OpI) : Statement (.ldlW o) := fun _ => by
  show decode (packI 0x15#6 o 2#3) = _
  rw [decode_15 _ (packI_op ..)]
  unfold decode15
  rw [packI_fn, fieldsI_packI]
  rfl

theorem ldlD (o : OpI) : Statement (.ldlD o) := fun _ => by
  show decode (packI 0x15#6 o 3#3) = _
  rw [decode_15 _ (packI_op ..)]
  unfold decode15
  rw [packI_fn, fieldsI_packI]
  rfl

theorem ldlBz (o : OpI) : Statement (.ldlBz o) := fun _ => by
  show decode (packI 0x15#6 o 4#3) = _
  rw [decode_15 _ (packI_op ..)]
  unfold decode15
  rw [packI_fn, fieldsI_packI]
  rfl

theorem ldlHz (o : OpI) : Statement (.ldlHz o) := fun _ => by
  show decode (packI 0x15#6 o 5#3) = _
  rw [decode_15 _ (packI_op ..)]
  unfold decode15
  rw [packI_fn, fieldsI_packI]
  rfl

theorem ldlWz (o : OpI) : Statement (.ldlWz o) := fun _ => by
  show decode (packI 0x15#6 o 6#3) = _
  rw [decode_15 _ (packI_op ..)]
  unfold decode15
  rw [packI_fn, fieldsI_packI]
  rfl

theorem ldlV (o : OpI) : Statement (.ldlV o) := fun _ => by
  show decode (packI 0x15#6 o 7#3) = _
  rw [decode_15 _ (packI_op ..)]
  unfold decode15
  rw [packI_fn, fieldsI_packI]
  rfl

theorem stlB (o : OpS) : Statement (.stlB o) := fun _ => by
  show decode (packS 0x16#6 o 0#3) = _
  rw [decode_16 _ (packS_op ..)]
  unfold decode16
  rw [packS_fn, fieldsS_packS]
  rfl

theorem stlH (o : OpS) : Statement (.stlH o) := fun _ => by
  show decode (packS 0x16#6 o 1#3) = _
  rw [decode_16 _ (packS_op ..)]
  unfold decode16
  rw [packS_fn, fieldsS_packS]
  rfl

theorem stlW (o : OpS) : Statement (.stlW o) := fun _ => by
  show decode (packS 0x16#6 o 2#3) = _
  rw [decode_16 _ (packS_op ..)]
  unfold decode16
  rw [packS_fn, fieldsS_packS]
  rfl

theorem stlD (o : OpS) : Statement (.stlD o) := fun _ => by
  show decode (packS 0x16#6 o 3#3) = _
  rw [decode_16 _ (packS_op ..)]
  unfold decode16
  rw [packS_fn, fieldsS_packS]
  rfl

theorem stlV (o : OpS) : Statement (.stlV o) := fun _ => by
  show decode (packS 0x16#6 o 4#3) = _
  rw [decode_16 _ (packS_op ..)]
  unfold decode16
  rw [packS_fn, fieldsS_packS]
  rfl

theorem ldcB (o : OpI) : Statement (.ldcB o) := fun _ => by
  show decode (packI 0x17#6 o 0#3) = _
  rw [decode_17 _ (packI_op ..)]
  unfold decode17
  rw [packI_fn, fieldsI_packI]
  rfl

theorem ldcH (o : OpI) : Statement (.ldcH o) := fun _ => by
  show decode (packI 0x17#6 o 1#3) = _
  rw [decode_17 _ (packI_op ..)]
  unfold decode17
  rw [packI_fn, fieldsI_packI]
  rfl

theorem ldcW (o : OpI) : Statement (.ldcW o) := fun _ => by
  show decode (packI 0x17#6 o 2#3) = _
  rw [decode_17 _ (packI_op ..)]
  unfold decode17
  rw [packI_fn, fieldsI_packI]
  rfl

theorem ldcD (o : OpI) : Statement (.ldcD o) := fun _ => by
  show decode (packI 0x17#6 o 3#3) = _
  rw [decode_17 _ (packI_op ..)]
  unfold decode17
  rw [packI_fn, fieldsI_packI]
  rfl

theorem ldcBz (o : OpI) : Statement (.ldcBz o) := fun _ => by
  show decode (packI 0x17#6 o 4#3) = _
  rw [decode_17 _ (packI_op ..)]
  unfold decode17
  rw [packI_fn, fieldsI_packI]
  rfl

theorem ldcHz (o : OpI) : Statement (.ldcHz o) := fun _ => by
  show decode (packI 0x17#6 o 5#3) = _
  rw [decode_17 _ (packI_op ..)]
  unfold decode17
  rw [packI_fn, fieldsI_packI]
  rfl

theorem ldcWz (o : OpI) : Statement (.ldcWz o) := fun _ => by
  show decode (packI 0x17#6 o 6#3) = _
  rw [decode_17 _ (packI_op ..)]
  unfold decode17
  rw [packI_fn, fieldsI_packI]
  rfl

theorem ldcV (o : OpI) : Statement (.ldcV o) := fun _ => by
  show decode (packI 0x17#6 o 7#3) = _
  rw [decode_17 _ (packI_op ..)]
  unfold decode17
  rw [packI_fn, fieldsI_packI]
  rfl

theorem stcB (o : OpS) : Statement (.stcB o) := fun _ => by
  show decode (packS 0x18#6 o 0#3) = _
  rw [decode_18 _ (packS_op ..)]
  unfold decode18
  rw [packS_fn, fieldsS_packS]
  rfl

theorem stcH (o : OpS) : Statement (.stcH o) := fun _ => by
  show decode (packS 0x18#6 o 1#3) = _
  rw [decode_18 _ (packS_op ..)]
  unfold decode18
  rw [packS_fn, fieldsS_packS]
  rfl

theorem stcW (o : OpS) : Statement (.stcW o) := fun _ => by
  show decode (packS 0x18#6 o 2#3) = _
  rw [decode_18 _ (packS_op ..)]
  unfold decode18
  rw [packS_fn, fieldsS_packS]
  rfl

theorem stcD (o : OpS) : Statement (.stcD o) := fun _ => by
  show decode (packS 0x18#6 o 3#3) = _
  rw [decode_18 _ (packS_op ..)]
  unfold decode18
  rw [packS_fn, fieldsS_packS]
  rfl

theorem stcV (o : OpS) : Statement (.stcV o) := fun _ => by
  show decode (packS 0x18#6 o 4#3) = _
  rw [decode_18 _ (packS_op ..)]
  unfold decode18
  rw [packS_fn, fieldsS_packS]
  rfl

theorem ldlFr (o : OpR) : Statement (.ldlFr o) := fun _ => by
  show decode (packR 0x19#6 o 0#6) = _
  rw [decode_19 _ (packR_op ..)]
  unfold decode19
  rw [packR_fn, fieldsR_packR]
  rfl

theorem ldlFe (o : OpR) : Statement (.ldlFe o) := fun _ => by
  show decode (packR 0x19#6 o 1#6) = _
  rw [decode_19 _ (packR_op ..)]
  unfold decode19
  rw [packR_fn, fieldsR_packR]
  rfl

theorem stlEf (o : OpR) : Statement (.stlEf o) := fun _ => by
  show decode (packR 0x19#6 o 2#6) = _
  rw [decode_19 _ (packR_op ..)]
  unfold decode19
  rw [packR_fn, fieldsR_packR]
  rfl

theorem stlXf (o : OpR) : Statement (.stlXf o) := fun _ => by
  show decode (packR 0x19#6 o 3#6) = _
  rw [decode_19 _ (packR_op ..)]
  unfold decode19
  rw [packR_fn, fieldsR_packR]
  rfl

theorem felClr (o : OpR) : Statement (.felClr o) := fun _ => by
  show decode (packR 0x19#6 o 4#6) = _
  rw [decode_19 _ (packR_op ..)]
  unfold decode19
  rw [packR_fn, fieldsR_packR]
  rfl

theorem felQ (o : OpR) : Statement (.felQ o) := fun _ => by
  show decode (packR 0x19#6 o 5#6) = _
  rw [decode_19 _ (packR_op ..)]
  unfold decode19
  rw [packR_fn, fieldsR_packR]
  rfl

theorem stlTf (o : OpR) : Statement (.stlTf o) := fun _ => by
  show decode (packR 0x19#6 o 6#6) = _
  rw [decode_19 _ (packR_op ..)]
  unfold decode19
  rw [packR_fn, fieldsR_packR]
  rfl

theorem amsg (o : OpR) : Statement (.amsg o) := fun _ => by
  show decode (packR 0x1A#6 o 0#6) = _
  rw [decode_1A _ (packR_op ..)]
  unfold decode1A
  rw [packR_fn, fieldsR_packR]
  rfl

theorem amsgN (o : OpR) : Statement (.amsgN o) := fun _ => by
  show decode (packR 0x1A#6 o 1#6) = _
  rw [decode_1A _ (packR_op ..)]
  unfold decode1A
  rw [packR_fn, fieldsR_packR]
  rfl

theorem amret (o : OpR) : Statement (.amret o) := fun _ => by
  show decode (packR 0x1A#6 o 2#6) = _
  rw [decode_1A _ (packR_op ..)]
  unfold decode1A
  rw [packR_fn, fieldsR_packR]
  rfl

theorem xput (o : OpX) : Statement (.xput o) := fun _ => by
  show decode (packX 0x1B#6 o 0#2) = _
  rw [decode_1B _ (packX_op ..)]
  unfold decode1B
  rw [packX_fn, fieldsX_packX]
  rfl

theorem xget (o : OpX) : Statement (.xget o) := fun _ => by
  show decode (packX 0x1B#6 o 1#2) = _
  rw [decode_1B _ (packX_op ..)]
  unfold decode1B
  rw [packX_fn, fieldsX_packX]
  rfl

theorem xgath (o : OpX) : Statement (.xgath o) := fun _ => by
  show decode (packX 0x1B#6 o 2#2) = _
  rw [decode_1B _ (packX_op ..)]
  unfold decode1B
  rw [packX_fn, fieldsX_packX]
  rfl

theorem xscat (o : OpX) : Statement (.xscat o) := fun _ => by
  show decode (packX 0x1B#6 o 3#2) = _
  rw [decode_1B _ (packX_op ..)]
  unfold decode1B
  rw [packX_fn, fieldsX_packX]
  rfl

theorem tagWany (o : OpR) : Statement (.tagWany o) := fun _ => by
  show decode (packR 0x1C#6 o 0#6) = _
  rw [decode_1C _ (packR_op ..)]
  unfold decode1C
  rw [packR_fn, fieldsR_packR]
  rfl

theorem tagWall (o : OpR) : Statement (.tagWall o) := fun _ => by
  show decode (packR 0x1C#6 o 1#6) = _
  rw [decode_1C _ (packR_op ..)]
  unfold decode1C
  rw [packR_fn, fieldsR_packR]
  rfl

theorem tagFfr (o : OpR) : Statement (.tagFfr o) := fun _ => by
  show decode (packR 0x1C#6 o 2#6) = _
  rw [decode_1C _ (packR_op ..)]
  unfold decode1C
  rw [packR_fn, fieldsR_packR]
  rfl

theorem barInit (o : OpR) : Statement (.barInit o) := fun _ => by
  show decode (packR 0x1C#6 o 8#6) = _
  rw [decode_1C _ (packR_op ..)]
  unfold decode1C
  rw [packR_fn, fieldsR_packR]
  rfl

theorem barExp (o : OpR) : Statement (.barExp o) := fun _ => by
  show decode (packR 0x1C#6 o 9#6) = _
  rw [decode_1C _ (packR_op ..)]
  unfold decode1C
  rw [packR_fn, fieldsR_packR]
  rfl

theorem barArr (o : OpR) : Statement (.barArr o) := fun _ => by
  show decode (packR 0x1C#6 o 10#6) = _
  rw [decode_1C _ (packR_op ..)]
  unfold decode1C
  rw [packR_fn, fieldsR_packR]
  rfl

theorem barWait (o : OpR) : Statement (.barWait o) := fun _ => by
  show decode (packR 0x1C#6 o 11#6) = _
  rw [decode_1C _ (packR_op ..)]
  unfold decode1C
  rw [packR_fn, fieldsR_packR]
  rfl

theorem barQ (o : OpR) : Statement (.barQ o) := fun _ => by
  show decode (packR 0x1C#6 o 12#6) = _
  rw [decode_1C _ (packR_op ..)]
  unfold decode1C
  rw [packR_fn, fieldsR_packR]
  rfl

theorem barSync (o : OpR) : Statement (.barSync o) := fun _ => by
  show decode (packR 0x1C#6 o 13#6) = _
  rw [decode_1C _ (packR_op ..)]
  unfold decode1C
  rw [packR_fn, fieldsR_packR]
  rfl

theorem ldgB (o : OpI) : Statement (.ldgB o) := fun _ => by
  show decode (packI 0x1D#6 o 0#3) = _
  rw [decode_1D _ (packI_op ..)]
  unfold decode1D
  rw [packI_fn, fieldsI_packI]
  rfl

theorem ldgH (o : OpI) : Statement (.ldgH o) := fun _ => by
  show decode (packI 0x1D#6 o 1#3) = _
  rw [decode_1D _ (packI_op ..)]
  unfold decode1D
  rw [packI_fn, fieldsI_packI]
  rfl

theorem ldgW (o : OpI) : Statement (.ldgW o) := fun _ => by
  show decode (packI 0x1D#6 o 2#3) = _
  rw [decode_1D _ (packI_op ..)]
  unfold decode1D
  rw [packI_fn, fieldsI_packI]
  rfl

theorem ldgD (o : OpI) : Statement (.ldgD o) := fun _ => by
  show decode (packI 0x1D#6 o 3#3) = _
  rw [decode_1D _ (packI_op ..)]
  unfold decode1D
  rw [packI_fn, fieldsI_packI]
  rfl

theorem ldgBz (o : OpI) : Statement (.ldgBz o) := fun _ => by
  show decode (packI 0x1D#6 o 4#3) = _
  rw [decode_1D _ (packI_op ..)]
  unfold decode1D
  rw [packI_fn, fieldsI_packI]
  rfl

theorem ldgHz (o : OpI) : Statement (.ldgHz o) := fun _ => by
  show decode (packI 0x1D#6 o 5#3) = _
  rw [decode_1D _ (packI_op ..)]
  unfold decode1D
  rw [packI_fn, fieldsI_packI]
  rfl

theorem ldgWz (o : OpI) : Statement (.ldgWz o) := fun _ => by
  show decode (packI 0x1D#6 o 6#3) = _
  rw [decode_1D _ (packI_op ..)]
  unfold decode1D
  rw [packI_fn, fieldsI_packI]
  rfl

theorem ldgV (o : OpI) : Statement (.ldgV o) := fun _ => by
  show decode (packI 0x1D#6 o 7#3) = _
  rw [decode_1D _ (packI_op ..)]
  unfold decode1D
  rw [packI_fn, fieldsI_packI]
  rfl

theorem stgB (o : OpS) : Statement (.stgB o) := fun _ => by
  show decode (packS 0x1E#6 o 0#3) = _
  rw [decode_1E _ (packS_op ..)]
  unfold decode1E
  rw [packS_fn, fieldsS_packS]
  rfl

theorem stgH (o : OpS) : Statement (.stgH o) := fun _ => by
  show decode (packS 0x1E#6 o 1#3) = _
  rw [decode_1E _ (packS_op ..)]
  unfold decode1E
  rw [packS_fn, fieldsS_packS]
  rfl

theorem stgW (o : OpS) : Statement (.stgW o) := fun _ => by
  show decode (packS 0x1E#6 o 2#3) = _
  rw [decode_1E _ (packS_op ..)]
  unfold decode1E
  rw [packS_fn, fieldsS_packS]
  rfl

theorem stgD (o : OpS) : Statement (.stgD o) := fun _ => by
  show decode (packS 0x1E#6 o 3#3) = _
  rw [decode_1E _ (packS_op ..)]
  unfold decode1E
  rw [packS_fn, fieldsS_packS]
  rfl

theorem stgV (o : OpS) : Statement (.stgV o) := fun _ => by
  show decode (packS 0x1E#6 o 4#3) = _
  rw [decode_1E _ (packS_op ..)]
  unfold decode1E
  rw [packS_fn, fieldsS_packS]
  rfl

theorem ldgAcq (o : OpR) : Statement (.ldgAcq o) := fun _ => by
  show decode (packR 0x1F#6 o 1#6) = _
  rw [decode_1F _ (packR_op ..)]
  unfold decode1F
  rw [packR_fn, fieldsR_packR]
  rfl

theorem ldgSc (o : OpR) : Statement (.ldgSc o) := fun _ => by
  show decode (packR 0x1F#6 o 3#6) = _
  rw [decode_1F _ (packR_op ..)]
  unfold decode1F
  rw [packR_fn, fieldsR_packR]
  rfl

theorem stgRel (o : OpR) : Statement (.stgRel o) := fun _ => by
  show decode (packR 0x1F#6 o 6#6) = _
  rw [decode_1F _ (packR_op ..)]
  unfold decode1F
  rw [packR_fn, fieldsR_packR]
  rfl

theorem stgSc (o : OpR) : Statement (.stgSc o) := fun _ => by
  show decode (packR 0x1F#6 o 7#6) = _
  rw [decode_1F _ (packR_op ..)]
  unfold decode1F
  rw [packR_fn, fieldsR_packR]
  rfl

theorem amoSwap (o : OpA) : Statement (.amoSwap o) := fun _ => by
  show decode (packA 0x1F#6 o 2#4) = _
  rw [decode_1F _ (packA_op ..)]
  unfold decode1F
  rw [packA_low, packA_fn, fieldsA_packA]
  rcases two_bits o.ord with h | h | h | h <;> rw [h] <;> rfl

theorem amoCas (o : OpA) : Statement (.amoCas o) := fun _ => by
  show decode (packA 0x1F#6 o 3#4) = _
  rw [decode_1F _ (packA_op ..)]
  unfold decode1F
  rw [packA_low, packA_fn, fieldsA_packA]
  rcases two_bits o.ord with h | h | h | h <;> rw [h] <;> rfl

theorem amoAdd (o : OpA) : Statement (.amoAdd o) := fun _ => by
  show decode (packA 0x1F#6 o 4#4) = _
  rw [decode_1F _ (packA_op ..)]
  unfold decode1F
  rw [packA_low, packA_fn, fieldsA_packA]
  rcases two_bits o.ord with h | h | h | h <;> rw [h] <;> rfl

theorem amoAnd (o : OpA) : Statement (.amoAnd o) := fun _ => by
  show decode (packA 0x1F#6 o 5#4) = _
  rw [decode_1F _ (packA_op ..)]
  unfold decode1F
  rw [packA_low, packA_fn, fieldsA_packA]
  rcases two_bits o.ord with h | h | h | h <;> rw [h] <;> rfl

theorem amoOr (o : OpA) : Statement (.amoOr o) := fun _ => by
  show decode (packA 0x1F#6 o 6#4) = _
  rw [decode_1F _ (packA_op ..)]
  unfold decode1F
  rw [packA_low, packA_fn, fieldsA_packA]
  rcases two_bits o.ord with h | h | h | h <;> rw [h] <;> rfl

theorem amoXor (o : OpA) : Statement (.amoXor o) := fun _ => by
  show decode (packA 0x1F#6 o 7#4) = _
  rw [decode_1F _ (packA_op ..)]
  unfold decode1F
  rw [packA_low, packA_fn, fieldsA_packA]
  rcases two_bits o.ord with h | h | h | h <;> rw [h] <;> rfl

theorem amoMin (o : OpA) : Statement (.amoMin o) := fun _ => by
  show decode (packA 0x1F#6 o 8#4) = _
  rw [decode_1F _ (packA_op ..)]
  unfold decode1F
  rw [packA_low, packA_fn, fieldsA_packA]
  rcases two_bits o.ord with h | h | h | h <;> rw [h] <;> rfl

theorem amoMax (o : OpA) : Statement (.amoMax o) := fun _ => by
  show decode (packA 0x1F#6 o 9#4) = _
  rw [decode_1F _ (packA_op ..)]
  unfold decode1F
  rw [packA_low, packA_fn, fieldsA_packA]
  rcases two_bits o.ord with h | h | h | h <;> rw [h] <;> rfl

theorem amoMinz (o : OpA) : Statement (.amoMinz o) := fun _ => by
  show decode (packA 0x1F#6 o 10#4) = _
  rw [decode_1F _ (packA_op ..)]
  unfold decode1F
  rw [packA_low, packA_fn, fieldsA_packA]
  rcases two_bits o.ord with h | h | h | h <;> rw [h] <;> rfl

theorem amoMaxz (o : OpA) : Statement (.amoMaxz o) := fun _ => by
  show decode (packA 0x1F#6 o 11#4) = _
  rw [decode_1F _ (packA_op ..)]
  unfold decode1F
  rw [packA_low, packA_fn, fieldsA_packA]
  rcases two_bits o.ord with h | h | h | h <;> rw [h] <;> rfl

theorem fenceAcq (o : OpR) : Statement (.fenceAcq o) := fun _ => by
  show decode (packR 0x20#6 o 0#6) = _
  rw [decode_20 _ (packR_op ..)]
  unfold decode20
  rw [packR_fn, fieldsR_packR]
  rfl

theorem fenceRel (o : OpR) : Statement (.fenceRel o) := fun _ => by
  show decode (packR 0x20#6 o 1#6) = _
  rw [decode_20 _ (packR_op ..)]
  unfold decode20
  rw [packR_fn, fieldsR_packR]
  rfl

theorem fenceAr (o : OpR) : Statement (.fenceAr o) := fun _ => by
  show decode (packR 0x20#6 o 2#6) = _
  rw [decode_20 _ (packR_op ..)]
  unfold decode20
  rw [packR_fn, fieldsR_packR]
  rfl

theorem fenceSc (o : OpR) : Statement (.fenceSc o) := fun _ => by
  show decode (packR 0x20#6 o 3#6) = _
  rw [decode_20 _ (packR_op ..)]
  unfold decode20
  rw [packR_fn, fieldsR_packR]
  rfl

theorem fenceRcpt (o : OpR) : Statement (.fenceRcpt o) := fun _ => by
  show decode (packR 0x20#6 o 4#6) = _
  rw [decode_20 _ (packR_op ..)]
  unfold decode20
  rw [packR_fn, fieldsR_packR]
  rfl

theorem rcptQ (o : OpR) : Statement (.rcptQ o) := fun _ => by
  show decode (packR 0x20#6 o 5#6) = _
  rw [decode_20 _ (packR_op ..)]
  unfold decode20
  rw [packR_fn, fieldsR_packR]
  rfl

theorem fenceTlb (o : OpR) : Statement (.fenceTlb o) := fun _ => by
  show decode (packR 0x20#6 o 48#6) = _
  rw [decode_20 _ (packR_op ..)]
  unfold decode20
  rw [packR_fn, fieldsR_packR]
  rfl

theorem spawn (o : OpQ) : Statement (.spawn o) := fun _ => by
  show decode (packQ 0x21#6 o 0#5) = _
  rw [decode_21 _ (packQ_op ..)]
  unfold decode21
  rw [packQ_fn, fieldsQ_packQ]
  rfl

theorem touch (o : OpQ) : Statement (.touch o) := fun _ => by
  show decode (packQ 0x21#6 o 1#5) = _
  rw [decode_21 _ (packQ_op ..)]
  unfold decode21
  rw [packQ_fn, fieldsQ_packQ]
  rfl

theorem touchP (o : OpQ) : Statement (.touchP o) := fun _ => by
  show decode (packQ 0x21#6 o 2#5) = _
  rw [decode_21 _ (packQ_op ..)]
  unfold decode21
  rw [packQ_fn, fieldsQ_packQ]
  rfl

theorem fres (o : OpQ) : Statement (.fres o) := fun _ => by
  show decode (packQ 0x21#6 o 3#5) = _
  rw [decode_21 _ (packQ_op ..)]
  unfold decode21
  rw [packQ_fn, fieldsQ_packQ]
  rfl

theorem fresFirst (o : OpQ) : Statement (.fresFirst o) := fun _ => by
  show decode (packQ 0x21#6 o 4#5) = _
  rw [decode_21 _ (packQ_op ..)]
  unfold decode21
  rw [packQ_fn, fieldsQ_packQ]
  rfl

theorem fpois (o : OpQ) : Statement (.fpois o) := fun _ => by
  show decode (packQ 0x21#6 o 5#5) = _
  rw [decode_21 _ (packQ_op ..)]
  unfold decode21
  rw [packQ_fn, fieldsQ_packQ]
  rfl

theorem fcan (o : OpQ) : Statement (.fcan o) := fun _ => by
  show decode (packQ 0x21#6 o 6#5) = _
  rw [decode_21 _ (packQ_op ..)]
  unfold decode21
  rw [packQ_fn, fieldsQ_packQ]
  rfl

theorem fcanq (o : OpQ) : Statement (.fcanq o) := fun _ => by
  show decode (packQ 0x21#6 o 7#5) = _
  rw [decode_21 _ (packQ_op ..)]
  unfold decode21
  rw [packQ_fn, fieldsQ_packQ]
  rfl

theorem fq (o : OpQ) : Statement (.fq o) := fun _ => by
  show decode (packQ 0x21#6 o 8#5) = _
  rw [decode_21 _ (packQ_op ..)]
  unfold decode21
  rw [packQ_fn, fieldsQ_packQ]
  rfl

theorem frel (o : OpQ) : Statement (.frel o) := fun _ => by
  show decode (packQ 0x21#6 o 9#5) = _
  rw [decode_21 _ (packQ_op ..)]
  unfold decode21
  rw [packQ_fn, fieldsQ_packQ]
  rfl

theorem fnew (o : OpQ) : Statement (.fnew o) := fun _ => by
  show decode (packQ 0x21#6 o 10#5) = _
  rw [decode_21 _ (packQ_op ..)]
  unfold decode21
  rw [packQ_fn, fieldsQ_packQ]
  rfl

theorem ftaskQ (o : OpQ) : Statement (.ftaskQ o) := fun _ => by
  show decode (packQ 0x21#6 o 11#5) = _
  rw [decode_21 _ (packQ_op ..)]
  unfold decode21
  rw [packQ_fn, fieldsQ_packQ]
  rfl

theorem qpush (o : OpQ) : Statement (.qpush o) := fun _ => by
  show decode (packQ 0x22#6 o 0#5) = _
  rw [decode_22 _ (packQ_op ..)]
  unfold decode22
  rw [packQ_fn, fieldsQ_packQ]
  rfl

theorem qpop (o : OpQ) : Statement (.qpop o) := fun _ => by
  show decode (packQ 0x22#6 o 1#5) = _
  rw [decode_22 _ (packQ_op ..)]
  unfold decode22
  rw [packQ_fn, fieldsQ_packQ]
  rfl

theorem qtail (o : OpQ) : Statement (.qtail o) := fun _ => by
  show decode (packQ 0x22#6 o 2#5) = _
  rw [decode_22 _ (packQ_op ..)]
  unfold decode22
  rw [packQ_fn, fieldsQ_packQ]
  rfl

theorem chsend (o : OpQ) : Statement (.chsend o) := fun _ => by
  show decode (packQ 0x22#6 o 3#5) = _
  rw [decode_22 _ (packQ_op ..)]
  unfold decode22
  rw [packQ_fn, fieldsQ_packQ]
  rfl

theorem chrecv (o : OpQ) : Statement (.chrecv o) := fun _ => by
  show decode (packQ 0x22#6 o 4#5) = _
  rw [decode_22 _ (packQ_op ..)]
  unfold decode22
  rw [packQ_fn, fieldsQ_packQ]
  rfl

theorem chclose (o : OpQ) : Statement (.chclose o) := fun _ => by
  show decode (packQ 0x22#6 o 5#5) = _
  rw [decode_22 _ (packQ_op ..)]
  unfold decode22
  rw [packQ_fn, fieldsQ_packQ]
  rfl

theorem chq (o : OpQ) : Statement (.chq o) := fun _ => by
  show decode (packQ 0x22#6 o 6#5) = _
  rw [decode_22 _ (packQ_op ..)]
  unfold decode22
  rw [packQ_fn, fieldsQ_packQ]
  rfl

theorem mma (o : OpM) : Statement (.mma o) := fun _ => by
  show decode (packM 0x23#6 o 0#4) = _
  rw [decode_23 _ (packM_op ..)]
  unfold decode23
  rw [packM_fn, fieldsM_packM]
  rfl

theorem mmac (o : OpM) : Statement (.mmac o) := fun _ => by
  show decode (packM 0x23#6 o 1#4) = _
  rw [decode_23 _ (packM_op ..)]
  unfold decode23
  rw [packM_fn, fieldsM_packM]
  rfl

theorem mdrain (o : OpM) : Statement (.mdrain o) := fun _ => by
  show decode (packM 0x23#6 o 2#4) = _
  rw [decode_23 _ (packM_op ..)]
  unfold decode23
  rw [packM_fn, fieldsM_packM]
  rfl

theorem tld (o : OpM) : Statement (.tld o) := fun _ => by
  show decode (packM 0x24#6 o 0#4) = _
  rw [decode_24 _ (packM_op ..)]
  unfold decode24
  rw [packM_fn, fieldsM_packM]
  rfl

theorem tst (o : OpM) : Statement (.tst o) := fun _ => by
  show decode (packM 0x24#6 o 1#4) = _
  rw [decode_24 _ (packM_op ..)]
  unfold decode24
  rw [packM_fn, fieldsM_packM]
  rfl

theorem tzero (o : OpM) : Statement (.tzero o) := fun _ => by
  show decode (packM 0x24#6 o 2#4) = _
  rw [decode_24 _ (packM_op ..)]
  unfold decode24
  rw [packM_fn, fieldsM_packM]
  rfl

theorem azero (o : OpM) : Statement (.azero o) := fun _ => by
  show decode (packM 0x24#6 o 3#4) = _
  rw [decode_24 _ (packM_op ..)]
  unfold decode24
  rw [packM_fn, fieldsM_packM]
  rfl

theorem ebind (o : OpM) : Statement (.ebind o) := fun _ => by
  show decode (packM 0x24#6 o 4#4) = _
  rw [decode_24 _ (packM_op ..)]
  unfold decode24
  rw [packM_fn, fieldsM_packM]
  rfl

theorem efree (o : OpM) : Statement (.efree o) := fun _ => by
  show decode (packM 0x24#6 o 5#4) = _
  rw [decode_24 _ (packM_op ..)]
  unfold decode24
  rw [packM_fn, fieldsM_packM]
  rfl

theorem tlwait (o : OpM) : Statement (.tlwait o) := fun _ => by
  show decode (packM 0x24#6 o 6#4) = _
  rw [decode_24 _ (packM_op ..)]
  unfold decode24
  rw [packM_fn, fieldsM_packM]
  rfl

theorem tlread (o : OpM) : Statement (.tlread o) := fun _ => by
  show decode (packM 0x24#6 o 7#4) = _
  rw [decode_24 _ (packM_op ..)]
  unfold decode24
  rw [packM_fn, fieldsM_packM]
  rfl

theorem dpmLoad (o : OpR) : Statement (.dpmLoad o) := fun _ => by
  show decode (packR 0x25#6 o 0#6) = _
  rw [decode_25 _ (packR_op ..)]
  unfold decode25
  rw [packR_fn, fieldsR_packR]
  rfl

theorem dpmFree (o : OpR) : Statement (.dpmFree o) := fun _ => by
  show decode (packR 0x25#6 o 1#6) = _
  rw [decode_25 _ (packR_op ..)]
  unfold decode25
  rw [packR_fn, fieldsR_packR]
  rfl

theorem mrowZero (o : OpR) : Statement (.mrowZero o) := fun _ => by
  show decode (packR 0x26#6 o 0#6) = _
  rw [decode_26 _ (packR_op ..)]
  unfold decode26
  rw [packR_fn, fieldsR_packR]
  rfl

theorem mrowCopy (o : OpR) : Statement (.mrowCopy o) := fun _ => by
  show decode (packR 0x26#6 o 1#6) = _
  rw [decode_26 _ (packR_op ..)]
  unfold decode26
  rw [packR_fn, fieldsR_packR]
  rfl

theorem mrowWait (o : OpR) : Statement (.mrowWait o) := fun _ => by
  show decode (packR 0x26#6 o 2#6) = _
  rw [decode_26 _ (packR_op ..)]
  unfold decode26
  rw [packR_fn, fieldsR_packR]
  rfl

theorem mrowTl (o : OpR) : Statement (.mrowTl o) := fun _ => by
  show decode (packR 0x26#6 o 3#6) = _
  rw [decode_26 _ (packR_op ..)]
  unfold decode26
  rw [packR_fn, fieldsR_packR]
  rfl

theorem mrowIss (o : OpR) : Statement (.mrowIss o) := fun _ => by
  show decode (packR 0x26#6 o 4#6) = _
  rw [decode_26 _ (packR_op ..)]
  unfold decode26
  rw [packR_fn, fieldsR_packR]
  rfl

theorem aqPost (o : OpR) : Statement (.aqPost o) := fun _ => by
  show decode (packR 0x27#6 o 0#6) = _
  rw [decode_27 _ (packR_op ..)]
  unfold decode27
  rw [packR_fn, fieldsR_packR]
  rfl

theorem aqMerge (o : OpR) : Statement (.aqMerge o) := fun _ => by
  show decode (packR 0x27#6 o 1#6) = _
  rw [decode_27 _ (packR_op ..)]
  unfold decode27
  rw [packR_fn, fieldsR_packR]
  rfl

theorem aqNorm (o : OpR) : Statement (.aqNorm o) := fun _ => by
  show decode (packR 0x27#6 o 2#6) = _
  rw [decode_27 _ (packR_op ..)]
  unfold decode27
  rw [packR_fn, fieldsR_packR]
  rfl

theorem aqNormB (o : OpR) : Statement (.aqNormB o) := fun _ => by
  show decode (packR 0x27#6 o 3#6) = _
  rw [decode_27 _ (packR_op ..)]
  unfold decode27
  rw [packR_fn, fieldsR_packR]
  rfl

theorem aqWait (o : OpR) : Statement (.aqWait o) := fun _ => by
  show decode (packR 0x27#6 o 4#6) = _
  rw [decode_27 _ (packR_op ..)]
  unfold decode27
  rw [packR_fn, fieldsR_packR]
  rfl

theorem aqTl (o : OpR) : Statement (.aqTl o) := fun _ => by
  show decode (packR 0x27#6 o 5#6) = _
  rw [decode_27 _ (packR_op ..)]
  unfold decode27
  rw [packR_fn, fieldsR_packR]
  rfl

theorem aqIss (o : OpR) : Statement (.aqIss o) := fun _ => by
  show decode (packR 0x27#6 o 6#6) = _
  rw [decode_27 _ (packR_op ..)]
  unfold decode27
  rw [packR_fn, fieldsR_packR]
  rfl

theorem encPost (o : OpR) : Statement (.encPost o) := fun _ => by
  show decode (packR 0x28#6 o 0#6) = _
  rw [decode_28 _ (packR_op ..)]
  unfold decode28
  rw [packR_fn, fieldsR_packR]
  rfl

theorem encWait (o : OpR) : Statement (.encWait o) := fun _ => by
  show decode (packR 0x28#6 o 1#6) = _
  rw [decode_28 _ (packR_op ..)]
  unfold decode28
  rw [packR_fn, fieldsR_packR]
  rfl

theorem encTl (o : OpR) : Statement (.encTl o) := fun _ => by
  show decode (packR 0x28#6 o 2#6) = _
  rw [decode_28 _ (packR_op ..)]
  unfold decode28
  rw [packR_fn, fieldsR_packR]
  rfl

theorem fabPut (o : OpR) : Statement (.fabPut o) := fun _ => by
  show decode (packR 0x28#6 o 3#6) = _
  rw [decode_28 _ (packR_op ..)]
  unfold decode28
  rw [packR_fn, fieldsR_packR]
  rfl

theorem ownGrant (o : OpR) : Statement (.ownGrant o) := fun _ => by
  show decode (packR 0x29#6 o 0#6) = _
  rw [decode_29 _ (packR_op ..)]
  unfold decode29
  rw [packR_fn, fieldsR_packR]
  rfl

theorem ownRevoke (o : OpR) : Statement (.ownRevoke o) := fun _ => by
  show decode (packR 0x29#6 o 1#6) = _
  rw [decode_29 _ (packR_op ..)]
  unfold decode29
  rw [packR_fn, fieldsR_packR]
  rfl

theorem pinv (o : OpR) : Statement (.pinv o) := fun _ => by
  show decode (packR 0x29#6 o 2#6) = _
  rw [decode_29 _ (packR_op ..)]
  unfold decode29
  rw [packR_fn, fieldsR_packR]
  rfl

theorem pzero (o : OpR) : Statement (.pzero o) := fun _ => by
  show decode (packR 0x29#6 o 3#6) = _
  rw [decode_29 _ (packR_op ..)]
  unfold decode29
  rw [packR_fn, fieldsR_packR]
  rfl

theorem fmt (o : OpF) : Statement (.fmt o) := fun _ => by
  show decode (packF 0x2A#6 o) = _
  unfold decode
  rw [packF_op, fieldsF_packF]
  rfl

theorem attestSignatureDone : Statement (.attestSignatureDone) := by
  intro h
  cases h

theorem amsgArrive (core entry : Nat) : Statement (.amsgArrive core entry) := by
  intro h
  cases h

theorem amsgHandlerStart (core : Nat) : Statement (.amsgHandlerStart core) := by
  intro h
  cases h

theorem handlerIssueLimit (tid : Nat) : Statement (.handlerIssueLimit tid) := by
  intro h
  cases h

theorem transferPiecePerformed (core id piece : Nat) : Statement (.transferPiecePerformed core id piece) := by
  intro h
  cases h

theorem transferComplete (core id : Nat) : Statement (.transferComplete core id) := by
  intro h
  cases h

theorem arrayScrub (tile : Bool) (place addr : Nat) : Statement (.arrayScrub tile place addr) := by
  intro h
  cases h

theorem storePerformed (id : Nat) : Statement (.storePerformed id) := by
  intro h
  cases h

theorem memoryReply (tid : Nat) : Statement (.memoryReply tid) := by
  intro h
  cases h

theorem l1CopyExpire (core line : Nat) : Statement (.l1CopyExpire core line) := by
  intro h
  cases h

theorem clearing (window : Nat) : Statement (.clearing window) := by
  intro h
  cases h

theorem regionRetire (tid : Nat) (seq : BitVec 2) : Statement (.regionRetire tid seq) := by
  intro h
  cases h

theorem tlbWalkDone (place : TlbPlace) (ctx va : Nat) : Statement (.tlbWalkDone place ctx va) := by
  intro h
  cases h

theorem faultComplete (ctx page : Nat) (outcome : FaultOutcome) : Statement (.faultComplete ctx page outcome) := by
  intro h
  cases h

theorem noteOpArrive (index : Nat) : Statement (.noteOpArrive index) := by
  intro h
  cases h

theorem subscriptionFetchDone (cluster record sub : Nat) : Statement (.subscriptionFetchDone cluster record sub) := by
  intro h
  cases h

theorem recordDispatch (cluster record core phase : Nat) : Statement (.recordDispatch cluster record core phase) := by
  intro h
  cases h

theorem tailWrite (index : Nat) : Statement (.tailWrite index) := by
  intro h
  cases h

theorem queueSlotPoll (ctx queue : Nat) : Statement (.queueSlotPoll ctx queue) := by
  intro h
  cases h

theorem spawnQueueConsume (ctx queue : Nat) : Statement (.spawnQueueConsume ctx queue) := by
  intro h
  cases h

theorem queueMap (ctx queue cluster slot : Nat) : Statement (.queueMap ctx queue cluster slot) := by
  intro h
  cases h

theorem queueUnmap (ctx queue : Nat) : Statement (.queueUnmap ctx queue) := by
  intro h
  cases h

theorem holdExpire (tid : Nat) : Statement (.holdExpire tid) := by
  intro h
  cases h

theorem pipelinePlace (pipe : Nat) : Statement (.pipelinePlace pipe) := by
  intro h
  cases h

theorem stageRelease (pipe stage : Nat) : Statement (.stageRelease pipe stage) := by
  intro h
  cases h

theorem loaderTileStart (pipe chan : Nat) : Statement (.loaderTileStart pipe chan) := by
  intro h
  cases h

theorem loaderTileDone (pipe chan : Nat) : Statement (.loaderTileDone pipe chan) := by
  intro h
  cases h

theorem storerRecord (pipe chan : Nat) : Statement (.storerRecord pipe chan) := by
  intro h
  cases h

theorem storerRecordDone (pipe chan : Nat) : Statement (.storerRecordDone pipe chan) := by
  intro h
  cases h

theorem tellerLendPhase (core phase tid : Nat) : Statement (.tellerLendPhase core phase tid) := by
  intro h
  cases h

theorem taskEvict (tid groups : Nat) : Statement (.taskEvict tid groups) := by
  intro h
  cases h

theorem contextSaveDone (tid : Nat) : Statement (.contextSaveDone tid) := by
  intro h
  cases h

theorem taskRestore (tid core phase : Nat) : Statement (.taskRestore tid core phase) := by
  intro h
  cases h

theorem taskRestoreDone (tid : Nat) : Statement (.taskRestoreDone tid) := by
  intro h
  cases h

theorem budgetOverrun (tid : Nat) : Statement (.budgetOverrun tid) := by
  intro h
  cases h

theorem waitLimitExpiry (tid : Nat) : Statement (.waitLimitExpiry tid) := by
  intro h
  cases h

theorem allAsleep (ctx : Nat) : Statement (.allAsleep ctx) := by
  intro h
  cases h

theorem affinityMigration (tid groups : Nat) : Statement (.affinityMigration tid groups) := by
  intro h
  cases h

theorem priorityAge (who : Nat) : Statement (.priorityAge who) := by
  intro h
  cases h

theorem preemptionRequest (who : Nat) : Statement (.preemptionRequest who) := by
  intro h
  cases h

theorem contractRelease (cluster idx : Nat) : Statement (.contractRelease cluster idx) := by
  intro h
  cases h

theorem contractDeadline (cluster idx : Nat) : Statement (.contractDeadline cluster idx) := by
  intro h
  cases h

theorem contractBudgetExhausted (tid : Nat) : Statement (.contractBudgetExhausted tid) := by
  intro h
  cases h

theorem powerControlStep (watts : Nat) : Statement (.powerControlStep watts) := by
  intro h
  cases h

theorem arrayPartDone (cluster idx : Nat) : Statement (.arrayPartDone cluster idx) := by
  intro h
  cases h

theorem drainStart (cluster idx acc : Nat) : Statement (.drainStart cluster idx acc) := by
  intro h
  cases h

theorem drainRowDone (cluster idx acc : Nat) : Statement (.drainRowDone cluster idx acc) := by
  intro h
  cases h

theorem drainComplete (cluster idx acc : Nat) : Statement (.drainComplete cluster idx acc) := by
  intro h
  cases h

theorem rowChunkDone (core id chunk : Nat) : Statement (.rowChunkDone core id chunk) := by
  intro h
  cases h

theorem bankRefresh (stack bank : Nat) : Statement (.bankRefresh stack bank) := by
  intro h
  cases h

theorem selfRefreshEntry (stack temp : Nat) : Statement (.selfRefreshEntry stack temp) := by
  intro h
  cases h

theorem selfRefreshExit (stack temp : Nat) : Statement (.selfRefreshExit stack temp) := by
  intro h
  cases h

theorem stackStall (stack : Nat) : Statement (.stackStall stack) := by
  intro h
  cases h

theorem patrolScrub (line : Nat) : Statement (.patrolScrub line) := by
  intro h
  cases h

theorem ceThresh (stack die count : Nat) : Statement (.ceThresh stack die count) := by
  intro h
  cases h

theorem pageMigrate (ctx va newPa : Nat) : Statement (.pageMigrate ctx va newPa) := by
  intro h
  cases h

theorem dieMapOut (stack die : Nat) : Statement (.dieMapOut stack die) := by
  intro h
  cases h

theorem queryHandover (query : Nat) : Statement (.queryHandover query) := by
  intro h
  cases h

theorem scanStep (query page : Nat) : Statement (.scanStep query page) := by
  intro h
  cases h

theorem queryComplete (query : Nat) : Statement (.queryComplete query) := by
  intro h
  cases h

theorem frameComplete (stream bytes : Nat) : Statement (.frameComplete stream bytes) := by
  intro h
  cases h

theorem bar2Read (func off size : Nat) : Statement (.bar2Read func off size) := by
  intro h
  cases h

theorem bar2Write (func off size val : Nat) : Statement (.bar2Write func off size val) := by
  intro h
  cases h

theorem bar2Fetchadd (func off val : Nat) : Statement (.bar2Fetchadd func off val) := by
  intro h
  cases h

theorem doorbellWrite (func idx size val : Nat) : Statement (.doorbellWrite func idx size val) := by
  intro h
  cases h

theorem rcfgWrite (func val : Nat) : Statement (.rcfgWrite func val) := by
  intro h
  cases h

theorem eventRingReadWrite (func val : Nat) : Statement (.eventRingReadWrite func val) := by
  intro h
  cases h

theorem hostRegisterWrite (func off val : Nat) : Statement (.hostRegisterWrite func off val) := by
  intro h
  cases h

theorem info (seq : Nat) : Statement (.info seq) := by
  intro h
  cases h

theorem attest (seq : Nat) (nonce : List Byte) : Statement (.attest seq nonce) := by
  intro h
  cases h

theorem zero (seq : Nat) : Statement (.zero seq) := by
  intro h
  cases h

theorem imageStage (seq off : Nat) (bytes : List Byte) : Statement (.imageStage seq off bytes) := by
  intro h
  cases h

theorem imageActivate (seq timeout : Nat) : Statement (.imageActivate seq timeout) := by
  intro h
  cases h

theorem quiesceAck (seq func : Nat) : Statement (.quiesceAck seq func) := by
  intro h
  cases h

theorem quiesceTimeout : Statement (.quiesceTimeout) := by
  intro h
  cases h

theorem launch (seq func : Nat) (job : JobDesc) : Statement (.launch seq func job) := by
  intro h
  cases h

theorem end_ (seq : Nat) (job : JobRef) : Statement (.end_ seq job) := by
  intro h
  cases h

theorem contract (seq : Nat) (job : JobRef) (va : Nat) : Statement (.contract seq job va) := by
  intro h
  cases h

theorem aperture (seq func ctx base : Nat) : Statement (.aperture seq func ctx base) := by
  intro h
  cases h

theorem doorbell (seq func idx ctx va : Nat) : Statement (.doorbell seq func idx ctx va) := by
  intro h
  cases h

theorem stream (seq func ctx : Nat) (s : StreamDesc) : Statement (.stream seq func ctx s) := by
  intro h
  cases h

theorem fabric (seq chip port : Nat) : Statement (.fabric seq chip port) := by
  intro h
  cases h

theorem peer (seq chip : Nat) (addr : BitVec 128) : Statement (.peer seq chip addr) := by
  intro h
  cases h

theorem pipeline (seq : Nat) (job : JobRef) (va : Nat) : Statement (.pipeline seq job va) := by
  intro h
  cases h

theorem fabricGrant (seq : Nat) (job : JobRef) (src sctx : Nat) (revoke : Bool) : Statement (.fabricGrant seq job src sctx revoke) := by
  intro h
  cases h

theorem streamClose (seq func n : Nat) : Statement (.streamClose seq func n) := by
  intro h
  cases h

theorem contractWithdraw (seq : Nat) (job : JobRef) (va : Nat) : Statement (.contractWithdraw seq job va) := by
  intro h
  cases h

theorem linkDown : Statement (.linkDown) := by
  intro h
  cases h

theorem flitRetry : Statement (.flitRetry) := by
  intro h
  cases h

theorem resolve (h : FabHdr) (handle value : Word) (cause kind : Nat) (want : Bool) (token : Word) : Statement (.resolve h handle value cause kind want token) := by
  intro h
  cases h

theorem resolveReply (h : FabHdr) (handle token : Word) (won : Bool) (status : Nat) : Statement (.resolveReply h handle token won status) := by
  intro h
  cases h

theorem fabricTouch (h : FabHdr) (handle proxy : Word) : Statement (.fabricTouch h handle proxy) := by
  intro h
  cases h

theorem touchReply (h : FabHdr) (handle proxy : Word) (state cause : Nat) (value : Word) : Statement (.touchReply h handle proxy state cause value) := by
  intro h
  cases h

theorem tail (h : FabHdr) (desc value : Word) : Statement (.tail h desc value) := by
  intro h
  cases h

theorem put (h : FabHdr) (dst number total plen : Nat) (note : Word) (data : Nat) : Statement (.put h dst number total plen note data) := by
  intro h
  cases h

theorem putAck (h : FabHdr) (number bytes status failva : Nat) : Statement (.putAck h number bytes status failva) := by
  intro h
  cases h

theorem ack (src seq : Nat) : Statement (.ack src seq) := by
  intro h
  cases h

theorem fabricRetransmit (chip seq : Nat) : Statement (.fabricRetransmit chip seq) := by
  intro h
  cases h

theorem portFail (port : Nat) : Statement (.portFail port) := by
  intro h
  cases h

theorem packageReset : Statement (.packageReset) := by
  intro h
  cases h

theorem stackTrained (stack : Nat) (ok : Bool) (localsa : Nat) : Statement (.stackTrained stack ok localsa) := by
  intro h
  cases h

theorem clusterRelease (cluster : Nat) (ok : Bool) : Statement (.clusterRelease cluster ok) := by
  intro h
  cases h

theorem illegal (w : W32) : Statement (.illegal w) := by
  intro h
  cases h

theorem fetchFault (ue : Bool) (va : Word) : Statement (.fetchFault ue va) := by
  intro h
  cases h

theorem postedWriteBufferDrain (stack : Nat) : Statement (.postedWriteBufferDrain stack) := by
  intro h
  cases h

end Sys2Proof.Laws.RoundTrip
end

