-- ==== Sys2Proof/Safety.lean ====
section
/-! DEFINITION. What counts as a safe step, the invariants the claims name, and the words in which the claims speak of an
instruction that issues: which word passes the checks at decode, and which operands can be read and written. -/

namespace Sys2Proof.Safety

open Sys2Proof.Machine

/-- A step is safe if it does not stop the machine with a fault. -/
def safe (s : State) : Bool :=
  match step s with
  | .fault _ => false
  | _ => true

/-- The HBM and host memory are in their canonical form: addresses strictly rise and no listed byte is zero. -/
def memoryOk (s : State) : Prop := Memory.wf s.mem = true ∧ Memory.wf s.hostMem = true

/-- An instruction passes every check that R51 makes at decode, for the thread whose slot it is: its fields are accepted (R47), it
exists where it is issued (R89, R165, R439), no handler bar stops it (R168), the mode may run it (R75, R89, R440), and a pending
prefix is one it consumes (R55). -/
structure Clear (i : Instr) (s : State) (t : Thread) : Prop where
  slot : s.current = some t
  fields : i.wf = true
  here : illegalHere i t = false
  handler : t.handler.isSome = true → barred i = false
  mode : unprivileged i t = false
  fmt : t.csr.pfx = true → takesPrefix i = true ∧ rejectsFmts i t.csr.latch = false
  issues : ∀ h, t.handler = some h → h.issues < 256

/-- The registers `srcs` can be read and the destinations `dst` written now: every port among them reaches a core of the job (R87), no
source holds an uncorrectable word (R455), every source is full (R81, R84, R86), and no destination inbox is full (R86). -/
structure Readable (t : Thread) (s : State) (w : BitVec 2) (srcs dst : List Reg) : Prop where
  ports : ∀ r ∈ srcs ++ dst, isPort r = true → (s.portTarget t r).isSome = true
  sound : ∀ r ∈ srcs, ∀ u ∈ t.c.ue, u.1 ≠ r.toNat
  full : ∀ r ∈ srcs, srcFull t s w r = true
  room : ∀ d ∈ dst, destBusy t s d = false

/-- What stands in a scalar destination after value `x` was written to it (R45, R81, R84, R86): register value 0 discards; a port puts it
in the neighbour's inbox; a core-shared register has it in the current view; any other register holds it and is full. -/
def Holds (t : Thread) (s : State) (w : BitVec 2) (d : Reg) (x : Word) (u : Thread) (s' : State) : Prop :=
  if d = 0#6 then u.c.x = t.c.x ∧ u.c.full = t.c.full
  else if isPort d then
    ∀ n, s.portTarget t d = some n → (s'.core n).inboxVal t.lastPhase (portDir d).opposite = some x
  else if isShared d then sCurrent (s'.near u).sregs (sReg w d) = (x, true)
  else u.c.reg d = x ∧ u.c.isFull d = true

/-- The CSRs of a thread but for what every issue charges: TBUDGET.REMAIN and PURSE (R141, R316). -/
def csrsBut (c : Csrs) : Csrs := { c with remain := 0#32, purse := 0#64 }

/-- The parts of the state that no register instruction reaches: everything but the threads, the task cores and the firmware cores. -/
def restOf (s : State) : State := { s with threads := [], cores := [], fwcores := [] }

/-- The parts of a task core and of a firmware core that a register instruction leaves alone: all but the core-shared registers and the
inboxes. -/
def coreBut (c : Core) : Core := { c with sregs := [], inbox := [] }
def fwBut (f : FwCore) : FwCore := { f with sregs := [] }

/-- The frame of an instruction that completes and touches registers alone: the thread `t` goes on as `u`, where it was, with its CSRs as
they were but for the charge of the issue; and for a thread that is no message handler (whose issue is charged to its sender) nothing
else of the package changes but s registers and inboxes: no other thread, no byte of HBM, scratchpad or tile store. -/
structure RegisterFrame (s : State) (t : Thread) (s' : State) (u : Thread) : Prop where
  thread : s'.thread? t.tid = some u
  place : u.loc = t.loc ∧ u.ctx = t.ctx ∧ u.tid = t.tid
  goes : u.run = .runnable
  csrs : csrsBut u.csr = csrsBut t.csr
  others : t.handler = none → ∀ n, n ≠ t.tid → s'.thread? n = s.thread? n
  rest : t.handler = none → restOf s' = restOf s
  cores : ∀ n, coreBut (s'.core n) = coreBut (s.core n)
  fwcores : ∀ d n, fwBut (s'.fwcore d n) = fwBut (s.fwcore d n)

/-- The registers of a thread's file other than `d` are as they were (R45, R77). -/
def othersKept (t u : Thread) (d : Reg) : Prop :=
  (∀ r : Reg, r ≠ d → r.toNat < 40 → u.c.reg r = t.c.reg r ∧ u.c.isFull r = t.c.isFull r)
    ∧ u.c.v = t.c.v ∧ u.c.k = t.c.k ∧ u.c.p = t.c.p

/-- The thread after the charge of an instruction's issue (R141, R311, R316), and the rest of the state (a message handler's issue is
charged to its sender). -/
def chargedThread (i : Instr) (t : Thread) (s : State) : Thread :=
  t.charge s.now (!t.isFw && s.reload t != 0) (issueCost i)
def chargedState (i : Instr) (t : Thread) (s : State) : State := s.chargeFor t (issueCost i)

end Sys2Proof.Safety
end

