-- ==== Sys2Proof/Certificates/Slice0/Obligations.lean ====
section
/-! DEFINITION. The statements for the provers. The tables in namespace Claims give, in numbers and in the manual's own order of
operands, what each instruction computes; no table is used by the model. -/

open Sys2Proof Sys2Proof.Machine Sys2Proof.Safety

namespace Sys2Proof.Claims

/-! ### Values of the scalar instructions (R99, R101-R103) -/

/-- A number as a dword, modulo 2^64. -/
def dw (x : Int) : Word := BitVec.ofInt 64 x
def dn (x : Nat) : Word := BitVec.ofNat 64 x
/-- The smaller and larger of the I64 bounds applied to an exact result (R26, R99). -/
def clampI64 (x : Int) : Word := dw (if x < -(2 ^ 63) then -(2 ^ 63) else if 2 ^ 63 - 1 < x then 2 ^ 63 - 1 else x)
/-- A number of `n` bits read as signed. -/
def signedOf (n : Nat) (x : Nat) : Int := if x < 2 ^ (n - 1) then x else (x : Int) - 2 ^ n
/-- 1 or 0. -/
def flag (b : Prop) [Decidable b] : Word := if b then 1#64 else 0#64
/-- A dword rotated right by `n` places, in numbers. -/
def rotated (x n : Nat) : Word := dn (x / 2 ^ n + x % 2 ^ n * 2 ^ (64 - n))

/-- What a scalar instruction with one scalar result reads, where the result goes and what it is: s-window, sources, destination, and the
value from the values of the sources. -/
abbrev Alu := BitVec 2 × (List Reg × (Reg × ((Reg → Word) → Word)))

/-- A row with two sources and one with one. -/
def two (o : OpR) (f : Word → Word → Word) : Option Alu := some (o.w, [o.a, o.b], o.d, fun v => f (v o.a) (v o.b))
def one (o : OpR) (f : Word → Word) : Option Alu := some (o.w, [o.a], o.d, fun v => f (v o.a))
/-- An immediate row, with the immediate's signed and unsigned value. -/
def imm (o : OpI) (f : Word → Int → Nat → Word) : Option Alu :=
  some (0#2, [o.a], o.d, fun v => f (v o.a) (signedOf 11 o.imm.toNat) o.imm.toNat)

/-- R99, the arithmetic, logic, shift, compare and extension rows. -/
def r99 : Instr → Option Alu
  | .add o => two o fun a b => dn (a.toNat + b.toNat)
  | .sub o => two o fun a b => dw ((a.toNat : Int) - b.toNat)
  | .and_ o => two o fun a b => BitVec.ofNat 64 (a.toNat &&& b.toNat)
  | .or_ o => two o fun a b => BitVec.ofNat 64 (a.toNat ||| b.toNat)
  | .xor_ o => two o fun a b => BitVec.ofNat 64 (a.toNat ^^^ b.toNat)
  | .andn o => two o fun a b => BitVec.ofNat 64 (a.toNat &&& (2 ^ 64 - 1 - b.toNat))
  | .sll o => two o fun a b => dn (a.toNat * 2 ^ (b.toNat % 64))
  | .srl o => two o fun a b => dn (a.toNat / 2 ^ (b.toNat % 64))
  | .sra o => two o fun a b => dw (a.toInt / 2 ^ (b.toNat % 64))
  | .ror o => two o fun a b => rotated a.toNat (b.toNat % 64)
  | .slt o => two o fun a b => flag (a.toInt < b.toInt)
  | .sltz o => two o fun a b => flag (a.toNat < b.toNat)
  | .seq o => two o fun a b => flag (a = b)
  | .min_ o => two o fun a b => dw (min a.toInt b.toInt)
  | .max_ o => two o fun a b => dw (max a.toInt b.toInt)
  | .minz o => two o fun a b => dn (min a.toNat b.toNat)
  | .maxz o => two o fun a b => dn (max a.toNat b.toNat)
  | .adds o => two o fun a b => clampI64 (a.toInt + b.toInt)
  | .subs o => two o fun a b => clampI64 (a.toInt - b.toInt)
  | .sxb o => one o fun a => dw (signedOf 8 (a.toNat % 2 ^ 8))
  | .sxh o => one o fun a => dw (signedOf 16 (a.toNat % 2 ^ 16))
  | .sxw o => one o fun a => dw (signedOf 32 (a.toNat % 2 ^ 32))
  | .zxw o => one o fun a => dn (a.toNat % 2 ^ 32)
  | _ => none

/-- R99, the rows that count or reverse: leading zeros (the first set bit from the top), trailing zeros (the largest power of two that
divides), set bits, and the bytes of the number in the opposite order. -/
def r99bits : Instr → Option Alu
  | .clz o => one o fun a => dn (((List.range 64).find? fun k => a.toNat / 2 ^ (63 - k) % 2 == 1).getD 64)
  | .ctz o => one o fun a => dn (((List.range 65).reverse.find? fun k => a.toNat % 2 ^ k == 0).getD 0)
  | .popc o => one o fun a => dn (((List.range 64).map fun k => a.toNat / 2 ^ k % 2).sum)
  | .bswap o => one o fun a => dn (((List.range 8).map fun k => a.toNat / 256 ^ k % 256 * 256 ^ (7 - k)).sum)
  | _ => none

/-- R101 and R102: the immediate rows and `shlim`. -/
def r101 : Instr → Option Alu
  | .addi o => imm o fun a i _ => dw (a.toNat + i)
  | .andi o => imm o fun a i _ => a &&& dw i
  | .andiz o => imm o fun a _ n => a &&& dn n
  | .ori o => imm o fun a i _ => a ||| dw i
  | .oriz o => imm o fun a _ n => a ||| dn n
  | .xori o => imm o fun a i _ => a ^^^ dw i
  | .xoriz o => imm o fun a _ n => a ^^^ dn n
  | .slli o => imm o fun a _ n => dn (a.toNat * 2 ^ (n % 64))
  | .srli o => imm o fun a _ n => dn (a.toNat / 2 ^ (n % 64))
  | .srai o => imm o fun a _ n => dw (a.toInt / 2 ^ (n % 64))
  | .rori o => imm o fun a _ n => rotated a.toNat (n % 64)
  | .slti o => imm o fun a i _ => flag (a.toInt < i)
  | .sltiz o => imm o fun a _ n => flag (a.toNat < n)
  | .seqi o => imm o fun a i _ => flag (a = dw i)
  | .shlim o => some (0#2, [o.d], o.d, fun v => dn ((v o.d).toNat * 2 ^ 20 % 2 ^ 64 + o.imm.toNat))
  | _ => none

/-- R103 with R19: a zero divisor gives all ones and the dividend; the sign of the remainder is the dividend's. -/
def r103 : Instr → Option Alu
  | .mul o => two o fun a b => dn (a.toNat * b.toNat)
  | .mulh o => two o fun a b => dw (a.toInt * b.toInt / 2 ^ 64)
  | .mulhz o => two o fun a b => dn (a.toNat * b.toNat / 2 ^ 64)
  | .div o => two o fun a b => if b = 0#64 then dw (-1) else dw (Int.tdiv a.toInt b.toInt)
  | .divz o => two o fun a b => if b = 0#64 then dw (-1) else dn (a.toNat / b.toNat)
  | .rem o => two o fun a b => if b = 0#64 then a else dw (a.toInt - b.toInt * Int.tdiv a.toInt b.toInt)
  | .remz o => two o fun a b => if b = 0#64 then a else dn (a.toNat - b.toNat * (a.toNat / b.toNat))
  | _ => none

/-- An instruction of a table completes with its result: the value is in the destination and is the newest of the last-result file, the
program counter is at the next instruction. -/
def Gives (table : Instr → Option Alu) : Prop :=
  ∀ (i : Instr) (s : State) (t : Thread) (w : BitVec 2) (srcs : List Reg) (d : Reg) (f : (Reg → Word) → Word),
    table i = some (w, srcs, d, f) → Clear i s t → Readable t s w srcs [d] →
    ∃ s' u, exec i s = .next s' ∧ s'.thread? t.tid = some u ∧ u.pc = t.pc + 4#64
      ∧ Holds t s w d (f (srcVal t s w)) u s' ∧ u.c.q0 = f (srcVal t s w) ∧ u.c.q1 = t.c.q0

end Sys2Proof.Claims

open Sys2Proof.Claims

/-- R99: the arithmetic, logic, shift, compare and extension rows of opcode 0x01 complete with the value the table gives. -/
def Sys2Proof.Claims.ScalarRowsGive : Prop := Gives r99

/-- R99: the counting and reversing rows. -/
def Sys2Proof.Claims.ScalarCountsGive : Prop := Gives r99bits

/-- R101, R102: the immediate rows of opcodes 0x02 and 0x03, and `shlim`. -/
def Sys2Proof.Claims.ImmediateRowsGive : Prop := Gives r101

/-- R103, R19: multiply and divide, with a zero divisor and the most negative number by -1 among the operands. -/
def Sys2Proof.Claims.MultiplyDivideGive : Prop := Gives r103

/-- R45, R78, R98: an instruction of those tables changes no register but its destination and the last-result file, no vector, mask or
predicate register, no CSR but TBUDGET and PURSE, no other thread, and no byte of any memory. -/
def Obligations.ScalarFrame : Prop :=
  ∀ (i : Instr) (s : State) (t : Thread) (w : BitVec 2) (srcs : List Reg) (d : Reg) (f : (Reg → Word) → Word),
    (r99 i = some (w, srcs, d, f) ∨ r99bits i = some (w, srcs, d, f) ∨ r101 i = some (w, srcs, d, f)
      ∨ r103 i = some (w, srcs, d, f)) →
    Clear i s t → Readable t s w srcs [d] →
    ∃ s' u, exec i s = .next s' ∧ RegisterFrame s t s' u ∧ othersKept t u d
      ∧ (t.handler = none → ∀ a, Memory.get s'.mem a = Memory.get s.mem a)

namespace Sys2Proof.Claims

/-! ### Branches, predicates, moves (R100, R119-R124) -/

/-- The condition of a register-compare branch, from the values of its two sources (R119). -/
def branches : Instr → Option (OpB × (Word → Word → Bool))
  | .beq o => some (o, fun a b => decide (a = b))
  | .bne o => some (o, fun a b => decide (a ≠ b))
  | .blt o => some (o, fun a b => decide (a.toInt < b.toInt))
  | .bge o => some (o, fun a b => decide (b.toInt ≤ a.toInt))
  | .bltz o => some (o, fun a b => decide (a.toNat < b.toNat))
  | _ => none

/-- A predicate instruction: window, sources, destination, and its value from the predicates and the sources (R124). -/
def predicates : Instr → Option (BitVec 2 × (List Reg × (Reg × ((Nat → Bool) → (Reg → Word) → Bool))))
  | .pnez o => some (o.w, [o.a], o.d, fun _ v => decide (v o.a ≠ 0#64))
  | .peq o => some (o.w, [o.a, o.b], o.d, fun _ v => decide (v o.a = v o.b))
  | .plt o => some (o.w, [o.a, o.b], o.d, fun _ v => decide ((v o.a).toInt < (v o.b).toInt))
  | .pltz o => some (o.w, [o.a, o.b], o.d, fun _ v => decide ((v o.a).toNat < (v o.b).toNat))
  | .pand o => some (o.w, [], o.d, fun p _ => p o.a.toNat && p o.b.toNat)
  | .por o => some (o.w, [], o.d, fun p _ => p o.a.toNat || p o.b.toNat)
  | .pxor o => some (o.w, [], o.d, fun p _ => p o.a.toNat ^^ p o.b.toNat)
  | .pnot o => some (o.w, [], o.d, fun p _ => !p o.a.toNat)
  | _ => none

/-- Where a taken branch goes: PC + 4 times the signed offset (R44). -/
def goesTo (pc : Word) (n off : Nat) : Word := dw (pc.toNat + 4 * signedOf n off)

end Sys2Proof.Claims

/-- R119: each register-compare branch completes; it goes to PC + 4·sext(off) when its condition holds and to the next instruction when
not, and changes no register. -/
def Sys2Proof.Claims.BranchesGo : Prop :=
  ∀ (i : Instr) (o : OpB) (cond : Word → Word → Bool) (s : State) (t : Thread),
    branches i = some (o, cond) → Clear i s t → Readable t s 0#2 [o.a, o.b] [] →
    ∃ s' u, exec i s = .next s' ∧ RegisterFrame s t s' u ∧ u.c = t.c
      ∧ u.pc = if cond (srcVal t s 0#2 o.a) (srcVal t s 0#2 o.b) then goesTo t.pc 14 o.off.toNat else t.pc + 4#64

/-- R120: `bp` is taken when its predicate is true and `bnp` when it is false; neither waits for anything nor changes a register; a word of
either with a nonzero field b or nonzero bits 25:23 is refused at decode (where R51 raises ILLEGAL), and `bnp p0` is never taken. -/
def Obligations.PredicateBranches : Prop :=
  (∀ (o : OpP) (s : State) (t : Thread), Clear (.bp o) s t →
    ∃ s' u, exec (.bp o) s = .next s' ∧ RegisterFrame s t s' u ∧ u.c = t.c
      ∧ u.pc = if t.c.pred o.p.toNat then goesTo t.pc 14 o.off.toNat else t.pc + 4#64)
  ∧ (∀ (o : OpP) (s : State) (t : Thread), Clear (.bnp o) s t →
    ∃ s' u, exec (.bnp o) s = .next s' ∧ RegisterFrame s t s' u ∧ u.c = t.c
      ∧ u.pc = (if t.c.pred o.p.toNat then t.pc + 4#64 else goesTo t.pc 14 o.off.toNat) ∧ (o.p = 0#2 → u.pc = t.pc + 4#64))
  ∧ (∀ (o : OpP), (Instr.wf (.bp o) = true ↔ o.hi = 0#3 ∧ o.b = 0#6) ∧ (Instr.wf (.bnp o) = true ↔ o.hi = 0#3 ∧ o.b = 0#6))
  ∧ (∀ (o : OpP) (s : State) (t : Thread), s.current = some t → (o.hi ≠ 0#3 ∨ o.b ≠ 0#6) →
    exec (.bp o) s = .next (takeTrap (chargedThread (.bp o) t s) .illegal ((Instr.bp o).encode.zeroExtend 64) t.pc
      (chargedState (.bp o) t s))
    ∧ exec (.bnp o) s = .next (takeTrap (chargedThread (.bnp o) t s) .illegal ((Instr.bnp o).encode.zeroExtend 64) t.pc
      (chargedState (.bnp o) t s)))

/-- R121, R122: `jal` and `jr` go to their target with the address of the next instruction in d; a `jr` target that is no multiple of 4 traps
MISALIGNED with the target as TVAL. -/
def Sys2Proof.Claims.JumpsGo : Prop :=
  (∀ (o : OpJ) (s : State) (t : Thread), Clear (.jal o) s t →
    ∃ s' u, exec (.jal o) s = .next s' ∧ RegisterFrame s t s' u ∧ u.pc = goesTo t.pc 20 o.off.toNat
      ∧ Holds t s 0#2 o.d (t.pc + 4#64) u s' ∧ u.c.q0 = t.pc + 4#64 ∧ u.c.q1 = t.c.q0 ∧ othersKept t u o.d)
  ∧ (∀ (o : OpJr) (s : State) (t : Thread), Clear (.jr o) s t → Readable t s 0#2 [o.a] [] →
    let x := dw ((srcVal t s 0#2 o.a).toNat + signedOf 14 o.imm.toNat)
    (x.toNat % 4 = 0 →
      ∃ s' u, exec (.jr o) s = .next s' ∧ RegisterFrame s t s' u ∧ u.pc = x
        ∧ Holds t s 0#2 o.d (t.pc + 4#64) u s' ∧ u.c.q0 = t.pc + 4#64 ∧ u.c.q1 = t.c.q0 ∧ othersKept t u o.d)
    ∧ (x.toNat % 4 ≠ 0 →
      exec (.jr o) s = .next (takeTrap (chargedThread (.jr o) t s) .misaligned x t.pc (chargedState (.jr o) t s))))

/-- R124: each predicate instruction completes with its value in predicate d, where p0 discards it and reads true; no other predicate and
no register changes. `pget` gives the predicate as a scalar result of 0 or 1. -/
def Obligations.PredicatesGive : Prop :=
  (∀ (i : Instr) (w : BitVec 2) (srcs : List Reg) (d : Reg) (f : (Nat → Bool) → (Reg → Word) → Bool) (s : State) (t : Thread),
    predicates i = some (w, srcs, d, f) → Clear i s t → Readable t s w srcs [] →
    ∃ s' u, exec i s = .next s' ∧ RegisterFrame s t s' u ∧ u.pc = t.pc + 4#64
      ∧ (∀ n, n < 4 → u.c.pred n = if n = 0 then true else if n = d.toNat then f t.c.pred (srcVal t s w) else t.c.pred n)
      ∧ u.c.x = t.c.x ∧ u.c.full = t.c.full ∧ u.c.q0 = t.c.q0 ∧ u.c.q1 = t.c.q1 ∧ u.c.v = t.c.v ∧ u.c.k = t.c.k)
  ∧ (∀ (o : OpR) (s : State) (t : Thread), Clear (.pget o) s t →
    ∃ s' u, exec (.pget o) s = .next s' ∧ RegisterFrame s t s' u ∧ u.pc = t.pc + 4#64
      ∧ Holds t s 0#2 o.d (flag (t.c.pred o.a.toNat = true)) u s' ∧ u.c.q0 = flag (t.c.pred o.a.toNat = true)
      ∧ u.c.q1 = t.c.q0 ∧ othersKept t u o.d)

/-- R100, R87: `mvt` takes a full source, in the current view, and leaves it empty; `mvp` writes a destination that is empty; `rclr` empties
what it names without reading it; `rful` says whether a register is full, g0 and the q registers always. The moved value and the flag are
the results. Where field a names a port that reaches no core of the job, each of the four traps ACCESS with the register value. -/
def Obligations.FullEmptyMoves : Prop :=
  (∀ (o : OpR) (s : State) (t : Thread), Clear (.mvt o) s t →
    (∀ r, r = o.a ∨ r = o.d → isPort r = true → (s.portTarget t r).isSome = true) → (∀ e ∈ t.c.ue, e.1 ≠ o.a.toNat) →
    nowFull t s o.w o.a = true → destBusy t s o.d = false →
    ∃ s' u, exec (.mvt o) s = .next s' ∧ RegisterFrame s t s' u ∧ u.pc = t.pc + 4#64
      ∧ Holds t s o.w o.d (nowVal t s o.w o.a) u s' ∧ u.c.q0 = nowVal t s o.w o.a ∧ u.c.q1 = t.c.q0
      ∧ (o.d ≠ o.a → isPort o.d = false → nowFull u s' o.w o.a = false))
  ∧ (∀ (o : OpR) (s : State) (t : Thread), Clear (.mvp o) s t →
    (∀ r, r = o.a ∨ r = o.d → isPort r = true → (s.portTarget t r).isSome = true) → (∀ e ∈ t.c.ue, e.1 ≠ o.a.toNat) →
    nowFull t s o.w o.a = true → destBusy t s o.d = false → (isPort o.d = false → nowFull t s o.w o.d = false) →
    ∃ s' u, exec (.mvp o) s = .next s' ∧ RegisterFrame s t s' u ∧ u.pc = t.pc + 4#64
      ∧ Holds t s o.w o.d (nowVal t s o.w o.a) u s' ∧ u.c.q0 = nowVal t s o.w o.a ∧ u.c.q1 = t.c.q0 ∧ othersKept t u o.d)
  ∧ (∀ (o : OpR) (s : State) (t : Thread), Clear (.rclr o) s t → (isPort o.a = true → (s.portTarget t o.a).isSome = true) →
    ∃ s' u, exec (.rclr o) s = .next s' ∧ RegisterFrame s t s' u ∧ u.pc = t.pc + 4#64
      ∧ nowFull u s' o.w o.a = false ∧ u.c.x = t.c.x ∧ u.c.v = t.c.v ∧ u.c.q0 = t.c.q0 ∧ u.c.q1 = t.c.q1)
  ∧ (∀ (o : OpR) (s : State) (t : Thread), Clear (.rful o) s t → Readable t s o.w [] [o.d] →
    (isPort o.a = true → (s.portTarget t o.a).isSome = true) →
    ∃ s' u, exec (.rful o) s = .next s' ∧ RegisterFrame s t s' u ∧ u.pc = t.pc + 4#64
      ∧ u.c.q0 = flag (nowFull t s o.w o.a = true) ∧ Holds t s o.w o.d u.c.q0 u s' ∧ othersKept t u o.d)
  ∧ (∀ (i : Instr) (o : OpR) (s : State) (t : Thread), (i = .mvt o ∨ i = .mvp o ∨ i = .rclr o ∨ i = .rful o) → Clear i s t →
    isPort o.a = true → s.portTarget t o.a = none →
    exec i s = .next (takeTrap (chargedThread i t s) .access (dn o.a.toNat) t.pc (chargedState i t s)))

/-- R59: `addpc` gives PC plus its signed immediate, modulo 2^64, as a scalar result; d is g0-g31, any other value is ILLEGAL, and g0 discards
the result; it takes no prefix. -/
def Obligations.AddpcGives : Prop :=
  (∀ (o : OpU) (s : State) (t : Thread), Clear (.addpc o) s t →
    ∃ s' u, exec (.addpc o) s = .next s' ∧ RegisterFrame s t s' u ∧ u.pc = t.pc + 4#64
      ∧ (if o.d = 0#6 then u.c.x = t.c.x ∧ u.c.full = t.c.full
        else u.c.reg o.d = dw (t.pc.toNat + signedOf 20 o.imm.toNat) ∧ u.c.isFull o.d = true)
      ∧ u.c.q0 = dw (t.pc.toNat + signedOf 20 o.imm.toNat) ∧ u.c.q1 = t.c.q0 ∧ othersKept t u o.d)
  ∧ (∀ o : OpU, Instr.wf (.addpc o) = true ↔ o.d.toNat < 32)
  ∧ (∀ (o : OpU) (s : State) (t : Thread), s.current = some t → 32 ≤ o.d.toNat →
    exec (.addpc o) s = .next (takeTrap (chargedThread (.addpc o) t s) .illegal ((Instr.addpc o).encode.zeroExtend 64) t.pc
      (chargedState (.addpc o) t s)))
  ∧ (∀ (o : OpU) (s : State) (t : Thread), s.current = some t → o.d.toNat < 32 → t.handler = none → t.csr.pfx = true →
    exec (.addpc o) s = .next (takeTrap (chargedThread (.addpc o) t s) .prefixMisuse ((Instr.addpc o).encode.zeroExtend 64) t.pc
      (chargedState (.addpc o) t s)))

/-- R53: `fmt` latches word bits 25:11 and sets STATUS.PFX, and nothing else of the thread changes but the pc and the charge, nor any other
thread's latch; with a prefix pending it traps PREFIX_MISUSE with its own word as TVAL, and the latch keeps the earlier prefix. -/
def Obligations.FmtLatches : Prop :=
  (∀ (o : OpF) (s : State) (t : Thread), Clear (.fmt o) s t →
    ∃ s' u, exec (.fmt o) s = .next s' ∧ s'.thread? t.tid = some u ∧ u.pc = t.pc + 4#64 ∧ u.c = t.c
      ∧ u.csr.pfx = true ∧ u.csr.latch = (Instr.fmt o).encode.extractLsb' 11 15
      ∧ csrsBut { u.csr with pfx := t.csr.pfx, latch := t.csr.latch } = csrsBut t.csr
      ∧ (∀ n v, n ≠ t.tid → s.thread? n = some v →
        ∃ v', s'.thread? n = some v' ∧ v'.csr.latch = v.csr.latch ∧ v'.csr.pfx = v.csr.pfx)
      ∧ (t.handler = none → s'.mem = s.mem ∧ s'.cores = s.cores ∧ s'.clusters = s.clusters))
  ∧ (∀ (o : OpF) (s : State) (t : Thread), s.current = some t → Instr.wf (.fmt o) = true → t.handler = none → t.csr.pfx = true →
    exec (.fmt o) s = .next (takeTrap (chargedThread (.fmt o) t s) .prefixMisuse ((Instr.fmt o).encode.zeroExtend 64) t.pc
      (chargedState (.fmt o) t s))
    ∧ (chargedThread (.fmt o) t s).csr.latch = t.csr.latch)

namespace Sys2Proof.Claims

/-! ### CSRs (R89-R95, R104) -/

/-- Bits `lo` to `lo + n - 1` of a dword, and a dword with those bits taken from another. -/
def part (x : Word) (lo n : Nat) : Nat := x.toNat / 2 ^ lo % 2 ^ n
def withPart (old x : Word) (lo n : Nat) : Word := dn (old.toNat - part old lo n * 2 ^ lo + part x lo n * 2 ^ lo)
/-- A tile shape that R96 accepts: a format with a code of R96, 1 to 64 rows and columns, and no more than 32,768 bits. -/
def goodShape (x : Word) : Bool :=
  [0, 1, 2, 5, 6, 7, 8].contains (part x 16 4) && decide (1 ≤ part x 8 7) && decide (part x 8 7 ≤ 64) && decide (1 ≤ part x 0 7)
    && decide (part x 0 7 ≤ 64) && decide (part x 8 7 * part x 0 7 * fmtBits (part x 16 4) ≤ 32768)
/-- A guard that R442 accepts: a size of 2^12 to 2^48 bytes, and a base aligned to it. -/
def goodGuard (x : Word) : Bool :=
  decide (12 ≤ part x 0 6) && decide (part x 0 6 ≤ 48) && part x 12 36 * 2 ^ 12 % 2 ^ part x 0 6 == 0

/-- What a CSR reads after software wrote `x` to it where it read `old` (R9, R57, R90-R95, R180, R440, R442, R443): `tags` are the completion
tags with transfers in flight. None where R96 or R442 refuses the value. A CSR with no writable bit reads what it did. -/
def csrAfter (tags : Nat → Bool) (n : Nat) (old x : Word) : Option Word :=
  if 0x030 ≤ n ∧ n ≤ 0x037 then (if goodShape x then some (x &&& 0x00BF7F7F#64) else none)
  else if 0x880 ≤ n ∧ n ≤ 0x88F then (if goodGuard x then some (x &&& 0xF000FFFFFFFFF03F#64) else none)
  else match n with
  | 0x000 => some (withPart old x 7 1)
  | 0x001 => some (x &&& 0xFF#64)
  | 0x002 => some x
  | 0x003 => some (x &&& 0xFFFFFFFFFFFFFFFC#64)
  | 0x004 => some (x &&& 0xFFFF#64)
  | 0x005 => some (x &&& 0x1FFFFFFFF#64)
  | 0x006 => some (x &&& 0xFFFFFFFFFFFFFFFC#64)
  | 0x007 => some x
  | 0x008 => some x
  | 0x010 => some (x &&& 0xFFFFFFFF#64)
  | 0x013 => some (withPart old x 0 16)
  | 0x027 => some (dn (((List.range 64).filter fun k => x.getLsbD k && !tags k).map fun k => 2 ^ k).sum)
  | 0x800 => some (withPart old x 2 2)
  | 0x801 => some (x &&& 0xFFFFFFFFFFFFFFFC#64)
  | 0x802 => some (x &&& 0xFFFFFFFFFFFFFFFC#64)
  | 0x8C4 => some (dn (max old.toNat (x.toNat % 2 ^ 32)))
  | 0x8C6 => some (x &&& 0x0000FFFFFFFFFF80#64)
  | 0x8C7 => some (if x.getLsbD 0 then 2#64 else old)
  | _ => some old
/-- The tags of a thread that have transfers in flight (R180). -/
def inFlight (t : Thread) (k : Nat) : Bool := t.tagCount.any fun e => e.1 == k && e.2 != 0

/-- The new value of a CSR write, from the old value and the source (R104); none where nothing is written. -/
def csrNew : Instr → Option (OpC × (Word → Word → Option Word))
  | .csrx o => some (o, fun _ v => some v)
  | .csrs o => some (o, fun old v => if o.a = 0#6 then none else some (old ||| v))
  | .csrc o => some (o, fun old v => if o.a = 0#6 then none else some (old &&& ~~~v))
  | _ => none

end Sys2Proof.Claims

/-- R104: `csrr` gives the value of the CSR it names and changes none. -/
def Sys2Proof.Claims.CsrReads : Prop :=
  ∀ (o : OpC) (s : State) (t : Thread), Clear (.csrr o) s t → Readable t s 0#2 [] [o.d] →
    ∃ s' u x, exec (.csrr o) s = .next s' ∧ RegisterFrame s t s' u ∧ u.pc = t.pc + 4#64
      ∧ x = csrRead (chargedThread (.csrr o) t s) (chargedState (.csrr o) t s) o.csr.toNat
      ∧ Holds t s 0#2 o.d x u s' ∧ u.c.q0 = x ∧ u.c.q1 = t.c.q0 ∧ othersKept t u o.d

/-- R104, R9: `csrx`, `csrs` and `csrc` give the old value of their CSR, and it then reads the new one in its writable bits: a trap register,
TPFX, WLIMIT, MIGOFF in STATUS, the threshold in MIGTH, TAGS.DONE but for tags in flight, a tile shape, and on a firmware core FSTATUS,
FTBASE, a guard and a key CSR. A shape or guard that may not stand traps ILLEGAL. `csrs` and `csrc` with field a = 0 write nothing. No
other CSR changes, no other register and no byte of memory. -/
def Sys2Proof.Claims.CsrWrites : Prop :=
  ∀ (i : Instr) (o : OpC) (new : Word → Word → Option Word) (s : State) (t : Thread),
    csrNew i = some (o, new) → Clear i s t → Readable t s 0#2 [o.a] [o.d] →
    let read (n : Nat) : Word := csrRead (chargedThread i t s) (chargedState i t s) n
    let n := o.csr.toNat
    let old := read n
    match (match new old (srcVal t s 0#2 o.a) with
      | some x => csrAfter (inFlight t) n old x
      | none => some old) with
    | some y => ∃ s' u, exec i s = .next s' ∧ s'.thread? t.tid = some u ∧ u.pc = t.pc + 4#64
        ∧ u.c.q0 = old ∧ u.c.q1 = t.c.q0 ∧ Holds t s 0#2 o.d old u s' ∧ othersKept t u o.d
        ∧ csrRead u s' n = y ∧ (∀ m, m ≠ n → csrRead u s' m = read m)
        ∧ (t.handler = none → s'.mem = s.mem ∧ s'.clusters = s.clusters)
    | none => exec i s = .next (takeTrap (chargedThread i t s) .illegal (i.encode.zeroExtend 64) t.pc (chargedState i t s))

/-- R94, R3: COORD of a task core is made of the package, die, cluster, Y and X as the field map says; CTXID, CYCLE and STAGE read the
thread's and the package's own. -/
def Sys2Proof.Claims.PlaceCsrs : Prop :=
  ∀ (s : State) (t : Thread) (d cx cy kx ky p : Nat), t.loc = .phase (64 * (4 * cy + ky) + (32 * d + 4 * cx + kx)) p →
    d < 2 → cx < 8 → cy < 8 → kx < 4 → ky < 4 →
    csrRead t s 0x022 = dn (s.chip.toNat * 2 ^ 28 + d * 2 ^ 27 + (8 * cy + cx) * 2 ^ 16 + (4 * cy + ky) * 2 ^ 8 + (32 * d + 4 * cx + kx))
      ∧ csrRead t s 0x024 = dn (t.ctx % 2 ^ 12) ∧ csrRead t s 0x025 = s.cycle ∧ csrRead t s 0x023 = dn t.csr.stage.toNat

/-! ### Traps (R51, R128-R133) -/

/-- R133: the twenty causes have the codes 1 to 20, one each. -/
def Sys2Proof.Claims.CauseCodes : Prop :=
  (∀ a b : Cause, a.code = b.code → a = b) ∧ (∀ n, 1 ≤ n → n ≤ 20 → ∃ c : Cause, c.code = BitVec.ofNat 8 n)
    ∧ ∀ c : Cause, 1 ≤ c.code.toNat ∧ c.code.toNat ≤ 20

/-- R130: a trap of a task that has a handler, and is not the handler's own first instruction trapping again, saves cause, value, address,
status, last results and prefix, clears the prefix, sets TRAP and goes to the handler; otherwise the task is killed. No register changes. -/
def Sys2Proof.Claims.TrapEntry : Prop :=
  ∀ (s : State) (t : Thread) (cause : Cause) (v epc : Word), s.thread? t.tid = some t → t.isFw = false → t.handler = none →
    (t.csr.tbase = 0#64 ∨ (t.csr.trap = true ∧ epc = t.csr.tbase) → takeTrap t cause v epc s = s.kill t cause v)
    ∧ (¬ (t.csr.tbase = 0#64 ∨ (t.csr.trap = true ∧ epc = t.csr.tbase)) →
      ∃ u, (takeTrap t cause v epc s).thread? t.tid = some u ∧ u.pc = t.csr.tbase ∧ u.c = t.c
        ∧ u.csr.tcause = cause.code ∧ u.csr.tval = v ∧ (epc.toNat % 4 = 0 → u.csr.tepc = epc)
        ∧ u.csr.tstatus = t.status ∧ u.csr.tq0 = t.c.q0 ∧ u.csr.tq1 = t.c.q1
        ∧ u.csr.tpfx = (if t.csr.pfx then dn (2 ^ 32 + 0x2A * 2 ^ 26 + t.csr.latch.toNat * 2 ^ 11) else 0#64)
        ∧ u.csr.pfx = false ∧ u.csr.trap = true ∧ u.csr.tbase = t.csr.tbase ∧ u.run = .runnable
        ∧ (takeTrap t cause v epc s).mem = s.mem ∧ (takeTrap t cause v epc s).cores = s.cores)

/-- R124, R125: `brk` traps BREAK with TVAL 0 and `ecall` traps ECALL with the value of a, both at their own address. -/
def Sys2Proof.Claims.BreakAndEcallTrap : Prop :=
  (∀ (o : OpR) (s : State) (t : Thread), Clear (.brk o) s t → t.isFw = false → t.handler = none → t.csr.tbase ≠ 0#64 →
    ¬ (t.csr.trap = true ∧ t.pc = t.csr.tbase) → t.pc.toNat % 4 = 0 →
    ∃ s' u, exec (.brk o) s = .next s' ∧ s'.thread? t.tid = some u ∧ u.pc = t.csr.tbase ∧ u.csr.tcause = 0x13#8
      ∧ u.csr.tval = 0#64 ∧ u.csr.tepc = t.pc ∧ u.csr.trap = true ∧ u.c = t.c)
  ∧ (∀ (o : OpR) (s : State) (t : Thread), Clear (.ecall o) s t → Readable t s o.w [o.a] [] → t.isFw = false →
    t.handler = none → t.csr.tbase ≠ 0#64 → ¬ (t.csr.trap = true ∧ t.pc = t.csr.tbase) → t.pc.toNat % 4 = 0 →
    ∃ s' u, exec (.ecall o) s = .next s' ∧ s'.thread? t.tid = some u ∧ u.pc = t.csr.tbase ∧ u.csr.tcause = 0x14#8
      ∧ u.csr.tval = srcVal t s o.w o.a ∧ u.csr.tepc = t.pc ∧ u.csr.trap = true ∧ u.c = t.c)

/-- R128: `eret` puts back the last results, MIGOFF and a valid saved prefix, clears TRAP and goes to TEPC, with TRAP clear as well as
set; with a prefix pending it traps PREFIX_MISUSE, and so it does where TPFX holds a word that is no valid `fmt` word, with that word as
TVAL. -/
def Sys2Proof.Claims.EretReturns : Prop :=
  ∀ (o : OpR) (s : State) (t : Thread), s.current = some t → (Instr.eret o).wf = true → t.handler = none →
    (t.csr.pfx = true → exec (.eret o) s = .next (takeTrap (chargedThread (.eret o) t s) .prefixMisuse
      ((Instr.eret o).encode.zeroExtend 64) t.pc (chargedState (.eret o) t s)))
    ∧ (t.csr.pfx = false → t.csr.tpfx.getLsbD 32 = true → validFmt (t.csr.tpfx.extractLsb' 0 32) = false →
      exec (.eret o) s = .next (takeTrap (chargedThread (.eret o) t s) .prefixMisuse
        (dn (t.csr.tpfx.toNat % 2 ^ 32)) t.pc (chargedState (.eret o) t s)))
    ∧ (t.csr.pfx = false → (t.csr.tpfx.getLsbD 32 = true → validFmt (t.csr.tpfx.extractLsb' 0 32) = true) →
      ∃ s' u, exec (.eret o) s = .next s' ∧ s'.thread? t.tid = some u ∧ u.pc = t.csr.tepc
        ∧ u.c.q0 = t.csr.tq0 ∧ u.c.q1 = t.csr.tq1 ∧ u.c.x = t.c.x ∧ u.c.full = t.c.full ∧ u.c.v = t.c.v ∧ u.c.k = t.c.k ∧ u.c.p = t.c.p
        ∧ u.csr.migoff = t.csr.tstatus.getLsbD 7 ∧ u.csr.trap = false
        ∧ u.csr.pfx = t.csr.tpfx.getLsbD 32
        ∧ (t.csr.tpfx.getLsbD 32 = true → u.csr.latch = t.csr.tpfx.extractLsb' 11 15)
        ∧ u.csr.tpfx = t.csr.tpfx ∧ u.csr.tcause = t.csr.tcause ∧ u.csr.tbase = t.csr.tbase ∧ s'.mem = s.mem)

/-- R49: a word whose major opcode is 0x00, 0x2B-0x3E or 0x3F names no instruction and raises ILLEGAL with the word as TVAL: so does every word
of zero-filled and of all-ones memory. -/
def Obligations.UnassignedOpcodes : Prop :=
  (∀ w : W32, (w.toNat / 2 ^ 26 = 0 ∨ 0x2B ≤ w.toNat / 2 ^ 26) → ∀ i, decode w ≠ .ok i)
  ∧ (∀ (w : W32) (s : State) (t : Thread), (w.toNat / 2 ^ 26 = 0 ∨ 0x2B ≤ w.toNat / 2 ^ 26) → s.current = some t →
    exec (.illegal w) s = .next (takeTrap (t.charge s.now (!t.isFw && s.reload t != 0) 12) .illegal (w.zeroExtend 64) t.pc
      (s.chargeFor t 12)))
  ∧ (0x00000000#32).toNat / 2 ^ 26 = 0 ∧ 0x2B ≤ (0xFFFFFFFF#32).toNat / 2 ^ 26

/-- R50, R51: for every instruction word, the causes at decode come in the order ILLEGAL, a handler's ACCESS, PRIVILEGE, PREFIX_MISUSE; the instruction has no effect but
that trap, at its own address, with the word as TVAL (the handler's ACCESS has its address). -/
def Obligations.DecodeOrder : Prop :=
  ∀ (i : Instr) (s : State) (t : Thread), i.isWord = true → s.current = some t →
    ((i.wf = false ∨ illegalHere i t = true) → exec i s = .next (takeTrap (chargedThread i t s) .illegal
      (i.encode.zeroExtend 64) t.pc (chargedState i t s)))
    ∧ (i.wf = true → illegalHere i t = false → t.handler.isSome = true → barred i = true →
      exec i s = .next (takeTrap (chargedThread i t s) .access t.pc t.pc (chargedState i t s)))
    ∧ (i.wf = true → illegalHere i t = false → (t.handler.isSome = true → barred i = false) → unprivileged i t = true →
      exec i s = .next (takeTrap (chargedThread i t s) .privilege (i.encode.zeroExtend 64) t.pc (chargedState i t s)))
    ∧ (i.wf = true → illegalHere i t = false → (t.handler.isSome = true → barred i = false) → unprivileged i t = false →
      t.csr.pfx = true → (takesPrefix i = false ∨ rejectsFmts i t.csr.latch = true) →
      exec i s = .next (takeTrap (chargedThread i t s) .prefixMisuse (i.encode.zeroExtend 64) t.pc (chargedState i t s)))

/-- R126: `yield` parks the task with kind YIELD at the next instruction, ready at once, its priority its record's again, and changes no
register. -/
def Sys2Proof.Claims.YieldParks : Prop :=
  ∀ (o : OpR) (s : State) (t : Thread), Clear (.yield_ o) s t → t.handler = none → (t.csr.creq = true → t.creqAck = true) →
    ∃ s' u, exec (.yield_ o) s = .next s' ∧ s'.thread? t.tid = some u ∧ u.pc = t.pc + 4#64 ∧ u.c = t.c
      ∧ (u.run.wake?.map (·.kind)) = some .yield ∧ u.readyAt = s.now ∧ u.csr.prio = t.recPrio
      ∧ s'.mem = s.mem ∧ s'.cores = s.cores

/-- R127: `exit` of a task with no transfer, store, region or engine operation outstanding and no caller removes the thread from its
phase; a note it has is resolved with the value of a by an operation on its way to the note's home. -/
def Sys2Proof.Claims.ExitEnds : Prop :=
  ∀ (o : OpR) (s : State) (t : Thread), Clear (.exit_ o) s t → Readable t s o.w [o.a] [] → t.exiting = none → t.caller = none →
    t.handler = none → t.unretired = [] → t.region.homes = [] → s.xfersOf t.tid = [] → s.storesOf t.tid = [] →
    s.engineOf t = none →
    ∃ s', exec (.exit_ o) s = .next s' ∧ s'.thread? t.tid = none
      ∧ s'.noteOps = s.noteOps ++ match t.note with
        | some h => [⟨.resolve, h, srcVal t s o.w o.a, 0#8, t.tid, t.ctx, t.coreId, false, [], false, none⟩]
        | none => []

namespace Sys2Proof.Claims

/-! ### Vector instructions (R105-R111) -/

/-- A vector instruction with a vector destination: the registers it reads, and the bit pattern of a lane (R107-R111). -/
def lanes : Instr → Option (OpV × (List Reg × (Thread → State → Nat → Nat)))
  | .vadd o => some (o, [o.a, o.b], intLane o fun f x y => f.putInt (x + y))
  | .vsub o => some (o, [o.a, o.b], intLane o fun f x y => f.putInt (x - y))
  | .vmul o => some (o, [o.a, o.b], intLane o fun f x y => f.putInt (x * y))
  | .vmulh o => some (o, [o.a, o.b], intLane o fun f x y => f.putInt (x * y / (2 ^ fmtBits f.fr : Nat)))
  | .vand o => some (o, [o.a, o.b], intLane o fun f x y => f.putInt x &&& f.putInt y)
  | .vor o => some (o, [o.a, o.b], intLane o fun f x y => f.putInt x ||| f.putInt y)
  | .vxor o => some (o, [o.a, o.b], intLane o fun f x y => f.putInt x ^^^ f.putInt y)
  | .vsll o => some (o, [o.a, o.b], intLane o fun f x y =>
      f.putInt x * 2 ^ (y % (fmtBits f.fr : Int)).toNat % 2 ^ fmtBits f.fr)
  | .vsrl o => some (o, [o.a, o.b], intLane o fun f x y => f.putInt x / 2 ^ (y % (fmtBits f.fr : Int)).toNat)
  | .vsra o => some (o, [o.a, o.b], intLane o fun f x y =>
      lowBits (fmtBits f.fr) (toSigned (fmtBits f.fr) (f.putInt x) / (2 ^ (y % (fmtBits f.fr : Int)).toNat : Nat)))
  | .vmin o => some (o, [o.a, o.b], intLane o fun f x y => f.putInt (if x ≤ y then x else y))
  | .vmax o => some (o, [o.a, o.b], intLane o fun f x y => f.putInt (if x ≤ y then y else x))
  | .vfadd o => some (o, [o.a, o.b], floatLane o addNum)
  | .vfsub o => some (o, [o.a, o.b], floatLane o fun rc x y => addNum rc x (negNum y))
  | .vfmul o => some (o, [o.a, o.b], floatLane o fun _ x y => mulNum x y)
  | .vfma o => some (o, [o.a, o.b, o.d], fun t s i => floatLane o
      (fun rc x y => addNum rc (mulNum x y) (decodeNum (t.fmts 9).fr ((t.c.vec o.d).lane i))) t s i)
  | .vfmax o => some (o, [o.a, o.b], floatLane o fun _ x y => maxNum x y)
  | .vfmin o => some (o, [o.a, o.b], floatLane o fun _ x y => minNum x y)
  | .vbcast o => some (o, [o.a], fun t s _ => (srcVal t s 0#2 o.a).toNat % 2 ^ 32)
  | .vins o => some (o, [o.a, o.b], fun t s i =>
      if i = (srcVal t s 0#2 o.b).toNat % 32 then (srcVal t s 0#2 o.a).toNat % 2 ^ 32 else (t.c.vec o.d).lane i)
  | .vrot o => some (o, [o.a, o.b], fun t s i => (t.c.vec o.a).lane ((i + (srcVal t s 0#2 o.b).toNat % 32) % 32))
  | .vperm o => some (o, [o.a, o.b], fun t _ i => (t.c.vec o.a).lane ((t.c.vec o.b).lane i % 32))
  | .vcvt o => some (o, [o.a], fun t _ i =>
      convert (t.fmts 9).fa (t.fmts 9).fr (t.fmts 9).rc (t.fmts 9).sat ((t.c.vec o.a).lane i))
  | .vexp2 o => some (o, [o.a], fun t _ i => transLane o exp2Def t i)
  | .vrcp o => some (o, [o.a], fun t _ i => transLane o rcpDef t i)
  | .vrsq o => some (o, [o.a], fun t _ i => transLane o rsqDef t i)
  | .vgelu o => some (o, [o.a], fun t _ i => transLane o geluDef t i)
  | _ => none

/-- A vector compare: the truth of a lane (R107, R108). -/
def compares : Instr → Option (OpV × (Thread → State → Nat → Bool))
  | .vclt o => some (o, fun t s i => decide (intValue (t.fmts 3).fa ((t.c.vec o.a).lane i) < intValue (t.fmts 3).fb (bLane t s o.b i)))
  | .vceq o => some (o, fun t s i => decide (intValue (t.fmts 3).fa ((t.c.vec o.a).lane i) = intValue (t.fmts 3).fb (bLane t s o.b i)))
  | .vfclt o => some (o, floatCmp o ltNum)
  | .vfceq o => some (o, floatCmp o eqNum)
  | _ => none

/-- A vector instruction with a scalar result: the registers it reads and the result (R109, R110). -/
def reductions : Instr → Option (OpV × (List Reg × (Thread → State → Word)))
  | .vext o => some (o, [o.a, o.b], fun t s => dn ((t.c.vec o.a).lane ((srcVal t s 0#2 o.b).toNat % 32)))
  | .vredadd o => some (o, [o.a], fun t _ => sumLanes o t)
  | .vredmax o => some (o, [o.a], fun t _ => maxLanes o t)
  | .kget o => some (o, [], fun t _ => dn (t.c.mask o.k.toNat).toNat)
  | _ => none

/-- The lane of an integer row in the formats in force without a prefix, two 32-bit signed operands and a 32-bit result (R106, R107). -/
def int32 : Instr → Option (OpV × (W32 → W32 → W32))
  | .vadd o => some (o, fun a b => a + b)
  | .vsub o => some (o, fun a b => a - b)
  | .vmul o => some (o, fun a b => a * b)
  | .vmulh o => some (o, fun a b => BitVec.ofInt 32 (a.toInt * b.toInt / 2 ^ 32))
  | .vand o => some (o, fun a b => a &&& b)
  | .vor o => some (o, fun a b => a ||| b)
  | .vxor o => some (o, fun a b => a ^^^ b)
  | .vsll o => some (o, fun a b => a <<< (b.toNat % 32))
  | .vsrl o => some (o, fun a b => a >>> (b.toNat % 32))
  | .vsra o => some (o, fun a b => a.sshiftRight (b.toNat % 32))
  | .vmin o => some (o, fun a b => if a.toInt < b.toInt then a else b)
  | .vmax o => some (o, fun a b => if a.toInt < b.toInt then b else a)
  | _ => none

end Sys2Proof.Claims

/-- R105, R112: a vector instruction with a vector destination completes: each lane that mask k marks active takes its value, the others
keep theirs, d is full, no other register changes, and a pending prefix is consumed. -/
def Sys2Proof.Claims.VectorLanes : Prop :=
  ∀ (i : Instr) (o : OpV) (srcs : List Reg) (f : Thread → State → Nat → Nat) (s : State) (t : Thread),
    lanes i = some (o, srcs, f) → Clear i s t → Readable t s 0#2 srcs [] →
    ∃ s' u, exec i s = .next s' ∧ s'.thread? t.tid = some u ∧ u.pc = t.pc + 4#64 ∧ u.csr.pfx = false
      ∧ (∀ n, n < 32 → (u.c.vec o.d).lane n = if (t.c.mask o.k.toNat).getLsbD n
          then f (chargedThread i t s) (chargedState i t s) n % 2 ^ 32 else (t.c.vec o.d).lane n)
      ∧ u.c.isFull o.d = true ∧ (∀ r : Reg, r ≠ o.d → 48 ≤ r.toNat → u.c.vec r = t.c.vec r ∧ u.c.isFull r = t.c.isFull r)
      ∧ u.c.x = t.c.x ∧ u.c.k = t.c.k ∧ u.c.p = t.c.p ∧ u.c.q0 = t.c.q0 ∧ u.c.q1 = t.c.q1
      ∧ (t.handler = none → s'.mem = s.mem)

/-- R107, R108: a compare writes mask d, inactive lanes 0; `kset` writes a mask from a scalar; k0 cannot be named as a destination (it
reads all ones). -/
def Sys2Proof.Claims.VectorMasks : Prop :=
  (∀ (i : Instr) (o : OpV) (f : Thread → State → Nat → Bool) (s : State) (t : Thread),
    compares i = some (o, f) → Clear i s t → Readable t s 0#2 [o.a, o.b] [] →
    ∃ s' u, exec i s = .next s' ∧ s'.thread? t.tid = some u ∧ u.pc = t.pc + 4#64 ∧ u.csr.pfx = false
      ∧ (∀ n, n < 32 → (u.c.mask o.d.toNat).getLsbD n
          = ((t.c.mask o.k.toNat).getLsbD n && f (chargedThread i t s) (chargedState i t s) n))
      ∧ (∀ n, n < 8 → n ≠ o.d.toNat → u.c.mask n = t.c.mask n) ∧ u.c.x = t.c.x ∧ u.c.v = t.c.v ∧ u.c.p = t.c.p)
  ∧ (∀ (o : OpV) (s : State) (t : Thread), Clear (.kset o) s t → Readable t s 0#2 [o.a] [] →
    ∃ s' u, exec (.kset o) s = .next s' ∧ s'.thread? t.tid = some u ∧ u.pc = t.pc + 4#64 ∧ u.csr.pfx = false
      ∧ u.c.mask o.d.toNat = BitVec.ofNat 32 (srcVal t s 0#2 o.a).toNat
      ∧ (∀ n, n < 8 → n ≠ o.d.toNat → u.c.mask n = t.c.mask n) ∧ u.c.x = t.c.x ∧ u.c.v = t.c.v ∧ u.c.p = t.c.p)
  ∧ ∀ o : OpV, (Instr.kset o).wf = true → o.d.toNat ≠ 0

/-- R109, R110: extraction, the reductions and `kget` give their value as a scalar result. -/
def Sys2Proof.Claims.VectorReductions : Prop :=
  ∀ (i : Instr) (o : OpV) (srcs : List Reg) (f : Thread → State → Word) (s : State) (t : Thread),
    reductions i = some (o, srcs, f) → Clear i s t → Readable t s 0#2 srcs [o.d] →
    ∃ s' u x, exec i s = .next s' ∧ s'.thread? t.tid = some u ∧ u.pc = t.pc + 4#64 ∧ u.csr.pfx = false
      ∧ x = f (chargedThread i t s) (chargedState i t s) ∧ Holds t s 0#2 o.d x u s' ∧ u.c.q0 = x ∧ u.c.q1 = t.c.q0
      ∧ othersKept t u o.d

/-- R106, R107: without a prefix the integer rows work on 32-bit signed lanes and wrap, for a vector operand b. -/
def Sys2Proof.Claims.VectorInt32 : Prop :=
  ∀ (i : Instr) (o : OpV) (g : W32 → W32 → W32) (t : Thread) (s : State) (srcs : List Reg) (f : Thread → State → Nat → Nat) (n : Nat),
    int32 i = some (o, g) → lanes i = some (o, srcs, f) → t.csr.pfx = false → isVec o.b = true → n < 32 →
    BitVec.ofNat 32 (f t s n) = g (BitVec.ofNat 32 ((t.c.vec o.a).lane n)) (BitVec.ofNat 32 ((t.c.vec o.b).lane n))

/-- R20-R26: a finite bit pattern of either 8-bit float format keeps its bits through decoding and rounding under every rounding code, with
the sat bit and without; an infinity of F8B keeps its bits without the sat bit and gives the largest finite value of its sign with it; a NaN
gives its format's canonical NaN. -/
def Obligations.RoundKeepsF8 : Prop :=
  ∀ (f : Nat) (ff : FloatFmt) (rc x : Nat), (f = 5 ∨ f = 6) → floatFmt f = some ff → rc < 4 → x < 256 →
    (∀ (sat sign : Bool) (m : Nat) (e : Int), decodeFloat ff x = .fin sign m e → roundFmt ff rc sat (decodeFloat ff x) = x)
    ∧ (∀ sign : Bool, decodeFloat ff x = .inf sign → f = 6 ∧ roundFmt ff rc false (decodeFloat ff x) = x
      ∧ roundFmt ff rc true (decodeFloat ff x) = if sign then 0xFB else 0x7B)
    ∧ (∀ sat : Bool, decodeFloat ff x = .nan → roundFmt ff rc sat (decodeFloat ff x) = if f = 5 then 0x80 else 0x7E)

namespace Sys2Proof.Claims

/-! ### Accesses (R154, R155, R209) -/

/-- How a loaded value becomes a register value (R154): bytes sign-extended, zero-extended, or a vector's 128 bytes. -/
inductive How where
  | signed | zero | vector

/-- Scratchpad, tile-store and global loads with their size and extension (R154, R209). -/
def nearLoads : Instr → Option (OpI × (Nat × How))
  | .ldlB o => some (o, 1, .signed)
  | .ldlH o => some (o, 2, .signed)
  | .ldlW o => some (o, 4, .signed)
  | .ldlD o => some (o, 8, .zero)
  | .ldlBz o => some (o, 1, .zero)
  | .ldlHz o => some (o, 2, .zero)
  | .ldlWz o => some (o, 4, .zero)
  | .ldlV o => some (o, 128, .vector)
  | _ => none
def tileLoads : Instr → Option (OpI × (Nat × How))
  | .ldcB o => some (o, 1, .signed)
  | .ldcH o => some (o, 2, .signed)
  | .ldcW o => some (o, 4, .signed)
  | .ldcD o => some (o, 8, .zero)
  | .ldcBz o => some (o, 1, .zero)
  | .ldcHz o => some (o, 2, .zero)
  | .ldcWz o => some (o, 4, .zero)
  | .ldcV o => some (o, 128, .vector)
  | _ => none
def globalLoads : Instr → Option (OpI × (Nat × How))
  | .ldgB o => some (o, 1, .signed)
  | .ldgH o => some (o, 2, .signed)
  | .ldgW o => some (o, 4, .signed)
  | .ldgD o => some (o, 8, .zero)
  | .ldgBz o => some (o, 1, .zero)
  | .ldgHz o => some (o, 2, .zero)
  | .ldgWz o => some (o, 4, .zero)
  | .ldgV o => some (o, 128, .vector)
  | _ => none
/-- The stores with their size. -/
def nearStores : Instr → Option (OpS × Nat)
  | .stlB o => some (o, 1)
  | .stlH o => some (o, 2)
  | .stlW o => some (o, 4)
  | .stlD o => some (o, 8)
  | .stlV o => some (o, 128)
  | _ => none
def tileStores : Instr → Option (OpS × Nat)
  | .stcB o => some (o, 1)
  | .stcH o => some (o, 2)
  | .stcW o => some (o, 4)
  | .stcD o => some (o, 8)
  | .stcV o => some (o, 128)
  | _ => none
def globalStores : Instr → Option (OpS × Nat)
  | .stgB o => some (o, 1)
  | .stgH o => some (o, 2)
  | .stgW o => some (o, 4)
  | .stgD o => some (o, 8)
  | .stgV o => some (o, 128)
  | _ => none

/-- Base plus signed immediate times size (R154). -/
def address (base : Word) (imm : BitVec 11) (size : Nat) : Word := dw (base.toNat + signedOf 11 imm.toNat * size)

/-- The scalar that `size` bytes with value `v` become. -/
def scalarOf (how : How) (size v : Nat) : Word :=
  match how with
  | .signed => dw (signedOf (8 * size) v)
  | _ => dn v

/-- What a load's destination holds (R105, R154). -/
def Loaded (how : How) (size v : Nat) (t : Thread) (s : State) (d : Reg) (u : Thread) (s' : State) : Prop :=
  match how with
  | .vector => (∀ n, n < 32 → (u.c.vec d).lane n = v / 2 ^ (32 * n) % 2 ^ 32) ∧ u.c.isFull d = true ∧ u.c.x = t.c.x ∧ u.c.q0 = t.c.q0
  | _ => Holds t s 0#2 d (scalarOf how size v) u s' ∧ u.c.q0 = scalarOf how size v ∧ u.c.q1 = t.c.q0 ∧ othersKept t u d

/-- The number in the low bytes of what a store writes: a vector register's lanes, or a scalar (R155). -/
def storeByte (t : Thread) (s : State) (b : Reg) (k : Nat) : Byte :=
  if isVec b then BitVec.ofNat 8 ((t.c.vec b).lane (k / 4) / 256 ^ (k % 4)) else BitVec.ofNat 8 ((srcVal t s 0#2 b).toNat / 256 ^ k)

/-- No word of `unit` bytes that [a, a + n) touches is among the uncorrectable ones. -/
def soundRange (bad : List Nat) (unit a n : Nat) : Prop := firstBad bad unit a n = none
/-- Address `a + k` is the first of [a, a + n) that lies in an uncorrectable word of `unit` bytes. -/
def badFirst (bad : List Nat) (unit a n k : Nat) : Prop :=
  k < n ∧ (a + k) / unit * unit ∈ bad ∧ ∀ j, j < k → (a + j) / unit * unit ∉ bad

/-- A task that takes a trap at its instruction and is not killed by it (R130, R132). -/
structure HasHandler (t : Thread) : Prop where
  task : t.isFw = false
  plain : t.handler = none
  base : t.csr.tbase ≠ 0#64
  first : ¬ (t.csr.trap = true ∧ t.pc = t.csr.tbase)
  aligned : t.pc.toNat % 4 = 0
/-- It has taken the trap with this cause code and value, at its instruction; no register has changed (R129, R130). -/
structure Trapped (t : Thread) (code : BitVec 8) (v : Word) (u : Thread) : Prop where
  pc : u.pc = t.csr.tbase
  cause : u.csr.tcause = code
  value : u.csr.tval = v
  epc : u.csr.tepc = t.pc
  trap : u.csr.trap = true
  regs : u.c = t.c
  goes : u.run = .runnable

/-- No cancel request waits for its blocking point (R262). -/
def Uncancelled (t : Thread) : Prop := t.csr.creq = true → t.creqAck = true
/-- A task that waits for a reply where it stands: it is in a phase of a core, no handler, and neither a cancel request (R262) nor a
migration (R149), a pre-emption request (R306) or an update (R454) takes it away at the blocking point. -/
structure Stays (t : Thread) (s : State) : Prop where
  place : ∃ p, t.loc = .phase t.coreId p
  plain : t.handler = none
  cancel : Uncancelled t
  target : t.migTarget = none ∧ (t.csr.pin = true ∨ t.csr.migoff = true ∨ t.csr.migThresh = 0#16)
  request : t.request = none
  calm : s.quiesce = none

end Sys2Proof.Claims

/-- R151, R155, R186: a scratchpad load whose address is aligned and inside the scratchpad, and whose bytes can be read, completes with
those bytes; a misaligned one traps MISALIGNED, otherwise one past the end ACCESS, both with the address as TVAL, and one that reads an
uncorrectable word UE with its first such byte. -/
def Sys2Proof.Claims.ScratchpadLoads : Prop :=
  ∀ (i : Instr) (o : OpI) (size : Nat) (how : How) (s : State) (t : Thread),
    nearLoads i = some (o, size, how) → Clear i s t → Readable t s 0#2 [o.a] [o.d] →
    let ea := address (srcVal t s 0#2 o.a) o.imm size
    (ea.toNat % size = 0 → ea.toNat + size ≤ (s.near t).size → soundRange (s.near t).bad 8 ea.toNat size →
      ∃ s' u, exec i s = .next s' ∧ s'.thread? t.tid = some u ∧ u.pc = t.pc + 4#64
        ∧ Loaded how size (Memory.read (s.near t).spad ea.toNat size) t s o.d u s' ∧ (s'.near u).spad = (s.near t).spad)
    ∧ (ea.toNat % size ≠ 0 →
      exec i s = .next (takeTrap (chargedThread i t s) .misaligned ea t.pc (chargedState i t s)))
    ∧ (ea.toNat % size = 0 → (s.near t).size < ea.toNat + size →
      exec i s = .next (takeTrap (chargedThread i t s) .access ea t.pc (chargedState i t s)))
    ∧ (∀ k, ea.toNat % size = 0 → ea.toNat + size ≤ (s.near t).size → badFirst (s.near t).bad 8 ea.toNat size k →
      exec i s = .next (takeTrap (chargedThread i t s) .ue (dn (ea.toNat + k)) t.pc (chargedState i t s)))

/-- R151, R155: a scratchpad store that is aligned and inside the scratchpad writes exactly the bytes of its width there, and no other
byte of any scratchpad; no register changes, nor the tile stores. A misaligned one traps MISALIGNED, otherwise one past the end ACCESS. -/
def Sys2Proof.Claims.ScratchpadStores : Prop :=
  ∀ (i : Instr) (o : OpS) (size : Nat) (s : State) (t : Thread),
    nearStores i = some (o, size) → Clear i s t → Readable t s 0#2 [o.a, o.b] [] →
    let ea := address (srcVal t s 0#2 o.a) o.imm size
    (ea.toNat % size = 0 → ea.toNat + size ≤ (s.near t).size →
      ∃ s' u, exec i s = .next s' ∧ s'.thread? t.tid = some u ∧ u.pc = t.pc + 4#64 ∧ u.c = t.c
        ∧ (∀ k, k < size → Memory.get (s'.near u).spad (ea.toNat + k) = storeByte t s o.b k)
        ∧ (∀ a, a < ea.toNat ∨ ea.toNat + size ≤ a → Memory.get (s'.near u).spad a = Memory.get (s.near t).spad a)
        ∧ (∀ n, t.isFw = true ∨ n ≠ t.coreId → (s'.core n).spad = (s.core n).spad)
        ∧ s'.clusters = s.clusters ∧ (t.handler = none → s'.mem = s.mem))
    ∧ (ea.toNat % size ≠ 0 →
      exec i s = .next (takeTrap (chargedThread i t s) .misaligned ea t.pc (chargedState i t s)))
    ∧ (ea.toNat % size = 0 → (s.near t).size < ea.toNat + size →
      exec i s = .next (takeTrap (chargedThread i t s) .access ea t.pc (chargedState i t s)))

namespace Sys2Proof.Claims

/-- The traps of a tile-store access at its issue (R155, R156): MISALIGNED, then ACCESS past the end or where the job does not hold the
cluster. -/
def TileTraps (i : Instr) (s : State) (t : Thread) (ea : Word) (size : Nat) : Prop :=
  (ea.toNat % size ≠ 0 → exec i s = .next (takeTrap (chargedThread i t s) .misaligned ea t.pc (chargedState i t s)))
  ∧ (ea.toNat % size = 0 → 4194304 < ea.toNat + size ∨ s.holds t.ctx t.cluster = false →
    exec i s = .next (takeTrap (chargedThread i t s) .access ea t.pc (chargedState i t s)))

end Sys2Proof.Claims

/-- R155, R156, R158, R186: a tile-store load by a job that holds its cluster, aligned and inside the tile store, leaves the rotation; its
reply gives it the bytes, or UE with the first byte that is in an uncorrectable word. A misaligned one traps MISALIGNED at issue, otherwise one
past the end, or of a job that does not hold the cluster, ACCESS. -/
def Sys2Proof.Claims.TileStoreLoads : Prop :=
  ∀ (i : Instr) (o : OpI) (size : Nat) (how : How) (s : State) (t : Thread),
    tileLoads i = some (o, size, how) → Clear i s t → Readable t s 0#2 [o.a] [o.d] → Stays t s →
    let ea := address (srcVal t s 0#2 o.a) o.imm size
    TileTraps i s t ea size
    ∧ (ea.toNat % size = 0 → ea.toNat + size ≤ 4194304 → s.holds t.ctx t.cluster = true →
      ∃ s1 u1 s2, exec i s = .next s1 ∧ s1.thread? t.tid = some u1 ∧ u1.pc = t.pc ∧ u1.c = t.c ∧ u1.run.pending.isSome = true
        ∧ exec (.memoryReply t.tid) s1 = .next s2
        ∧ (soundRange (s.cluster t.cluster).tileUE 16 ea.toNat size →
          ∃ u2, s2.thread? t.tid = some u2 ∧ u2.run = .runnable ∧ u2.pc = t.pc + 4#64
            ∧ Loaded how size (Memory.read (s.cluster t.cluster).tile ea.toNat size) t s o.d u2 s2 ∧ s2.clusters = s.clusters)
        ∧ ∀ k, HasHandler t → badFirst (s.cluster t.cluster).tileUE 16 ea.toNat size k →
          ∃ u2, s2.thread? t.tid = some u2 ∧ Trapped t 0x05#8 (dn (ea.toNat + k)) u2)

/-- R155, R158, R160: a tile-store store leaves the rotation; its reply writes exactly the bytes of its width in the cluster's tile store
and changes no layout tag. It traps as a load does. -/
def Sys2Proof.Claims.TileStoreStores : Prop :=
  ∀ (i : Instr) (o : OpS) (size : Nat) (s : State) (t : Thread),
    tileStores i = some (o, size) → Clear i s t → Readable t s 0#2 [o.a, o.b] [] → Stays t s →
    let ea := address (srcVal t s 0#2 o.a) o.imm size
    TileTraps i s t ea size
    ∧ (ea.toNat % size = 0 → ea.toNat + size ≤ 4194304 → s.holds t.ctx t.cluster = true →
      ∃ s1 u1 s2 u2, exec i s = .next s1 ∧ s1.thread? t.tid = some u1 ∧ u1.pc = t.pc ∧ u1.run.pending.isSome = true
        ∧ exec (.memoryReply t.tid) s1 = .next s2 ∧ s2.thread? t.tid = some u2 ∧ u2.run = .runnable ∧ u2.pc = t.pc + 4#64
        ∧ u2.c.x = t.c.x ∧ u2.c.v = t.c.v
        ∧ (∀ k, k < size → Memory.get (s2.cluster t.cluster).tile (ea.toNat + k) = storeByte t s o.b k)
        ∧ (∀ a, a < ea.toNat ∨ ea.toNat + size ≤ a → Memory.get (s2.cluster t.cluster).tile a = Memory.get (s.cluster t.cluster).tile a)
        ∧ (s2.cluster t.cluster).ltags = (s.cluster t.cluster).ltags)

namespace Sys2Proof.Claims

/-- No synchronisation region of a thread holds anything that must retire (R230, R235): a synchronising instruction then has its effect
at once. -/
def RegionsDone (t : Thread) (s : State) : Prop := t.unretired = [] ∧ t.region.homes = [] ∧ s.xfersOf t.tid = []

/-- The tagged-word instructions (R163): window, address register, other sources, destinations, the full bit they wait for, whether they
read the word, and from the word, its full bit and the value of field b: the word and full bit they leave and the scalar result. -/
def tagged : Instr → Option (OpR × (List Reg × (List Reg × (Option Bool × (Bool × (Word → Bool → Word → Word × (Bool × Option Word)))))))
  | .ldlFr o => some (o, [], [o.d], some true, true, fun v _ _ => (v, true, some v))
  | .ldlFe o => some (o, [], [o.d], some true, true, fun v _ _ => (v, false, some v))
  | .stlEf o => some (o, [o.b], [], some false, false, fun _ _ b => (b, true, none))
  | .stlXf o => some (o, [o.b], [], none, false, fun _ _ b => (b, true, none))
  | .felClr o => some (o, [], [], none, false, fun v _ _ => (v, false, none))
  | .felQ o => some (o, [], [o.d], none, false, fun v f _ => (v, f, some (flag (f = true))))
  | .stlTf o => some (o, [o.b], [o.d], none, false, fun v f b => (if f then v else b, true, some (flag (f = false))))
  | _ => none

/-- The full bit of a tagged word (R162). -/
def fullAt (l : LocalStore) (a : Nat) : Bool := l.tagFull.contains a

/-- A thread has parked where it is on a condition, with no register changed and nothing of any core (R134, R135). -/
def ParkedOn (t : Thread) (kind : WakeKind) (detail : Nat) (operand : Word) (s s' : State) : Prop :=
  ∃ u w, s'.thread? t.tid = some u ∧ u.run = .parked w false ∧ w.kind = kind ∧ w.detail = BitVec.ofNat 32 detail
    ∧ w.operand = operand ∧ u.pc = t.pc ∧ u.c = t.c ∧ u.csr.done = t.csr.done ∧ s'.cores = s.cores

/-- The completion test of a barrier (R182): with all arrivals in and no bytes awaited it starts over with the other phase. -/
def tested (b : Barrier) : Barrier :=
  if b.expect.toNat ≤ b.arr.toNat ∧ b.pend ≤ 0 then { b with arr := 0#16, ph := !b.ph } else b

end Sys2Proof.Claims

/-- R162, R163: each tagged-word instruction on an aligned word of the tagged region, full or empty as it requires, completes with the word,
the full bit and the scalar result its row gives, and changes no other word and no other full bit. On a misaligned address it traps
MISALIGNED, and on one outside the region ACCESS. -/
def Sys2Proof.Claims.TaggedWords : Prop :=
  ∀ (i : Instr) (o : OpR) (srcs dst : List Reg) (want : Option Bool) (reads : Bool)
    (f : Word → Bool → Word → Word × (Bool × Option Word)) (s : State) (t : Thread),
    tagged i = some (o, srcs, dst, want, reads, f) → Clear i s t → Readable t s o.w (o.a :: srcs) dst → RegionsDone t s →
    let ea := (srcVal t s o.w o.a).toNat
    ea % 8 = 0 → ea < (s.near t).tagged → (∀ b, want = some b → fullAt (s.near t) ea = b) →
    (reads = true → soundRange (s.near t).bad 8 ea 8) →
    let old := dn (Memory.read (s.near t).spad ea 8)
    let r := f old (fullAt (s.near t) ea) (srcVal t s o.w o.b)
    ∃ s' u, exec i s = .next s' ∧ s'.thread? t.tid = some u ∧ u.pc = t.pc + 4#64
      ∧ dn (Memory.read (s'.near u).spad ea 8) = r.1 ∧ fullAt (s'.near u) ea = r.2.1
      ∧ (∀ a, a ≠ ea → fullAt (s'.near u) a = fullAt (s.near t) a)
      ∧ (∀ a, a < ea ∨ ea + 8 ≤ a → Memory.get (s'.near u).spad a = Memory.get (s.near t).spad a)
      ∧ (∀ x, r.2.2 = some x → Holds t s o.w o.d x u s' ∧ u.c.q0 = x)

/-- R163: the traps of a tagged-word instruction. -/
def Sys2Proof.Claims.TaggedWordsTrap : Prop :=
  ∀ (i : Instr) (o : OpR) (srcs dst : List Reg) (want : Option Bool) (reads : Bool)
    (f : Word → Bool → Word → Word × (Bool × Option Word)) (s : State) (t : Thread),
    tagged i = some (o, srcs, dst, want, reads, f) → Clear i s t → Readable t s o.w (o.a :: srcs) dst →
    let ea := srcVal t s o.w o.a
    (ea.toNat % 8 ≠ 0 → exec i s = .next (takeTrap (chargedThread i t s) .misaligned ea t.pc (chargedState i t s)))
    ∧ (ea.toNat % 8 = 0 → (s.near t).tagged ≤ ea.toNat →
      exec i s = .next (takeTrap (chargedThread i t s) .access ea t.pc (chargedState i t s)))

/-- R163, R135: a tagged-word instruction that finds its word in the other state parks on it with kind FEWORD and its address, and changes
no register. -/
def Sys2Proof.Claims.TaggedWordsPark : Prop :=
  ∀ (i : Instr) (o : OpR) (srcs dst : List Reg) (b reads : Bool) (f : Word → Bool → Word → Word × (Bool × Option Word))
    (s : State) (t : Thread),
    tagged i = some (o, srcs, dst, some b, reads, f) → Clear i s t → Readable t s o.w (o.a :: srcs) dst → Stays t s →
    let ea := srcVal t s o.w o.a
    ea.toNat % 8 = 0 → ea.toNat < (s.near t).tagged → fullAt (s.near t) ea.toNat = !b →
    ∃ s', exec i s = .next s' ∧ ParkedOn t .feword (if b then 1 else 0) ea s s'

/-- R182, R183: `bar.init` sets the expected count and clears the rest but the phase bit; `bar.exp` announces a signed number of bytes;
`bar.arr` arrives and gives the phase bit before; `bar.wait` goes on when the phase bit differs from b, and else parks with kind BARRIER,
the barrier and the phase bit awaited; `bar.q` gives the state words; and `bar.sync` whose arrival completes the phase goes on at once. The
completion test follows each change, and a barrier number above 255 traps ACCESS. No other barrier of the core changes. -/
def Obligations.Barriers : Prop :=
  (∀ (o : OpR) (s : State) (t : Thread), Clear (.barInit o) s t → Readable t s o.w [o.a, o.b] [] →
    (srcVal t s o.w o.a).toNat < 256 →
    let n := (srcVal t s o.w o.a).toNat
    ∃ s' u, exec (.barInit o) s = .next s' ∧ s'.thread? t.tid = some u ∧ u.pc = t.pc + 4#64 ∧ u.c = t.c
      ∧ (s'.near u).barrier n = tested { (s.near t).barrier n with
          expect := BitVec.ofNat 16 (srcVal t s o.w o.b).toNat, arr := 0#16, pend := 0, ovr := false }
      ∧ ∀ m, m ≠ n → (s'.near u).barrier m = (s.near t).barrier m)
  ∧ (∀ (o : OpR) (s : State) (t : Thread), Clear (.barExp o) s t → Readable t s o.w [o.a, o.b] [] →
    (srcVal t s o.w o.a).toNat < 256 →
    let n := (srcVal t s o.w o.a).toNat
    let b := (s.near t).barrier n
    (b.pend + (srcVal t s o.w o.b).toInt).natAbs < 2 ^ 55 →
    ∃ s' u, exec (.barExp o) s = .next s' ∧ s'.thread? t.tid = some u ∧ u.pc = t.pc + 4#64 ∧ u.c = t.c
      ∧ (s'.near u).barrier n = tested { b with pend := b.pend + (srcVal t s o.w o.b).toInt }
      ∧ ∀ m, m ≠ n → (s'.near u).barrier m = (s.near t).barrier m)
  ∧ (∀ (o : OpR) (s : State) (t : Thread), Clear (.barArr o) s t → Readable t s o.w [o.a] [o.d] → RegionsDone t s →
    (srcVal t s o.w o.a).toNat < 256 →
    let n := (srcVal t s o.w o.a).toNat
    let b := (s.near t).barrier n
    b.arr.toNat < 65535 →
    ∃ s' u, exec (.barArr o) s = .next s' ∧ s'.thread? t.tid = some u ∧ u.pc = t.pc + 4#64 ∧ u.c.q0 = flag (b.ph = true)
      ∧ Holds t s o.w o.d (flag (b.ph = true)) u s'
      ∧ (s'.near u).barrier n = tested { b with arr := b.arr + 1#16 }
      ∧ ∀ m, m ≠ n → (s'.near u).barrier m = (s.near t).barrier m)
  ∧ (∀ (o : OpR) (s : State) (t : Thread), Clear (.barWait o) s t → Readable t s o.w [o.a, o.b] [] → RegionsDone t s →
    (srcVal t s o.w o.a).toNat < 256 →
    ((s.near t).barrier (srcVal t s o.w o.a).toNat).ph ≠ (srcVal t s o.w o.b).getLsbD 0 →
    ∃ s' u, exec (.barWait o) s = .next s' ∧ s'.thread? t.tid = some u ∧ u.pc = t.pc + 4#64 ∧ u.c = t.c
      ∧ ∀ m, (s'.near u).barrier m = (s.near t).barrier m)
  ∧ (∀ (o : OpR) (s : State) (t : Thread), Clear (.barWait o) s t → Readable t s o.w [o.a, o.b] [] → Stays t s →
    (srcVal t s o.w o.a).toNat < 256 →
    let old := (srcVal t s o.w o.b).getLsbD 0
    ((s.near t).barrier (srcVal t s o.w o.a).toNat).ph = old →
    ∃ s', exec (.barWait o) s = .next s'
      ∧ ParkedOn t .barrier ((srcVal t s o.w o.a).toNat + (if old then 0 else 256)) 0#64 s s')
  ∧ (∀ (o : OpR) (s : State) (t : Thread), Clear (.barQ o) s t → Readable t s o.w [o.a, o.b] [o.d] →
    (srcVal t s o.w o.a).toNat < 256 → (srcVal t s o.w o.b).toNat < 2 →
    let b := (s.near t).barrier (srcVal t s o.w o.a).toNat
    ∃ s' u x, exec (.barQ o) s = .next s' ∧ s'.thread? t.tid = some u ∧ u.pc = t.pc + 4#64
      ∧ x = (if srcVal t s o.w o.b = 0#64 then b.word else dn (b.expect.toNat * 2 ^ 16 + b.arr.toNat))
      ∧ u.c.q0 = x ∧ Holds t s o.w o.d x u s' ∧ ∀ m, (s'.near u).barrier m = (s.near t).barrier m)
  ∧ (∀ (o : OpR) (s : State) (t : Thread), Clear (.barSync o) s t → Readable t s o.w [o.a] [] → RegionsDone t s → t.synced = none →
    (srcVal t s o.w o.a).toNat < 256 →
    let n := (srcVal t s o.w o.a).toNat
    let b := (s.near t).barrier n
    b.arr.toNat < 65535 → b.expect.toNat ≤ b.arr.toNat + 1 → b.pend ≤ 0 →
    ∃ s' u, exec (.barSync o) s = .next s' ∧ s'.thread? t.tid = some u ∧ u.pc = t.pc + 4#64 ∧ u.c = t.c
      ∧ (s'.near u).barrier n = { b with arr := 0#16, ph := !b.ph }
      ∧ ∀ m, m ≠ n → (s'.near u).barrier m = (s.near t).barrier m)
  ∧ (∀ (i : Instr) (o : OpR) (s : State) (t : Thread),
    (i = .barInit o ∨ i = .barExp o ∨ i = .barArr o ∨ i = .barWait o ∨ i = .barQ o) → Clear i s t →
    Readable t s o.w [o.a, o.b] [o.d] → 256 ≤ (srcVal t s o.w o.a).toNat →
    exec i s = .next (takeTrap (chargedThread i t s) .access (srcVal t s o.w o.a) t.pc (chargedState i t s)))

/-- R181: with m the completion tags that a names, `tag.wany` and `tag.ffr` go on when m is not 0 or a is 0, and `tag.wall` when m is a; else
they park with kind TAGS, the mask as operand and DETAIL bit 0 set for `tag.wall`. The first two give m; `tag.ffr` gives the number of m's
lowest set bit and clears it, or 64 when a is 0. No other register changes. -/
def Obligations.TagWaits : Prop :=
  (∀ (i : Instr) (o : OpR) (all : Bool) (s : State) (t : Thread),
    (i = .tagWany o ∧ all = false ∨ i = .tagWall o ∧ all = true) → Clear i s t → Readable t s o.w [o.a] [o.d] → RegionsDone t s →
    let a := srcVal t s o.w o.a
    (if all then t.csr.done &&& a = a else t.csr.done &&& a ≠ 0#64 ∨ a = 0#64) →
    ∃ s' u, exec i s = .next s' ∧ s'.thread? t.tid = some u ∧ u.pc = t.pc + 4#64
      ∧ u.c.q0 = t.csr.done &&& a ∧ u.c.q1 = t.c.q0 ∧ Holds t s o.w o.d (t.csr.done &&& a) u s' ∧ othersKept t u o.d
      ∧ u.csr.done = t.csr.done)
  ∧ (∀ (o : OpR) (s : State) (t : Thread) (k : Nat), Clear (.tagFfr o) s t → Readable t s o.w [o.a] [o.d] → RegionsDone t s →
    let m := t.csr.done &&& srcVal t s o.w o.a
    (k < 64 → m.getLsbD k = true → (∀ j, j < k → m.getLsbD j = false) →
      ∃ s' u, exec (.tagFfr o) s = .next s' ∧ s'.thread? t.tid = some u ∧ u.pc = t.pc + 4#64
        ∧ u.c.q0 = dn k ∧ u.c.q1 = t.c.q0 ∧ Holds t s o.w o.d (dn k) u s' ∧ othersKept t u o.d
        ∧ u.csr.done = t.csr.done &&& ~~~(1#64 <<< k))
    ∧ (srcVal t s o.w o.a = 0#64 →
      ∃ s' u, exec (.tagFfr o) s = .next s' ∧ s'.thread? t.tid = some u ∧ u.pc = t.pc + 4#64
        ∧ u.c.q0 = 64#64 ∧ u.c.q1 = t.c.q0 ∧ Holds t s o.w o.d 64#64 u s' ∧ othersKept t u o.d ∧ u.csr.done = t.csr.done))
  ∧ (∀ (i : Instr) (o : OpR) (all : Bool) (s : State) (t : Thread),
    (i = .tagWany o ∧ all = false ∨ i = .tagWall o ∧ all = true ∨ i = .tagFfr o ∧ all = false) → Clear i s t →
    Readable t s o.w [o.a] [o.d] → Stays t s →
    let a := srcVal t s o.w o.a
    (if all then t.csr.done &&& a ≠ a else t.csr.done &&& a = 0#64 ∧ a ≠ 0#64) →
    ∃ s', exec i s = .next s' ∧ ParkedOn t .tags (if all then 1 else 0) a s s')

/-- R165, R167: a message to a core of the job with room in the outbound buffer enters that buffer with its entry, argument and sender; `amsg.n`
goes on and `amsg` leaves the rotation for the handler's reply; `amret` ends its handler and, where a reply is awaited, its value becomes the
sender's scalar result. A descriptor with a reserved bit set traps ACCESS. -/
def Sys2Proof.Claims.Messages : Prop :=
  (∀ (o : OpR) (s : State) (t : Thread), Clear (.amsgN o) s t → Readable t s o.w [o.a, o.b] [] → RegionsDone t s → t.handler = none →
    t.isFw = false → s.msgOk t.ctx (srcVal t s o.w o.a) = true → (s.core t.coreId).outb.length < 8 →
    s.othersBefore t .outb t.coreId = false →
    ∃ s' u m, exec (.amsgN o) s = .next s' ∧ s'.thread? t.tid = some u ∧ u.pc = t.pc + 4#64 ∧ u.c = t.c
      ∧ (s'.core t.coreId).outb = (s.core t.coreId).outb ++ [m] ∧ m.arg = srcVal t s o.w o.b ∧ m.wantReply = false
      ∧ m.sender = t.tid ∧ m.senderCoord = coordOf s.chip t.coreId ∧ m.senderPhase = t.lastPhase
      ∧ m.entry = part (srcVal t s o.w o.a) 16 32 ∧ m.target = 64 * part (srcVal t s o.w o.a) 8 8 + part (srcVal t s o.w o.a) 0 8)
  ∧ (∀ (o : OpR) (s : State) (t : Thread), Clear (.amsg o) s t → Readable t s o.w [o.a, o.b] [o.d] → RegionsDone t s → Stays t s →
    t.isFw = false → s.msgOk t.ctx (srcVal t s o.w o.a) = true → (s.core t.coreId).outb.length < 8 →
    s.othersBefore t .outb t.coreId = false →
    ∃ s' u m, exec (.amsg o) s = .next s' ∧ s'.thread? t.tid = some u ∧ u.pc = t.pc ∧ u.run.pending = some (.amsg o.d none)
      ∧ (s'.core t.coreId).outb = (s.core t.coreId).outb ++ [m] ∧ m.arg = srcVal t s o.w o.b ∧ m.wantReply = true ∧ m.sender = t.tid)
  ∧ (∀ (o : OpR) (s : State) (t v : Thread) (h : Handler) (w : Wake) (d : BitVec 6), Clear (.amret o) s t → Readable t s o.w [o.a] [] →
    t.handler = some h → h.wantReply = true → h.sender ≠ t.tid → h.charge = h.sender → s.thread? h.sender = some v →
    v.run = .out w (.amsg d none) → Stays v s → destBusy v s d = false →
    ∃ s' s2 u, exec (.amret o) s = .next s' ∧ s'.thread? t.tid = none
      ∧ exec (.memoryReply h.sender) s' = .next s2 ∧ s2.thread? h.sender = some u ∧ u.run = .runnable ∧ u.pc = v.pc + 4#64
      ∧ u.c.q0 = srcVal t s o.w o.a ∧ Holds v s 0#2 d (srcVal t s o.w o.a) u s2)
  ∧ (∀ (i : Instr) (o : OpR) (dst : List Reg) (s : State) (t : Thread), (i = .amsg o ∧ dst = [o.d] ∨ i = .amsgN o ∧ dst = []) →
    Clear i s t → Readable t s o.w [o.a, o.b] dst → part (srcVal t s o.w o.a) 48 16 ≠ 0 ∨ part (srcVal t s o.w o.a) 16 2 ≠ 0 →
    exec i s = .next (takeTrap (chargedThread i t s) .access (srcVal t s o.w o.a) t.pc (chargedState i t s)))

namespace Sys2Proof.Claims

/-! ### Transfers (R169-R177) -/

/-- The rows of R172, in its order, from the values of a, b and the control word c: `kind` is xf. -/
def row172 (xf : Nat) (a b c : Word) (t : Thread) (s : State) : Option (Cause × Word) :=
  let len := part c 0 20
  let space := part c 28 2
  let bytes := if 2 ≤ xf then len * 2 ^ part c 36 3 else len
  let room := if space = 1 then 4194304 else (s.core t.coreId).poolSpad * 4096
  if part c 33 3 ≠ 0 ∨ part c 20 8 ≠ 0 ∨ space = 3 ∨ (part c 32 1 = 1 ∧ (space ≠ 1 ∨ 2 ≤ xf)) ∨ (space = 2 ∧ xf ≠ 1)
      ∨ (space = 2 ∧ 1 ≤ a.toNat ∧ a.toNat ≤ 39 ∧ len ≠ 8) ∨ (space = 2 ∧ 48 ≤ a.toNat ∧ a.toNat ≤ 63 ∧ len ≠ 128)
      ∨ (part c 36 3 ≠ 0 ∧ xf ≤ 1) ∨ (2 ≤ xf ∧ (len = 0 ∨ 4096 < len)) then some (.access, c)
  else if space = 2 ∧ ¬ (1 ≤ a.toNat ∧ a.toNat ≤ 39 ∨ 48 ≤ a.toNat ∧ a.toNat ≤ 63) then some (.access, a)
  else if part c 39 1 = 1 ∧ ¬ (part c 56 8 < 64 ∧ part c 48 8 < 32 ∧ s.owns t.ctx (64 * part c 48 8 + part c 56 8) = true) then
    some (.access, c)
  else if space = 1 ∧ s.holds t.ctx t.cluster = false then some (.access, a)
  else if space < 2 ∧ bytes ≠ 0 ∧ room < a.toNat + bytes then some (.access, dn (max room a.toNat))
  else if xf ≤ 1 ∧ len ≠ 0 ∧ 2 ^ 52 < b.toNat + len then some (.access, b)
  else if 2 ≤ xf ∧ b.toNat % 8 ≠ 0 then some (.misaligned, b)
  else if 2 ≤ xf ∧ (s.core t.coreId).poolSpad * 4096 < b.toNat + 8 * len then some (.access, b)
  else none

/-- The transfer instructions and their xf (R170). -/
def transfers : Instr → Option (OpX × Nat)
  | .xput o => some (o, 0)
  | .xget o => some (o, 1)
  | .xgath o => some (o, 2)
  | .xscat o => some (o, 3)
  | _ => none

end Sys2Proof.Claims

/-- R169-R172, R177, R180: a transfer whose operands meet no row of R172 (with R156's check of the cluster after row 3, and an empty range
passing rows 4 and 5: the model's choices, log 47) and for which the queue has room enters the core's transfer queue with its pieces
and goes on; its tag counts one more in flight and reads not done. The pieces of a put or get without codec follow one another and none crosses
a 128-byte line. Where a row is met its trap is taken and the queue is unchanged. -/
def Obligations.TransfersEnter : Prop :=
  ∀ (i : Instr) (o : OpX) (xf : Nat) (s : State) (t : Thread), transfers i = some (o, xf) →
    Clear i s t → Readable t s 0#2 [o.a, o.b, o.c] [] → t.isFw = false →
    let a := srcVal t s 0#2 o.a
    let b := srcVal t s 0#2 o.b
    let c := srcVal t s 0#2 o.c
    match row172 xf a b c t s with
    | some r => exec i s = .next (takeTrap (chargedThread i t s) r.1 r.2 t.pc (chargedState i t s))
    | none =>
      (s.core t.coreId).xq.length < 32 → s.othersBefore t .xfer t.coreId = false →
      ∃ s' u x, exec i s = .next s' ∧ s'.thread? t.tid = some u ∧ u.pc = t.pc + 4#64
        ∧ (s'.core t.coreId).xq = (s.core t.coreId).xq ++ [x] ∧ x.tid = t.tid ∧ x.tag = o.tag.toNat ∧ x.addr = a.toNat
        ∧ x.space = part c 28 2 ∧ x.swz = part c 30 2
        ∧ x.len = (if 2 ≤ xf then part c 0 20 * 2 ^ part c 36 3 else part c 0 20)
        ∧ lookupD u.tagCount o.tag.toNat 0 = lookupD t.tagCount o.tag.toNat 0 + 1 ∧ u.csr.done.getLsbD o.tag.toNat = false
        ∧ (∀ n, n < 64 → n ≠ o.tag.toNat → u.csr.done.getLsbD n = t.csr.done.getLsbD n)
        ∧ (xf ≤ 1 → part c 32 1 = 0 →
          (x.pieces.map (·.len)).sum = part c 0 20 ∧ ∀ p ∈ x.pieces, p.va / 128 = (p.va + p.len - 1) / 128 ∧ p.va = b.toNat + p.off)
        ∧ (part c 28 2 = 2 → ∀ r : Reg, r.toNat = a.toNat → u.c.isFull r = false)

namespace Sys2Proof.Claims

/-- The ways in which a global access of a task ends at its issue without an effect (R195, R198, R209): MISALIGNED first; then, where its
translation is cached, ACCESS where it is not allowed; where it is not cached, it leaves the rotation for a walk (R198). -/
def GlobalStops (i : Instr) (s : State) (t : Thread) (need : Need) (ea : Word) (size : Nat) : Prop :=
  (ea.toNat % size ≠ 0 → exec i s = .next (takeTrap (chargedThread i t s) .misaligned ea t.pc (chargedState i t s)))
  ∧ (ea.toNat % size = 0 → s.translated t need ea.toNat = true → s.access t need ea.toNat size = .access →
    exec i s = .next (takeTrap (chargedThread i t s) .access ea t.pc (chargedState i t s)))
  ∧ (Stays t s → ea.toNat % size = 0 → s.translated t need ea.toNat = false →
    ∃ s' u w n p, exec i s = .next s' ∧ s'.thread? t.tid = some u ∧ u.pc = t.pc ∧ u.c = t.c ∧ u.run = .out w (.walk need ea size n p)
      ∧ w.kind = .memory ∧ w.operand = ea ∧ s'.mem = s.mem)

end Sys2Proof.Claims

/-- R209, R210, R208: a global load on an unchecked page, aligned, allowed, with its translation cached and neither poisoned nor answered by
an L1 copy or the store buffer leaves the rotation; its reply gives it the bytes at its home. A misaligned one traps MISALIGNED, one
that is not allowed ACCESS, and one whose translation is not cached waits for a walk. -/
def Sys2Proof.Claims.GlobalLoads : Prop :=
  ∀ (i : Instr) (o : OpI) (size : Nat) (how : How) (s : State) (t : Thread),
    globalLoads i = some (o, size, how) → Clear i s t → Readable t s 0#2 [o.a] [o.d] → t.handler = none →
    let ea := address (srcVal t s 0#2 o.a) o.imm size
    GlobalStops i s t .read ea size
    ∧ ∀ (pa : Nat) (leaf : Word), Stays t s → s.bufferOf t.coreId = [] → s.copyOf t.coreId pa = none →
      s.loadBefore t.unit pa s.nextId = false → ea.toNat % size = 0 → s.translated t .read ea.toNat = true →
      s.access t .read ea.toNat size = .ok pa leaf → leafChk leaf = false → s.awake pa = true → s.poison = [] →
      ∃ s1 u1 s2 u2, exec i s = .next s1 ∧ s1.thread? t.tid = some u1 ∧ u1.pc = t.pc ∧ u1.c = t.c ∧ u1.run.pending.isSome = true
        ∧ exec (.memoryReply t.tid) s1 = .next s2 ∧ s2.thread? t.tid = some u2 ∧ u2.run = .runnable ∧ u2.pc = t.pc + 4#64
        ∧ Loaded how size (Memory.read s.mem pa size) t s o.d u2 s2 ∧ s2.mem = s.mem

/-- R209-R212, R220: a global store on an unchecked page, aligned and allowed, with its translation cached and fewer than 64 stores
outstanding, goes on at once with its receipt as the scalar result; it is outstanding, at its home nothing is written yet; its performing,
once no earlier store of its core to its line is left, writes exactly its bytes there. It stops as a load does. -/
def Sys2Proof.Claims.GlobalStores : Prop :=
  ∀ (i : Instr) (o : OpS) (size : Nat) (s : State) (t : Thread),
    globalStores i = some (o, size) → Clear i s t → Readable t s 0#2 [o.a, o.b] [] → t.handler = none →
    let ea := address (srcVal t s 0#2 o.a) o.imm size
    GlobalStops i s t .write ea size
    ∧ ∀ (pa : Nat) (leaf : Word), Stays t s → t.coreId < 2048 →
      (s.storesOf t.tid).length < 64 → (∀ x ∈ s.stores, x.id < s.nextId) → s.storeBefore t.coreId pa s.nextId = false →
      ea.toNat % size = 0 → s.translated t .write ea.toNat = true → s.access t .write ea.toNat size = .ok pa leaf →
      leafChk leaf = false → s.bufferRoom pa = true →
      ∃ s1 u1 x s2, exec i s = .next s1 ∧ s1.thread? t.tid = some u1 ∧ u1.pc = t.pc + 4#64 ∧ u1.c.q0 = dn t.next.toNat
        ∧ u1.next = t.next + 1#16 ∧ s1.stores = s.stores ++ [x] ∧ x.pa = pa ∧ x.size = size ∧ x.receipt = t.next ∧ s1.mem = s.mem
        ∧ exec (.storePerformed x.id) s1 = .next s2 ∧ s2.stores = s.stores
        ∧ (∀ k, k < size → Memory.get s2.mem (pa + k) = storeByte t s o.b k)
        ∧ ∀ a, a < pa ∨ pa + size ≤ a → Memory.get s2.mem a = Memory.get s.mem a

namespace Sys2Proof.Claims

/-- What an ordered access does to the dword at its address (R215): new value from the old and the values of d and d + 1. -/
def atomic : Instr → Option (OpA × (Word → Word → Word → Word))
  | .amoSwap o => some (o, fun _ x _ => x)
  | .amoCas o => some (o, fun old x y => if old = x then y else old)
  | .amoAdd o => some (o, fun old x _ => dn (old.toNat + x.toNat))
  | .amoAnd o => some (o, fun old x _ => old &&& x)
  | .amoOr o => some (o, fun old x _ => old ||| x)
  | .amoXor o => some (o, fun old x _ => old ^^^ x)
  | .amoMin o => some (o, fun old x _ => dw (min old.toInt x.toInt))
  | .amoMax o => some (o, fun old x _ => dw (max old.toInt x.toInt))
  | .amoMinz o => some (o, fun old x _ => dn (min old.toNat x.toNat))
  | .amoMaxz o => some (o, fun old x _ => dn (max old.toNat x.toNat))
  | _ => none

/-- The registers an atomic reads beside its address: the scope where it is ordered, d, and d + 1 for `amo.cas` (R215, R216). -/
def atomicReads (i : Instr) (o : OpA) : List Reg :=
  (if o.ord = 0#2 then [] else [o.b]) ++ (match i with
    | .amoCas _ => [o.d, o.d + 1#6]
    | _ => [o.d])

/-- A task that waits for replies where it stands, with nothing outstanding that an ordering operation would wait for. -/
structure Alone (t : Thread) (s : State) : Prop where
  stays : Stays t s
  stores : s.storesOf t.tid = []
  regions : RegionsDone t s
  order : ∀ x ∈ s.stores, x.id < s.nextId
  buffer : ∀ pa, s.storeBefore t.coreId pa s.nextId = false
/-- An access that meets no obstacle (R195, R196, R212, R377, R388, R389): its translation is cached and allows it on an unchecked page, its
stack answers and takes a write, and no word of memory is poisoned. -/
structure Reaches (t : Thread) (s : State) (need : Need) (ea : Word) (pa : Nat) : Prop where
  aligned : ea.toNat % 8 = 0
  cached : s.translated t need ea.toNat = true
  allowed : ∃ leaf, s.access t need ea.toNat 8 = .ok pa leaf ∧ leafChk leaf = false
  awake : s.awake pa = true
  room : s.bufferRoom pa = true
  sound : s.poison = []
/-- Exactly the dword at `pa` has become `new`. -/
def WroteDword (s s' : State) (pa : Nat) (new : Word) : Prop :=
  dn (Memory.read s'.mem pa 8) = new ∧ ∀ a, a < pa ∨ pa + 8 ≤ a → Memory.get s'.mem a = Memory.get s.mem a

end Sys2Proof.Claims

/-- R215-R217, R220: a relaxed, acquire or release atomic on an unchecked page leaves the rotation and is performed at its home in one
step: d takes the old dword, memory the new one, and no other byte changes. A misaligned address traps MISALIGNED, then an ordered one with a
scope that R214 does not allow SCOPE. -/
def Sys2Proof.Claims.AtomicsPerform : Prop :=
  ∀ (i : Instr) (o : OpA) (f : Word → Word → Word → Word) (s : State) (t : Thread),
    atomic i = some (o, f) → o.ord ≠ 3#2 → Clear i s t → Readable t s o.w (o.a :: atomicReads i o) [] →
    let ea := srcVal t s o.w o.a
    (ea.toNat % 8 ≠ 0 → exec i s = .next (takeTrap (chargedThread i t s) .misaligned ea t.pc (chargedState i t s)))
    ∧ (ea.toNat % 8 = 0 → o.ord ≠ 0#2 → scopeOk t (srcVal t s o.w o.b) = false →
      exec i s = .next (takeTrap (chargedThread i t s) .scope (srcVal t s o.w o.b) t.pc (chargedState i t s)))
    ∧ ∀ pa : Nat, Alone t s → Reaches t s .atomic ea pa → (o.ord ≠ 0#2 → scopeOk t (srcVal t s o.w o.b) = true) →
      let old := dn (Memory.read s.mem pa 8)
      ∃ s1 s2 u2, exec i s = .next s1 ∧ s1.mem = s.mem ∧ exec (.memoryReply t.tid) s1 = .next s2 ∧ s2.thread? t.tid = some u2
        ∧ u2.run = .runnable ∧ u2.pc = t.pc + 4#64 ∧ u2.c.reg o.d = old ∧ u2.c.q0 = old
        ∧ WroteDword s s2 pa (f old (srcVal t s o.w o.d) (srcVal t s o.w (o.d + 1#6)))

/-- R215-R217, R228: `ldg.acq` gives the dword at its home, and with a scope beyond its own core drops the core's L1 copies; `stg.rel` with
nothing outstanding posts its store with a receipt as the scalar result; `ldg.sc` and `stg.sc` leave the rotation announced in the window
of their issue, and once it has cleared, with no other sc access waiting, are performed at their home. -/
def Sys2Proof.Claims.OrderedAccesses : Prop :=
  (∀ (o : OpR) (s : State) (t : Thread) (pa : Nat), Clear (.ldgAcq o) s t → Readable t s o.w [o.a, o.b] [o.d] → Alone t s →
    scopeOk t (srcVal t s o.w o.b) = true → Reaches t s .read (srcVal t s o.w o.a) pa →
    ∃ s1 s2 u2, exec (.ldgAcq o) s = .next s1 ∧ exec (.memoryReply t.tid) s1 = .next s2 ∧ s2.thread? t.tid = some u2
      ∧ u2.pc = t.pc + 4#64 ∧ u2.c.q0 = dn (Memory.read s.mem pa 8) ∧ Holds t s o.w o.d u2.c.q0 u2 s2 ∧ s2.mem = s.mem
      ∧ (scopeMode (srcVal t s o.w o.b) ≠ 0 → (s2.core t.coreId).l1 = []))
  ∧ (∀ (o : OpR) (s : State) (t : Thread) (pa : Nat), Clear (.stgRel o) s t → Readable t s o.w [o.a, o.b, o.d] [] → Alone t s →
    scopeOk t (srcVal t s o.w o.b) = true → Reaches t s .write (srcVal t s o.w o.a) pa →
    ∃ s' u x, exec (.stgRel o) s = .next s' ∧ s'.thread? t.tid = some u ∧ u.pc = t.pc + 4#64 ∧ u.c.q0 = dn t.next.toNat
      ∧ u.next = t.next + 1#16 ∧ s'.stores = s.stores ++ [x] ∧ x.pa = pa ∧ x.size = 8 ∧ x.val = (srcVal t s o.w o.d).toNat
      ∧ x.receipt = t.next ∧ s'.mem = s.mem)
  ∧ (∀ (o : OpR) (s : State) (t : Thread) (pa : Nat), Clear (.ldgSc o) s t → Readable t s o.w [o.a, o.b] [o.d] → Alone t s →
    scopeOk t (srcVal t s o.w o.b) = true → Reaches t s .read (srcVal t s o.w o.a) pa → s.threads = [t] →
    ∃ s1 s2 u2, exec (.ldgSc o) s = .next s1 ∧ s1.mem = s.mem
      ∧ exec (.memoryReply t.tid) { s1 with cleared := s.now / 32 + 1 } = .next s2 ∧ s2.thread? t.tid = some u2
      ∧ u2.pc = t.pc + 4#64 ∧ u2.c.q0 = dn (Memory.read s.mem pa 8) ∧ Holds t s o.w o.d u2.c.q0 u2 s2 ∧ s2.mem = s.mem
      ∧ (s.cleared ≤ s.now / 32 → exec (.memoryReply t.tid) s1 = .refused .notEnabled))
  ∧ (∀ (o : OpR) (s : State) (t : Thread) (pa : Nat), Clear (.stgSc o) s t → Readable t s o.w [o.a, o.b, o.d] [] → Alone t s →
    scopeOk t (srcVal t s o.w o.b) = true → Reaches t s .write (srcVal t s o.w o.a) pa → s.threads = [t] →
    ∃ s1 s2 u2, exec (.stgSc o) s = .next s1 ∧ s1.mem = s.mem
      ∧ exec (.memoryReply t.tid) { s1 with cleared := s.now / 32 + 1 } = .next s2 ∧ s2.thread? t.tid = some u2
      ∧ u2.pc = t.pc + 4#64 ∧ u2.c.q0 = dn t.next.toNat ∧ u2.next = t.next + 1#16
      ∧ WroteDword s s2 pa (srcVal t s o.w o.d)
      ∧ (s.cleared ≤ s.now / 32 → exec (.memoryReply t.tid) s1 = .refused .notEnabled))

/-- R218, R219, R228: a fence with an allowed scope and no store of its thread outstanding goes on at once, an acquire of more than its own
core dropping the core's L1 copies; `fence.sc` leaves the rotation and completes when the window of its issue clears, at cycle 32·(w + 1) +
16; a scope that R214 does not allow traps SCOPE. `fence.rcpt` goes on where its receipt names no outstanding store and else waits;
`rcpt.q` gives the count, the oldest and the next receipt. -/
def Sys2Proof.Claims.Fences : Prop :=
  (∀ (i : Instr) (o : OpR) (acq : Bool) (s : State) (t : Thread),
    (i = .fenceAcq o ∧ acq = true ∨ i = .fenceRel o ∧ acq = false ∨ i = .fenceAr o ∧ acq = true) → Clear i s t →
    Readable t s o.w [o.a] [] → Alone t s → scopeOk t (srcVal t s o.w o.a) = true →
    ∃ s' u, exec i s = .next s' ∧ s'.thread? t.tid = some u ∧ u.pc = t.pc + 4#64 ∧ u.c = t.c ∧ s'.mem = s.mem
      ∧ (acq = true → scopeMode (srcVal t s o.w o.a) ≠ 0 → (s'.core t.coreId).l1 = []))
  ∧ (∀ (o : OpR) (s : State) (t : Thread), Clear (.fenceSc o) s t → Readable t s o.w [o.a] [] → Alone t s →
    scopeOk t (srcVal t s o.w o.a) = true → s.threads = [t] → s.cleared ≤ s.now / 32 →
    let w := s.now / 32
    ∃ s1 s2 u, exec (.fenceSc o) s = .next s1 ∧ exec (.memoryReply t.tid) s1 = .refused .notEnabled
      ∧ exec (.clearing w) s1 = .next s2 ∧ s2.cycle = dn (32 * (w + 1) + 16) ∧ s2.cleared = w + 1
      ∧ s2.thread? t.tid = some u ∧ u.pc = t.pc + 4#64 ∧ u.run = .runnable
      ∧ (scopeMode (srcVal t s o.w o.a) ≠ 0 → (s2.core t.coreId).l1 = []))
  ∧ (∀ (i : Instr) (o : OpR) (s : State) (t : Thread), (i = .fenceAcq o ∨ i = .fenceRel o ∨ i = .fenceAr o ∨ i = .fenceSc o) →
    Clear i s t → Readable t s o.w [o.a] [] → scopeOk t (srcVal t s o.w o.a) = false →
    exec i s = .next (takeTrap (chargedThread i t s) .scope (srcVal t s o.w o.a) t.pc (chargedState i t s)))
  ∧ (∀ (o : OpR) (s : State) (t : Thread), Clear (.fenceRcpt o) s t → Readable t s o.w [o.a] [] → Stays t s →
    let oldest := (match s.storesOf t.tid with
      | y :: _ => y.receipt
      | [] => t.next).toNat
    let n := ((srcVal t s o.w o.a).toNat % 2 ^ 16 + 2 ^ 16 - oldest) % 2 ^ 16
    ((s.storesOf t.tid).length ≤ n →
      ∃ s' u, exec (.fenceRcpt o) s = .next s' ∧ s'.thread? t.tid = some u ∧ u.pc = t.pc + 4#64 ∧ u.c = t.c)
    ∧ (n < (s.storesOf t.tid).length →
      ∃ s' u w, exec (.fenceRcpt o) s = .next s' ∧ s'.thread? t.tid = some u ∧ u.pc = t.pc ∧ u.c = t.c
        ∧ u.run.wake? = some w ∧ w.kind = .memory ∧ w.operand = srcVal t s o.w o.a))
  ∧ (∀ (o : OpR) (s : State) (t : Thread), Clear (.rcptQ o) s t → Readable t s o.w [] [o.d] →
    ∃ s' u x, exec (.rcptQ o) s = .next s' ∧ s'.thread? t.tid = some u ∧ u.pc = t.pc + 4#64 ∧ u.c.q0 = x
      ∧ Holds t s o.w o.d x u s' ∧ x = dn ((s.storesOf t.tid).length * 2 ^ 32
          + (match s.storesOf t.tid with
            | y :: _ => y.receipt.toNat
            | [] => t.next.toNat) * 2 ^ 16 + t.next.toNat))

/-- R200: `fence.tlb` with no store of its thread outstanding leaves the rotation; its removal leaves no cached leaf of the job that meets
the range (a length of 0 covers all) and none of its walk caches, and keeps those of other jobs; with no access of the job in flight it
then goes on. A start address with a bit above 51 set traps ACCESS. -/
def Sys2Proof.Claims.FenceTlbRemoves : Prop :=
  ∀ (o : OpR) (s : State) (t : Thread), Clear (.fenceTlb o) s t → Readable t s o.w [o.a, o.b] [] →
    let a := srcVal t s o.w o.a
    let b := srcVal t s o.w o.b
    (2 ^ 52 ≤ a.toNat → exec (.fenceTlb o) s = .next (takeTrap (chargedThread (.fenceTlb o) t s) .access a t.pc
      (chargedState (.fenceTlb o) t s)))
    ∧ (a.toNat < 2 ^ 52 → Alone t s → s.threads = [t] → s.stores = [] → s.tails = [] → s.queries = [] →
      ∃ s1 s2 s3 u, exec (.fenceTlb o) s = .next s1 ∧ exec (.memoryReply t.tid) s1 = .next s2
        ∧ (∀ e ∈ s2.tlb, e.ctx = t.ctx → (∀ c l, e.place ≠ .walk c l)
          ∧ (2 ^ 52 ≤ e.base ∨ b ≠ 0#64 ∧ (e.base + 2 ^ levelShift e.level ≤ a.toNat / 65536 * 65536
            ∨ (a.toNat + b.toNat + 65535) / 65536 * 65536 ≤ e.base)))
        ∧ (∀ e ∈ s.tlb, e.ctx ≠ t.ctx → e ∈ s2.tlb)
        ∧ exec (.memoryReply t.tid) s2 = .next s3 ∧ s3.thread? t.tid = some u ∧ u.pc = t.pc + 4#64 ∧ u.run = .runnable ∧ u.c = t.c)

namespace Sys2Proof.Claims

/-- The thread left the rotation at its instruction, its registers as they were, and awaits `p` (R115). -/
def Leaves (t : Thread) (p : Pending) (u : Thread) (s' : State) : Prop :=
  s'.thread? t.tid = some u ∧ u.pc = t.pc ∧ u.c = t.c ∧ u.run.pending = some p

/-- A thread that holds its phase awaits `p`, and nothing takes it away before its reply (R149, R306, R454). -/
structure Awaits (p : Pending) (t : Thread) (s : State) : Prop where
  there : s.thread? t.tid = some t
  run : ∃ w, t.run = .out w p ∧ w.win = 0#2
  place : t.phase?.isSome = true
  calm : s.quiesce = none
  target : t.migTarget = none
  request : t.request = none

/-- The thread goes on at the next instruction. -/
def GoesOn (t u : Thread) (s' : State) : Prop := s'.thread? t.tid = some u ∧ u.run = .runnable ∧ u.pc = t.pc + 4#64

/-- The thread goes on with the scalar result `x` in `d` and in the last-result file. -/
def Gets (t u : Thread) (s s' : State) (d : Reg) (x : Word) : Prop :=
  GoesOn t u s' ∧ Holds t s 0#2 d x u s' ∧ u.c.q0 = x ∧ u.c.q1 = t.c.q0

/-- A scalar destination (R45) that can be written now. -/
def Writable (t : Thread) (s : State) (d : Reg) : Prop :=
  (d.toNat < 40 ∨ 42 ≤ d.toNat ∧ d.toNat < 48) ∧ (isPort d = true → (s.portTarget t d).isSome = true) ∧ destBusy t s d = false

/-- The operation that one of the note instructions sends to its note's home: kind, the registers it reads, and its value (R261, R262). -/
def transitions : Instr → Option (OpQ × (NoteKind × List Reg))
  | .fres o => some (o, .resolve, [o.b])
  | .fresFirst o => some (o, .resolveFirst, [o.b])
  | .fpois o => some (o, .poison, [o.b])
  | .fcan o => some (o, .cancel, [])
  | _ => none

/-- The state, cause and value that a transition gives a PENDING note (R246, R247, R261, R262). -/
def newNote (o : NoteOp) : Option (NoteState × (BitVec 8 × Word)) :=
  match o.kind with
  | .resolve => some (.resolved, 0#8, o.value)
  | .resolveFirst => some (.resolved, 0#8, o.value)
  | .poison => some (.poisoned, o.cause, o.value)
  | .cancel => some (.cancelled, 0#8, 0#64)
  | _ => none

/-- An operation of this package on its way to a note of this package, sent, and with none before it whose order it must keep: of its
thread to its handle (R247), or from its core over the die-to-die link to that note's cluster (R427). -/
structure Arriving (s : State) (k : Nat) (o : NoteOp) (n : Note) : Prop where
  at_ : s.noteOps[k]? = some o
  sent : o.after = []
  mine : ∀ q ∈ s.noteOps.take k, ¬ (q.tid = o.tid ∧ q.handle = o.handle)
  link : ∀ q ∈ s.noteOps.take k, q.core ≠ o.core ∨ handleHome q.handle ≠ handleHome o.handle ∨ coreDie o.core = handleHome o.handle / 64
  here : s.isHere o.handle = true
  proxy : o.proxy = none
  note : s.noteOf o.ctx o.handle = some n

end Sys2Proof.Claims

/-- R260-R265: with good local checks, `fres`, `fres.first`, `fpois`, `fcan` and `frel` send their operation to the home of a: with pd = 0
they go on at once, with pd ≠ 0 they leave the rotation for the answer and then set pd to it; `touch` and `touch.p` leave the rotation with
a touch on its way. A handle that fails them traps NOT_A_HANDLE with it as TVAL. -/
def Sys2Proof.Claims.NoteOperations : Prop :=
  (∀ (i : Instr) (o : OpQ) (kind : NoteKind) (srcs : List Reg) (s : State) (t : Thread), transitions i = some (o, kind, srcs) →
    Clear i s t → Readable t s 0#2 (o.a :: srcs) [] → Alone t s →
    let h := srcVal t s 0#2 o.a
    let v := if srcs = [] then 0#64 else srcVal t s 0#2 o.b
    (s.handleOk h = false → exec i s = .next (takeTrap (chargedThread i t s) .notAHandle h t.pc (chargedState i t s)))
    ∧ (s.handleOk h = true → ∃ s' u, exec i s = .next s'
      ∧ s'.noteOps = s.noteOps ++ [⟨kind, h, v, 0#8, t.tid, t.ctx, t.coreId, decide (o.pd ≠ 0#2), [], false, none⟩]
      ∧ (if o.pd = 0#2 then GoesOn t u s' ∧ u.c = t.c else Leaves t (.note h o.pd none) u s')))
  ∧ (∀ (h : Word) (pd : BitVec 2) (won : Bool) (t : Thread) (s : State), Awaits (.note h pd (some (.won won))) t s →
    ∃ s' u, exec (.memoryReply t.tid) s = .next s' ∧ GoesOn t u s' ∧ u.c.x = t.c.x ∧ u.c.q0 = t.c.q0
      ∧ u.c.pred pd.toNat = (pd = 0#2 || won))
  ∧ (∀ (o : OpQ) (s : State) (t : Thread), Clear (.frel o) s t → Readable t s 0#2 [o.a] [] → s.handleOk (srcVal t s 0#2 o.a) = true →
    ∃ s' u, exec (.frel o) s = .next s' ∧ GoesOn t u s' ∧ u.c = t.c
      ∧ s'.noteOps = s.noteOps ++ [⟨.free, srcVal t s 0#2 o.a, 0#64, 0#8, t.tid, t.ctx, t.coreId, false,
        if s.isHere (srcVal t s 0#2 o.a) then [] else (s.storesOf t.tid).map (·.id), false, none⟩])
  ∧ (∀ (i : Instr) (o : OpQ) (p : Bool) (s : State) (t : Thread), (i = .touch o ∧ p = false ∨ i = .touchP o ∧ p = true) → Clear i s t →
    Readable t s 0#2 [o.a] [o.d] → Alone t s → s.handleOk (srcVal t s 0#2 o.a) = true →
    ∃ s' u, exec i s = .next s' ∧ Leaves t (.touch p o.pd o.d (srcVal t s 0#2 o.a) none) u s'
      ∧ (u.run.wake?.map (·.kind)) = some .future
      ∧ s'.noteOps = s.noteOps ++ [⟨.touch, srcVal t s 0#2 o.a, 0#64, 0#8, t.tid, t.ctx, t.coreId, true, [], false, none⟩])
  ∧ (∀ (i : Instr) (o : OpQ) (s : State) (t : Thread), (i = .touch o ∨ i = .touchP o) → Clear i s t → Readable t s 0#2 [o.a] [o.d] →
    s.handleOk (srcVal t s 0#2 o.a) = false →
    exec i s = .next (takeTrap (chargedThread i t s) .notAHandle (srcVal t s 0#2 o.a) t.pc (chargedState i t s)))

/-- R260, R263, R264, R267: what a touch gives for a RESOLVED note, and in its `.p` form for a POISONED or CANCELLED one; what it traps with
otherwise, when its reply comes;
`fcanq` gives CREQ in its predicate and acknowledges it; `fq` gives the note's state word; `ftask.q` gives RESULT, IN0 or IN1. -/
def Sys2Proof.Claims.NoteAnswers : Prop :=
  (∀ (p : Bool) (pd : BitVec 2) (d : Reg) (h v : Word) (t : Thread) (s : State), Awaits (.touch p pd d h (some (.resolved v))) t s →
    Writable t s d →
    ∃ s' u, exec (.memoryReply t.tid) s = .next s' ∧ Gets t u s s' d v ∧ u.c.pred pd.toNat = true
      ∧ (t.isFw = false → (s'.core t.coreId).l1 = []))
  ∧ (∀ (pd : BitVec 2) (d : Reg) (h v : Word) (c : BitVec 8) (t : Thread) (s : State),
    Awaits (.touch true pd d h (some (.poisoned c v))) t s → Writable t s d →
    ∃ s' u, exec (.memoryReply t.tid) s = .next s' ∧ Gets t u s s' d v ∧ u.c.pred pd.toNat = (pd = 0#2 : Bool))
  ∧ (∀ (pd : BitVec 2) (d : Reg) (h : Word) (t : Thread) (s : State),
    Awaits (.touch true pd d h (some .cancelled)) t s → Writable t s d →
    ∃ s' u, exec (.memoryReply t.tid) s = .next s' ∧ Gets t u s s' d 0#64 ∧ u.c.pred pd.toNat = (pd = 0#2 : Bool))
  ∧ (∀ (p : Bool) (pd : BitVec 2) (d : Reg) (h v : Word) (c : BitVec 8) (r : NoteReply) (x : BitVec 8) (t : Thread) (s : State),
    (r = .poisoned c v ∧ p = false ∧ x = 0x08#8 ∨ r = .cancelled ∧ p = false ∧ x = 0x09#8 ∨ r = .badHandle ∧ x = 0x0A#8) →
    Awaits (.touch p pd d h (some r)) t s → HasHandler t →
    ∃ s' u, exec (.memoryReply t.tid) s = .next s' ∧ s'.thread? t.tid = some u ∧ Trapped t x h u)
  ∧ (∀ (o : OpQ) (s : State) (t : Thread), Clear (.fcanq o) s t →
    ∃ s' u, exec (.fcanq o) s = .next s' ∧ GoesOn t u s' ∧ u.c.pred o.pd.toNat = (o.pd = 0#2 || t.csr.creq) ∧ u.c.x = t.c.x
      ∧ (t.csr.creq = true → u.creqAck = true))
  ∧ (∀ (o : OpQ) (s : State) (t : Thread), Clear (.fq o) s t → Readable t s 0#2 [o.a] [o.d] → Alone t s →
    s.handleOk (srcVal t s 0#2 o.a) = true →
    ∃ s' u, exec (.fq o) s = .next s' ∧ Leaves t (.fq (srcVal t s 0#2 o.a) o.d) u s')
  ∧ (∀ (d : Reg) (h : Word) (t : Thread) (s : State), Awaits (.fq h d) t s → Writable t s d → s.isHere h = true →
    ∃ s' u, exec (.memoryReply t.tid) s = .next s' ∧ Gets t u s s' d (match s.noteOf t.ctx h with
      | none => 0#64
      | some n => dn (min n.waiters.length 255 * 2 ^ 16 + (if n.state = .poisoned then n.cause.toNat * 2 ^ 8 else 0)
          + (if n.spilled then 16 else 0) + (if n.relq then 8 else 0)
          + (match n.state with
            | .pending => 1
            | .resolved => 2
            | .poisoned => 3
            | .cancelled => 4))))
  ∧ (∀ (o : OpQ) (s : State) (t : Thread), Clear (.ftaskQ o) s t → Readable t s 0#2 [] [o.d] →
    let x := if o.b = 0#6 then t.note.getD 0#64 else if o.b = 1#6 then t.in0 else t.in1
    ∃ s' u, exec (.ftaskQ o) s = .next s' ∧ Gets t u s s' o.d x ∧ othersKept t u o.d)

/-- R247, R248, R261, R265: a transition that arrives at a PENDING note with no waiters gives it its state, cause and value, and its issuer
is told it won; at a terminal note it changes no cluster's notes and its issuer is told it did not; a release of a terminal note leaves no
note under the handle. A touch of a PENDING note parks its thread with one waiter more, a touch of a terminal one is answered; a transition
wakes the thread that waits. -/
def Obligations.NotesChange : Prop :=
  (∀ (k : Nat) (o : NoteOp) (n : Note) (st : NoteState) (c : BitVec 8) (v : Word) (s : State), Arriving s k o n →
    newNote o = some (st, c, v) → n.state = .pending → n.waiters = [] → n.relq = false → n.task = none →
    ∃ s', exec (.noteOpArrive k) s = .next s'
      ∧ s'.noteOf o.ctx o.handle = some { n with state := st, cause := c, value := v, blocks := [], termAt := s.now }
      ∧ ∀ t pd w, o.wants = true → s.thread? o.tid = some t → t.run = .out w (.note o.handle pd none) →
        (s'.thread? o.tid).bind (·.run.pending) = some (.note o.handle pd (some (.won true))))
  ∧ (∀ (k : Nat) (o : NoteOp) (n : Note) (s : State), Arriving s k o n → (newNote o).isSome = true → n.state ≠ .pending →
    ∃ s', exec (.noteOpArrive k) s = .next s' ∧ s'.clusters = s.clusters
      ∧ ∀ t pd w, o.wants = true → s.thread? o.tid = some t → t.run = .out w (.note o.handle pd none) →
        (s'.thread? o.tid).bind (·.run.pending) = some (.note o.handle pd (some (.won false))))
  ∧ (∀ (k : Nat) (o : NoteOp) (n : Note) (s : State), Arriving s k o n → o.kind = .free → o.wants = false → n.state ≠ .pending →
    ∃ s', exec (.noteOpArrive k) s = .next s' ∧ s'.noteOf o.ctx o.handle = none)
  ∧ (∀ (k : Nat) (o : NoteOp) (n : Note) (s : State) (t : Thread) (w : Wake) (p : Bool) (pd : BitVec 2) (d : Reg), Arriving s k o n →
    o.kind = .touch → s.thread? o.tid = some t → t.run = .out w (.touch p pd d o.handle none) → t.evicted = false →
    (n.state = .pending → n.waiters = [] → ∃ s' u, exec (.noteOpArrive k) s = .next s' ∧ s'.thread? o.tid = some u
      ∧ u.run = .parked w false ∧ s'.noteOf o.ctx o.handle = some { n with waiters := [.thread o.tid] })
    ∧ (n.state = .resolved → ∃ s' u, exec (.noteOpArrive k) s = .next s' ∧ s'.thread? o.tid = some u
      ∧ u.run.pending = some (.touch p pd d o.handle (some (.resolved n.value)))))
  ∧ (∀ (k : Nat) (o : NoteOp) (n : Note) (st : NoteState) (c : BitVec 8) (v : Word) (s : State) (t : Thread) (w : Wake),
    Arriving s k o n → newNote o = some (st, c, v) → n.state = .pending → n.waiters = [.thread t.tid] → n.relq = false → n.task = none →
    s.thread? t.tid = some t → t.run = .parked w false → w.kind = .future → w.operand = o.handle →
    o.wants = false →
    ∃ s' u, exec (.noteOpArrive k) s = .next s' ∧ s'.thread? t.tid = some u ∧ u.run = .parked w true)

/-- R266, R249: where the cluster's note space has a free index and its table room, `fnew` gives the handle of a new PENDING note of the
task's job without waiters or task, and a true predicate; where every index is in use it gives 1 and a false predicate. -/
def Sys2Proof.Claims.FnewAllocates : Prop :=
  (∀ (o : OpQ) (s : State) (t : Thread), Clear (.fnew o) s t → Readable t s 0#2 [] [o.d] → Alone t s →
    ∃ s' u, exec (.fnew o) s = .next s' ∧ Leaves t (.fnew o.pd o.d) u s')
  ∧ (∀ (pd : BitVec 2) (d : Reg) (t : Thread) (s : State), Awaits (.fnew pd d) t s → Writable t s d →
    let c := s.cluster t.cluster
    t.cluster < 128 → c.owner = some t.ctx → (∀ i, lookupD c.gens i 0 < 2 ^ 24) →
    c.notes.length < 65536 → (c.notes.filter fun n => !n.spilled).length < 4096 →
    ∃ s' u h n, exec (.memoryReply t.tid) s = .next s' ∧ Gets t u s s' d h ∧ u.c.pred pd.toNat = true
      ∧ s.noteOf t.ctx h = none ∧ s'.noteOf t.ctx h = some n ∧ n.state = .pending ∧ n.waiters = [] ∧ n.task = none
      ∧ s'.handleOk h = true)
  ∧ (∀ (pd : BitVec 2) (d : Reg) (t : Thread) (s : State), Awaits (.fnew pd d) t s → Writable t s d →
    65536 ≤ (s.cluster t.cluster).notes.length →
    ∃ s' u, exec (.memoryReply t.tid) s = .next s' ∧ Gets t u s s' d 1#64 ∧ u.c.pred pd.toNat = (pd = 0#2 : Bool)
      ∧ s'.clusters = s.clusters)

/-- R258, R254, R79: `spawn` of a good record leaves the rotation; with no subscription and no dependence input, where a note can be
allocated and the record's walk finds a place, its reply starts a task in that place at the record's entry with its arguments in g1-g4,
and gives the note's handle with a true predicate. -/
def Sys2Proof.Claims.SpawnStarts : Prop :=
  (∀ (o : OpQ) (s : State) (t : Thread), Clear (.spawn o) s t → Readable t s 0#2 [o.a] [o.d] → Alone t s →
    recordStop (srcVal t s 0#2 o.a) t s = none →
    ∃ s' u, exec (.spawn o) s = .next s' ∧ Leaves t (.spawn o.i o.pd o.d (srcVal t s 0#2 o.a).toNat
      (taskRecord (Memory.read (s.near t).spad (srcVal t s 0#2 o.a).toNat 128)) []) u s')
  ∧ (∀ (inl : Bool) (pd : BitVec 2) (d : Reg) (ra : Nat) (r : TaskRec) (t : Thread) (s : State) (core phase : Nat) (j : Job),
    Awaits (.spawn inl pd d ra r []) t s → t.isFw = false → Writable t s d → r.subs = [] → r.deps = [] →
    s.job? t.ctx = some j → (∀ u ∈ s.threads, u.tid < s.nextTid) →
    let c := s.cluster t.cluster
    c.owner = some t.ctx → c.notes.length < 65536 → (c.notes.filter fun n => !n.spilled).length < 4096 →
    s.walkPlace t.ctx r (r.hintCore t.coreId) t.cluster = some (core, phase) →
    ∃ s' u v h, exec (.memoryReply t.tid) s = .next s' ∧ Gets t u s s' d h ∧ u.c.pred pd.toNat = true
      ∧ s'.thread? s.nextTid = some v ∧ v.loc = .phase core phase ∧ v.ctx = t.ctx ∧ v.run = .runnable ∧ v.note = some h
      ∧ v.pc = dn (j.cbase + r.entry) ∧ v.c.reg 1#6 = dn r.arg0 ∧ v.c.reg 2#6 = dn r.arg1 ∧ v.c.reg 3#6 = dn r.arg2
      ∧ v.c.reg 4#6 = dn r.arg3 ∧ v.csr.pin = r.pin ∧ v.csr.trap = false
      ∧ v.csr.tbase = (if j.handler = 0 then 0#64 else dn (4 * ((j.cbase + j.handler) / 4)))
      ∧ Memory.read (s'.core t.coreId).spad (ra + 40) 8 = h.toNat)

/-- R253: a ready record that comes first takes the free phase it is offered: its task stands there at the record's entry, and the record
has left its store. -/
def Sys2Proof.Claims.RecordDispatch : Prop :=
  ∀ (cl id core phase : Nat) (h : Held) (j : Job) (s : State), (s.cluster cl).records.find? (fun x => x.id == id) = some h →
    h.id = id → h.readyAt.isSome = true → phase < 7 → s.storePlace h.ctx h.r h.hint = some (core, phase) →
    foremost (s.recordKey cl h) (s.rivals h.ctx core phase true) = true → s.job? h.ctx = some j → s.thread? h.id = none →
    ∃ s' v, exec (.recordDispatch cl id core phase) s = .next s' ∧ s'.thread? h.id = some v ∧ v.loc = .phase core phase
      ∧ v.ctx = h.ctx ∧ v.pc = dn (j.cbase + h.r.entry) ∧ v.note = h.note ∧ v.c.reg 1#6 = dn h.r.arg0
      ∧ (s'.cluster cl).records = (s.cluster cl).records.filter (fun x => x.id != id)

/-- R178, R180: one piece of a put or scatter on an unchecked page writes its bytes from the scratchpad at their home and is no longer to
come; one piece of a get or gather writes the scratchpad from its home; a piece whose page does not allow it ends the transfer. A transfer
whose pieces are done leaves its queue, and the last of its tag sets the DONE bit. -/
def Obligations.TransfersPerform : Prop :=
  (∀ (core id k : Nat) (x : Xfer) (p : Piece) (pa : Nat) (leaf : Word) (s : State), s.xfer? core id = some x → x.core = core →
    x.pieces[k]? = some p → 0 < p.len → x.codec = false → x.space = 0 → x.bar = none → x.early = [] →
    leafChk leaf = false → s.bufferRoom pa = true → (∀ t, s.thread? x.tid = some t → t.evicted = false) →
    ((x.kind = .put ∨ x.kind = .scatter ∧ x.pieces = [p]) → s.xlate x.ctx (some core) .write p.va = .ok pa leaf →
      soundRange (s.core core).spadUE 8 (x.addr + p.off) p.len →
      ∃ s' y, exec (.transferPiecePerformed core id k) s = .next s' ∧ s'.xfer? core id = some y ∧ y.pieces = x.pieces.filter (· != p)
        ∧ (∀ i, i < p.len → Memory.get s'.mem (pa + i) = Memory.get (s.core core).spad (x.addr + p.off + i))
        ∧ ∀ a, a < pa ∨ pa + p.len ≤ a → Memory.get s'.mem a = Memory.get s.mem a)
    ∧ ((x.kind = .get ∨ x.kind = .gather) → s.xlate x.ctx (some core) .read p.va = .ok pa leaf → s.poison = [] →
      ∃ s' y, exec (.transferPiecePerformed core id k) s = .next s' ∧ s'.xfer? core id = some y ∧ y.pieces = x.pieces.filter (· != p)
        ∧ s'.mem = s.mem
        ∧ (∀ i, i < p.len → Memory.get (s'.core core).spad (x.addr + p.off + i) = Memory.get s.mem (pa + i))
        ∧ ∀ a, a < x.addr + p.off ∨ x.addr + p.off + p.len ≤ a → Memory.get (s'.core core).spad a = Memory.get (s.core core).spad a))
  ∧ (∀ (core id k : Nat) (x : Xfer) (p : Piece) (s : State), s.xfer? core id = some x → x.core = core → x.pieces[k]? = some p →
    0 < p.len → x.codec = false → x.kind = .put → s.xlate x.ctx (some core) .write p.va = .access →
    ∃ s', exec (.transferPiecePerformed core id k) s = .next s' ∧ s'.xfer? core id = none ∧ s'.thread? x.tid = none)
  ∧ (∀ (core id : Nat) (x : Xfer) (t : Thread) (s : State), s.xfer? core id = some x → x.core = core → x.pieces = [] →
    (x.kind = .put ∨ x.kind = .get ∨ x.kind = .gather ∨ x.kind = .scatter) →
    x.space ≠ 2 → s.thread? x.tid = some t → t.evicted = false → (∀ w p f va m, t.run ≠ .saving w p f va m) →
    lookupD t.tagCount x.tag 0 = 1 → x.tag < 64 →
    ∃ s' u, exec (.transferComplete core id) s = .next s' ∧ s'.xfer? core id = none ∧ s'.thread? x.tid = some u
      ∧ u.csr.done = t.csr.done ||| (1#64 <<< x.tag) ∧ lookupD u.tagCount x.tag 0 = 0)

namespace Sys2Proof.Claims

/-- The operands of a queue instruction pass the checks of R285: the descriptor at q is aligned, its translation is cached and its page grants
the access at `pa`, it is well formed, and the record at r lies in the scratchpad. -/
structure QueueReady (t : Thread) (s : State) (need : Need) (q r : Word) (pa : Nat) : Prop where
  aligned : q.toNat % 64 = 0
  cached : s.translated t need q.toNat = true
  grants : ∃ leaf, s.access t need q.toNat 64 = .ok pa leaf
  sound : s.poison = []
  record : r.toNat % 64 = 0 ∧ r.toNat + 64 ≤ (s.near t).size
  formed : s.qmalformed t.ctx (s.qdescAt pa) = false

/-- No entry of a job's tables lies in the 64 bytes from any of `spots`: whatever is written there, the addresses `vas` keep their leaf. -/
def TablesApart (s : State) (ctx : Nat) (spots vas : List Nat) : Prop :=
  ∀ m : Mem, (∀ a, (∀ p ∈ spots, a < p ∨ p + 64 ≤ a) → Memory.get m a = Memory.get s.mem a) →
    ∀ va ∈ vas, ({ s with mem := m } : State).leaf [] 128 ctx va = s.leaf [] 128 ctx va

/-- The dwords of a queue's descriptor, and its ring. -/
def queueVas (q : Nat) (d : QDesc) : List Nat := d.base.toNat :: (List.range 8).map fun i => q + 8 * i

/-- A thread has parked with kind QUEUE on a condition, its registration being the one waiter (R285, R286). -/
def ParkedAt (t : Thread) (key : QKey) (detail : Nat) (operand : Word) (ext : Bool) (s s' : State) : Prop :=
  ∃ u w, s'.thread? t.tid = some u ∧ u.run = .parked w false ∧ w.kind = .queue ∧ w.detail = BitVec.ofNat 32 detail
    ∧ w.operand = operand ∧ u.pc = t.pc ∧ u.c = t.c ∧ s'.qwaits = [⟨key, t.tid, none, none, ext⟩] ∧ s'.mem = s.mem

/-- A misaligned descriptor address traps MISALIGNED and one that the page does not allow ACCESS (R285). -/
def QueueStops (i : Instr) (t : Thread) (s : State) (need : Need) (q : Word) : Prop :=
  (q.toNat % 64 ≠ 0 → exec i s = .next (takeTrap (chargedThread i t s) .misaligned q t.pc (chargedState i t s)))
  ∧ (q.toNat % 64 = 0 → s.translated t need q.toNat = true → s.access t need q.toNat 64 = .access →
    exec i s = .next (takeTrap (chargedThread i t s) .access q t.pc (chargedState i t s)))

end Sys2Proof.Claims

/-- R285, R287: `qpush` with good operands leaves the rotation; at the descriptor a full ring makes the form n fail with all ones and a false
predicate and the other one park with kind QUEUE; where there is room it takes index RESV, which goes up by one; then the record is
written to the slot of that index with the index in its first dword, TAIL is the index after, and the push gives the index and a true
predicate. -/
def Sys2Proof.Claims.QueuePush : Prop :=
  (∀ (o : OpQ) (s : State) (t : Thread), Clear (.qpush o) s t → Readable t s 0#2 [o.a, o.b] [o.d] →
    let q := srcVal t s 0#2 o.a
    QueueStops (.qpush o) t s .atomic q
    ∧ ∀ (pa ring : Nat) (leaf : Word), Alone t s → QueueReady t s .atomic q (srcVal t s 0#2 o.b) pa →
      let k := s.qdescAt pa
      s.access t .write k.base.toNat (64 * k.slots) = .ok ring leaf →
      ∃ s' u, exec (.qpush o) s = .next s' ∧ Leaves t (.qpush o.i o.pd o.d q pa s.nextId (srcVal t s 0#2 o.b).toNat k.ext
        (k.base.toNat, ring) []) u s')
  ∧ (∀ (n : Bool) (pd : BitVec 2) (d : Reg) (q : Word) (pa num r ring base : Nat) (ext : Bool) (t : Thread) (s : State),
    Awaits (.qpush n pd d q pa num r ext (base, ring) []) t s → s.bufferRoom pa = true → s.qwaits = [] →
    soundRange (s.near t).bad 8 (r + 8) 56 →
    let k := s.qdescAt pa
    let off := 64 * (k.resv.toNat % k.slots)
    ((k.resv - k.head).toNat < k.slots →
      ∃ s' u, exec (.memoryReply t.tid) s = .next s' ∧ s'.thread? t.tid = some u ∧ u.c = t.c ∧ u.pc = t.pc
        ∧ u.run.pending = some (.qput pd d q pa num k.resv.toNat (Memory.read (s.near t).spad (r + 8) 56) (base + off, ring + off))
        ∧ Memory.read s'.mem pa 8 = (k.resv + 1#64).toNat)
    ∧ (k.slots ≤ (k.resv - k.head).toNat → n = true → Writable t s d →
      ∃ s' u, exec (.memoryReply t.tid) s = .next s' ∧ Gets t u s s' d (BitVec.allOnes 64) ∧ u.c.pred pd.toNat = (pd = 0#2 : Bool)
        ∧ s'.mem = s.mem)
    ∧ (k.slots ≤ (k.resv - k.head).toNat → n = false →
      ∃ s', exec (.memoryReply t.tid) s = .next s'
        ∧ ParkedAt t (.push t.ctx q.toNat) (q.toNat / 64 % 2 ^ 30) q ext s s'))
  ∧ (∀ (pd : BitVec 2) (d : Reg) (q : Word) (pa num idx data va slot : Nat) (t : Thread) (s : State),
    Awaits (.qput pd d q pa num idx data (va, slot)) t s → Writable t s d → s.bufferRoom slot = true → idx < 2 ^ 64 →
    data < 2 ^ 448 → (slot + 64 ≤ pa ∨ pa + 64 ≤ slot) →
    let k := s.qdescAt pa
    s.qmalformed t.ctx k = false → TablesApart s t.ctx [slot, pa] (queueVas q.toNat k) →
    1 ≤ (dn idx + 1#64 - k.tail).toNat → (dn idx + 1#64 - k.tail).toNat ≤ k.slots →
    ∃ s' u, exec (.memoryReply t.tid) s = .next s' ∧ Gets t u s s' d (dn idx) ∧ u.c.pred pd.toNat = true
      ∧ Memory.read s'.mem slot 64 = idx + 2 ^ 64 * data ∧ Memory.read s'.mem (pa + 8) 8 = (dn idx + 1#64).toNat)

/-- R285, R288: `qpop` with good operands of a data queue leaves the rotation; at a mapped queue whose record HEAD is there, the record is
copied to the scratchpad, HEAD goes up by one, and the pop gives the index and a true predicate; at an empty one the form n fails and the other
parks; a queue that is not mapped is asked to be, with PEND set. -/
def Sys2Proof.Claims.QueuePop : Prop :=
  (∀ (o : OpQ) (s : State) (t : Thread), Clear (.qpop o) s t → Readable t s 0#2 [o.a, o.b] [o.d] →
    let q := srcVal t s 0#2 o.a
    QueueStops (.qpop o) t s .atomic q
    ∧ ∀ pa : Nat, Alone t s → QueueReady t s .atomic q (srcVal t s 0#2 o.b) pa → (s.qdescAt pa).kind = 0 →
      ∃ s' u, exec (.qpop o) s = .next s'
        ∧ Leaves t (.qpop o.i o.pd o.d q pa s.nextId (srcVal t s 0#2 o.b).toNat (s.qdescAt pa).ext) u s')
  ∧ (∀ (n : Bool) (pd : BitVec 2) (d : Reg) (q : Word) (pa num r slot : Nat) (ext : Bool) (t : Thread) (s : State),
    Awaits (.qpop n pd d q pa num r ext) t s → t.isFw = false → s.bufferRoom pa = true → s.qwaits = [] →
    let k := s.qdescAt pa
    s.qdesc t.ctx q.toNat = some k → k.mapped = true →
    (k.head.toNat < k.tail.toNat → s.jobPhys t.ctx (k.slotVa k.head) = some slot → s.awake slot = true → s.poison = [] →
      s.jobRead t.ctx (k.slotVa k.head) 8 = k.head.toNat → Writable t s d →
      ∃ s' u, exec (.memoryReply t.tid) s = .next s' ∧ Gets t u s s' d k.head ∧ u.c.pred pd.toNat = true
        ∧ Memory.read (s'.core t.coreId).spad r 64 = Memory.read s.mem slot 64
        ∧ Memory.read s'.mem (pa + 16) 8 = (k.head + 1#64).toNat ∧ (s'.core t.coreId).l1 = [])
    ∧ (k.tail.toNat ≤ k.head.toNat → n = true → Writable t s d →
      ∃ s' u, exec (.memoryReply t.tid) s = .next s' ∧ Gets t u s s' d (BitVec.allOnes 64) ∧ u.c.pred pd.toNat = (pd = 0#2 : Bool)
        ∧ s'.mem = s.mem)
    ∧ (k.tail.toNat ≤ k.head.toNat → n = false →
      ∃ s', exec (.memoryReply t.tid) s = .next s'
        ∧ ParkedAt t (.pop t.ctx q.toNat) (2 ^ 30 + q.toNat / 64 % 2 ^ 30) q ext s s'))
  ∧ (∀ (pd : BitVec 2) (d : Reg) (q : Word) (pa num r : Nat) (ext : Bool) (t : Thread) (s : State) (j : Job),
    Awaits (.qpop false pd d q pa num r ext) t s → s.bufferRoom pa = true → s.qwaits = [] → s.job? t.ctx = some j →
    (s.qdescAt pa).mapped = false →
    ∃ s' u w j', exec (.memoryReply t.tid) s = .next s' ∧ s'.thread? t.tid = some u ∧ u.run = .parked w false ∧ w.kind = .queue
      ∧ s'.job? t.ctx = some j' ∧ q.toNat ∈ j'.mapAsked ∧ (Memory.read s'.mem (pa + 48) 8) % 2 = 1)

/-- R278, R279, R281, R286, R289, R280: `qtail` with no store outstanding posts its tail write; a tail write of 1 to N further sets TAIL; a
poll of a deliverable record wakes the oldest waiter with a unit held for it; a hold of 4,096 cycles lapses; firmware maps an asked queue
to a free slot, and unmaps the queue with the oldest delivery of a full cluster that another queue needs; the mapping teller turns a record of
a spawn queue into a task and HEAD goes up by one. -/
def Obligations.QueueServices : Prop :=
  (∀ (o : OpQ) (s : State) (t : Thread), Clear (.qtail o) s t → Readable t s 0#2 [o.a, o.b] [] →
    let q := srcVal t s 0#2 o.a
    QueueStops (.qtail o) t s .write q
    ∧ ∀ (pa : Nat) (leaf : Word), Alone t s → q.toNat % 64 = 0 → s.translated t .write q.toNat = true →
      s.access t .write q.toNat 64 = .ok pa leaf →
      ∃ s' u, exec (.qtail o) s = .next s' ∧ GoesOn t u s' ∧ u.c = t.c
        ∧ s'.tails = s.tails ++ [⟨t.ctx, q.toNat, srcVal t s 0#2 o.b, some pa, s.nextId, t.tid, []⟩])
  ∧ (∀ (o : TailOp) (pa : Nat) (rest : List TailOp) (s : State), s.tails = o :: rest → s.performed o.after = true → o.pa = some pa →
    s.awake pa = true →
    let d := s.qdescAt pa
    s.qmalformed o.ctx d = false → TablesApart s o.ctx [pa] (queueVas o.q d) →
    1 ≤ (o.v - d.tail).toNat → (o.v - d.tail).toNat ≤ d.slots →
    ∃ s', exec (.tailWrite 0) s = .next s' ∧ s'.tails = rest ∧ Memory.read s'.mem (pa + 8) 8 = o.v.toNat)
  ∧ (∀ (ctx q : Nat) (t : Thread) (w : Wake) (ext : Bool) (s : State), (∃ c ∈ s.clusters, ∃ m ∈ c.slots, m.ctx = ctx ∧ m.q = q) →
    s.qwaits = [⟨.pop ctx q, t.tid, none, none, ext⟩] → s.thread? t.tid = some t → t.run = .parked w false →
    0 < s.queueUnits (.pop ctx q) →
    ∃ s' u, exec (.queueSlotPoll ctx q) s = .next s' ∧ s'.qwaits = [⟨.pop ctx q, t.tid, some s.now, none, ext⟩]
      ∧ s'.thread? t.tid = some u ∧ u.run = .parked w true)
  ∧ (∀ (key : QKey) (tid since : Nat) (ext : Bool) (s : State), s.qwaits = [⟨key, tid, some since, none, ext⟩] →
    since + 4096 ≤ s.now →
    ∃ s' x, exec (.holdExpire tid) s = .next s' ∧ s'.qwaits = [x] ∧ x.key = key ∧ x.tid = tid ∧ x.hold = none)
  ∧ (∀ (ctx q cl slot ma : Nat) (j : Job) (s : State), s.job? ctx = some j → s.jobPhys ctx q = some ma →
    let d := s.qdescAt ma
    q ∈ j.mapAsked → d.mapped = false → s.qmalformed ctx d = false → s.mapsTo ctx d cl slot = true → cl < 128 → q % 64 = 0 →
    TablesApart s ctx [ma] (queueVas q d) →
    ∃ s', exec (.queueMap ctx q cl slot) s = .next s' ∧ (s'.cluster cl).slots = (s.cluster cl).slots ++ [⟨slot, ctx, q, s.now⟩]
      ∧ Memory.read s'.mem (ma + 40) 8 = 2 ^ 63 + cl * 2 ^ 8 + slot)
  ∧ (∀ (ctx q q2 : Nat) (c : Cluster) (j : Job) (d : QDesc) (s : State),
    (s.clusters.find? fun k => k.slots.any fun m => m.ctx == ctx && m.q == q) = some c → s.job? ctx = some j → q2 ∈ j.mapAsked →
    s.qdesc ctx q2 = some d → d.mapped = false → c.owner = some ctx →
    (∀ k ∈ s.clusters, k.owner = some ctx → 64 ≤ k.slots.length ∧ hops c.id d.wanted ≤ hops k.id d.wanted) →
    (∃ m ∈ c.slots, m.ctx = ctx ∧ m.q = q ∧ ∀ n ∈ c.slots, m.last ≤ n.last) →
    ∃ s', exec (.queueUnmap ctx q) s = .next s' ∧ ∀ k ∈ s'.clusters, ∀ m ∈ k.slots, ¬ (m.ctx = ctx ∧ m.q = q))
  ∧ (∀ (ctx q pa ha core phase : Nat) (c : Cluster) (d : QDesc) (s : State),
    (s.clusters.find? fun k => k.slots.any fun m => m.ctx == ctx && m.q == q) = some c → s.qdesc ctx q = some d → d.kind = 1 →
    d.mapped = true → d.head.toNat < d.tail.toNat → s.jobRead ctx (d.slotVa d.head) 8 = d.head.toNat →
    s.jobPhys ctx (d.slotVa d.head) = some pa → s.jobPhys ctx (q + 16) = some ha → s.awake pa = true → s.poison = [] →
    let r := taskRecord (spawnImage (Memory.read s.mem pa 64))
    s.badSpawn ctx (clusterCore c.id 0) (Memory.read s.mem pa 64) = none → r.deps = [] →
    s.walkPlace ctx r (r.hintCore (clusterCore c.id 0)) c.id = some (core, phase) → (∀ u ∈ s.threads, u.tid < s.nextTid) →
    ∃ s' u, exec (.spawnQueueConsume ctx q) s = .next s' ∧ s'.thread? s.nextTid = some u ∧ u.loc = .phase core phase ∧ u.note = none
      ∧ u.ctx = ctx ∧ u.c.reg 1#6 = dn r.arg0 ∧ Memory.read s'.mem ha 8 = (d.head + 1#64).toNat)

/-- R292-R296: a sender's and a receiver's `chsend` and `chrecv` leave the rotation (with operand 0, log 46); `chclose` goes on, one opening less; `chq` gives the
channel's words. At the buffer a record is sent where there is room and received where there is one, in order, with the record and its
number; a full or empty buffer makes the forms n fail and the others park with kind QUEUE; a closed and empty channel gives the number sent and a false predicate; a channel
whose consumer is gone a false predicate. -/
def Obligations.Channels : Prop :=
  (∀ (i : Instr) (o : OpQ) (p : Nat) (c : Chan) (s : State) (t : Thread), Clear i s t → Alone t s →
    (srcVal t s 0#2 o.b).toNat % 64 = 0 → (srcVal t s 0#2 o.b).toNat + 64 ≤ (s.near t).size →
    (i = .chsend o → Readable t s 0#2 [o.a, o.b] [] → chanFor .send t s (srcVal t s 0#2 o.a) = .ok (p, c) → c.toStorer = false →
      ∃ s' u, exec i s = .next s' ∧ Leaves t (.chsend o.i o.pd c.n (srcVal t s 0#2 o.b).toNat []) u s')
    ∧ (i = .chrecv o → Readable t s 0#2 [o.a, o.b] [o.d] → chanFor .recv t s (srcVal t s 0#2 o.a) = .ok (p, c) →
      ∃ s' u, exec i s = .next s' ∧ Leaves t (.chrecv o.i o.pd o.d c.n (srcVal t s 0#2 o.b).toNat) u s'))
  ∧ (∀ (o : OpQ) (p : Nat) (c : Chan) (s : State) (t : Thread), Clear (.chclose o) s t → Readable t s 0#2 [o.a] [] → Alone t s →
    chanFor .close t s (srcVal t s 0#2 o.a) = .ok (p, c) →
    ∃ s' u c', exec (.chclose o) s = .next s' ∧ GoesOn t u s' ∧ u.c = t.c ∧ c.n ∈ u.closed
      ∧ s'.chan? p c.n = some c' ∧ c'.opened = c.opened - 1)
  ∧ (∀ (o : OpQ) (p : Nat) (c : Chan) (s : State) (t : Thread), Clear (.chq o) s t → Readable t s 0#2 [o.a] [o.d] → Alone t s →
    chanFor .query t s (srcVal t s 0#2 o.a) = .ok (p, c) → ∃ s' u, exec (.chq o) s = .next s' ∧ Leaves t (.chq o.d c.n) u s')
  ∧ (∀ (d : Reg) (ch p : Nat) (c : Chan) (t : Thread) (s : State), Awaits (.chq d ch) t s → Writable t s d → t.pipeline = some p →
    s.chan? p ch = some c →
    ∃ s' u, exec (.memoryReply t.tid) s = .next s' ∧ Gets t u s s' d (dn ((if c.gone then 2 ^ 61 else 0) + c.opened % 256 * 2 ^ 48
      + (if c.gone then 0 else c.sent - c.recvd) * 2 ^ 40 + c.allow * 2 ^ 32 + c.recvd % 2 ^ 32)))
  ∧ (∀ (n : Bool) (pd : BitVec 2) (ch r p : Nat) (c : Chan) (t : Thread) (s : State), Awaits (.chsend n pd ch r []) t s →
    t.pipeline = some p → s.chan? p ch = some c → s.qwaits = [] →
    (c.gone = false → c.sent - c.recvd < c.allow → soundRange (s.near t).bad 8 r 64 →
      ∃ s' u c', exec (.memoryReply t.tid) s = .next s' ∧ GoesOn t u s' ∧ u.c.x = t.c.x ∧ u.c.pred pd.toNat = true
        ∧ s'.chan? p ch = some c' ∧ c'.sent = c.sent + 1 ∧ c'.recvd = c.recvd
        ∧ (s'.cluster c.cluster).tileRead 0 (c.buf + 64 * (c.sent % c.allow)) 64 = Memory.read (s.near t).spad r 64)
    ∧ (c.gone = true ∨ (c.allow ≤ c.sent - c.recvd ∧ n = true) →
      ∃ s' u, exec (.memoryReply t.tid) s = .next s' ∧ GoesOn t u s' ∧ u.c.x = t.c.x ∧ u.c.pred pd.toNat = (pd = 0#2 : Bool)
        ∧ s'.chan? p ch = some c)
    ∧ (c.gone = false → c.allow ≤ c.sent - c.recvd → n = false →
      ∃ s', exec (.memoryReply t.tid) s = .next s' ∧ ParkedAt t (.send p ch) (2 ^ 31 + ch) 0#64 false s s'))
  ∧ (∀ (n : Bool) (pd : BitVec 2) (d : Reg) (ch r p : Nat) (c : Chan) (t : Thread) (s : State), Awaits (.chrecv n pd d ch r) t s →
    t.isFw = false → t.pipeline = some p → s.chan? p ch = some c → c.gone = false → s.qwaits = [] → Writable t s d →
    c.recvd ≤ c.sent → (c.recvd < c.sent → (s.cluster c.cluster).tileUE = [] →
      ∃ s' u c', exec (.memoryReply t.tid) s = .next s' ∧ Gets t u s s' d (dn c.recvd) ∧ u.c.pred pd.toNat = true
        ∧ s'.chan? p ch = some c' ∧ c'.recvd = c.recvd + 1 ∧ c'.sent = c.sent
        ∧ Memory.read (s'.core t.coreId).spad r 64 = (s.cluster c.cluster).tileRead 0 (c.buf + 64 * (c.recvd % c.allow)) 64)
    ∧ (c.sent = c.recvd → c.opened = 0 →
      ∃ s' u, exec (.memoryReply t.tid) s = .next s' ∧ Gets t u s s' d (dn c.sent) ∧ u.c.pred pd.toNat = (pd = 0#2 : Bool))
    ∧ (c.sent = c.recvd → c.opened ≠ 0 → n = true →
      ∃ s' u, exec (.memoryReply t.tid) s = .next s' ∧ Gets t u s s' d (BitVec.allOnes 64) ∧ u.c.pred pd.toNat = (pd = 0#2 : Bool))
    ∧ (c.sent = c.recvd → c.opened ≠ 0 → n = false →
      ∃ s', exec (.memoryReply t.tid) s = .next s' ∧ ParkedAt t (.recv p ch) (3 * 2 ^ 30 + ch) 0#64 false s s'))

/-- R253, R298-R301: the last fetched piece of a held record makes it ready, and it takes a free phase of its region at once; a pipeline whose phases are free is placed; a stage without tasks
and with every later one released is released, its channels' consumer gone; the loader begins a tile whose slot is free, and sends its record
when its pieces are done; the storer takes the next record, and its slot frees when it is written. -/
def Obligations.Streams : Prop :=
  (∀ (cl id pa k : Nat) (h : Held) (p : Piece) (e : Word × Word) (leaf : Word) (s : State),
    (s.cluster cl).records.find? (fun x => x.id == id) = some h → h.pieces = [(k, p)] → h.r.subs[k]? = some e →
    (tileDesc e.2).codec = false → h.waits = [] → h.readyAt = none → s.xlate h.ctx none .read p.va = .ok pa leaf →
    s.awake pa = true → s.poison = [] → (∀ t, s.thread? h.spawner = some t → t.evicted = false) → h.id = id → s.thread? id = none →
    (s.storePlace h.ctx h.r h.hint = none →
      ∃ s' h', exec (.subscriptionFetchDone cl id 0) s = .next s' ∧ (s'.cluster cl).records.find? (fun x => x.id == id) = some h'
        ∧ h'.pieces = [] ∧ h'.readyAt = some s.now ∧ s'.mem = s.mem)
    ∧ (∀ core phase, s.storePlace h.ctx h.r h.hint = some (core, phase) →
      ∃ s' u, exec (.subscriptionFetchDone cl id 0) s = .next s' ∧ s'.thread? id = some u ∧ u.loc = .phase core phase ∧ u.ctx = h.ctx
        ∧ s'.mem = s.mem))
  ∧ (∀ (pipe core phase : Nat) (p : Pipeline) (g : Stage) (j : Job) (s : State), s.pipe? pipe = some p → p.placed = false →
    s.quiesce = none → p.stages = [g] → g.places = [(core, phase)] → s.canPlace p = true → s.job? p.ctx = some j →
    (∀ u ∈ s.threads, u.tid < s.nextTid) →
    ∃ s' u, exec (.pipelinePlace pipe) s = .next s' ∧ ((s'.pipe? pipe).map (·.placed)) = some true
      ∧ s'.thread? s.nextTid = some u ∧ u.loc = .phase core phase ∧ u.pc = dn (j.cbase + g.entry) ∧ u.pipeline = some pipe
      ∧ u.csr.pin = true ∧ u.c.reg 1#6 = 0#64 ∧ u.c.reg 2#6 = 1#64)
  ∧ (∀ (pipe stage : Nat) (p : Pipeline) (g : Stage) (s : State), s.pipe? pipe = some p →
    p.stages.find? (fun h => h.s == stage) = some g → p.placed = true → g.released = false → g.live = [] →
    (∀ h ∈ p.stages, stage < h.s → h.released = true) → (∃ h ∈ p.stages, h.s < stage ∧ h.released = false) →
    ∃ s' p', exec (.stageRelease pipe stage) s = .next s' ∧ s'.pipe? pipe = some p'
      ∧ p'.stages.find? (fun h => h.s == stage) = some { g with released := true } ∧ ∀ c ∈ p'.chans, c.cons = stage → c.gone = true)
  ∧ (∀ (pipe chan : Nat) (p : Pipeline) (c : Chan) (l : Loader) (s : State), s.pipe? pipe = some p → p.chan? chan = some c →
    c.loader = some l → c.gone = false →
    (l.active = false → l.nextTile < l.count → l.nextTile < c.allow → p.placed = true →
      ∃ s' c' l', exec (.loaderTileStart pipe chan) s = .next s' ∧ s'.chan? pipe chan = some c' ∧ c'.loader = some l'
        ∧ l'.active = true ∧ l'.nextTile = l.nextTile ∧ l'.cursor = l.va + l.nextTile * l.stride ∧ l'.status = 0)
    ∧ (l.active = true → l.pieces = [] →
      ∃ s' c' l', exec (.loaderTileDone pipe chan) s = .next s' ∧ s'.chan? pipe chan = some c' ∧ c'.sent = c.sent + 1
        ∧ c'.loader = some l' ∧ l'.active = false ∧ l'.nextTile = l.nextTile + 1
        ∧ c'.opened = (if l.nextTile + 1 = l.count then c.opened - 1 else c.opened)
        ∧ (s'.cluster c.cluster).tileRead 0 (c.slotAt c.sent) 64 = (l.nextTile + 2 ^ 64 * (l.va + l.nextTile * l.stride)
          + 2 ^ 128 * ((tileDesc l.tdesc).dest + l.nextTile % c.allow * l.slotsz) + 2 ^ 192 * l.status + 2 ^ 256 * l.failva) % 2 ^ 512))
  ∧ (∀ (pipe chan : Nat) (p : Pipeline) (c : Chan) (s : State), s.pipe? pipe = some p → p.chan? chan = some c → c.cons = 0xFF →
    c.gone = false →
    (c.storing = none → c.recvd < c.sent →
      ∃ s' c' j, exec (.storerRecord pipe chan) s = .next s' ∧ s'.chan? pipe chan = some c' ∧ c'.storing = some j
        ∧ j.va = (s.cluster c.cluster).tileRead 0 (c.slotAt c.recvd) 64 % 2 ^ 64)
    ∧ (∀ j, c.storing = some j → j.pieces = [] → (∃ g ∈ p.stages, g.released = false) →
      ∃ s' c', exec (.storerRecordDone pipe chan) s = .next s' ∧ s'.chan? pipe chan = some c' ∧ c'.storing = none
        ∧ c'.recvd = c.recvd + 1))

namespace Sys2Proof.Claims

/-- The numbered engine operations: operands, the registers they read, and their own checks after those of R325 (R328-R333). -/
def numberedOps : Instr → Option (OpM × (List Reg × (Word → Engine → Thread → State → Option Stop)))
  | .mma o => some (o, if o.ctl.getLsbD 1 then [o.a] else [], productStop (Instr.mma o).encode)
  | .mmac o => some (o, if o.ctl.getLsbD 1 then [o.a] else [], productStop (Instr.mmac o).encode)
  | .mdrain o => some (o, [o.a], mdrainStop (Instr.mdrain o).encode)
  | .tld o => some (o, [o.a], tileOpStop (Instr.tld o).encode true)
  | .tst o => some (o, [o.a], tileOpStop (Instr.tst o).encode false)
  | .tzero o => some (o, [], fun _ _ _ _ => none)
  | .azero o => some (o, [], fun _ _ _ _ => none)
  | _ => none

/-- A task holds engine context `e`, which has not halted; no other context of its cluster has that number. -/
structure Bound (t : Thread) (s : State) (e : Engine) : Prop where
  holds : s.engineOf t = some e
  named : s.engine? t.cluster e.idx = some e
  runs : e.halt = false

/-- Operation `o` is the next of context `e`, no word of the context is uncorrectable, and thread `t` waits in its array part. -/
structure InPart (cl : Nat) (e : Engine) (o : ArrRec) (t : Thread) (s : State) : Prop where
  named : s.engine? cl e.idx = some e
  next : e.nextOp = some o
  there : s.thread? e.holder = some t
  waits : t.waitsIn o = true
  tiles : e.tUE = []
  words : e.aUE = []

/-- The waiting thread goes on with the operation's number as its scalar result, and its prefix consumed (R326). -/
def Numbered (o : ArrRec) (t u : Thread) (s' : State) : Prop :=
  GoesOn t u s' ∧ u.c.q0 = o.num ∧ u.c.x = t.c.x ∧ u.csr.pfx = false

/-- A tile register as bytes: the first `n` from `f`, the rest zero. -/
def Filled (m : Mem) (n : Nat) (f : Nat → Nat) : Prop :=
  (∀ i, i < n → (Memory.get m i).toNat = f i) ∧ ∀ i, n ≤ i → i < 4096 → (Memory.get m i).toNat = 0

/-- The element a product finds in its region: 0 in its `.z` form (R330). -/
def before (e : Engine) (o : ArrRec) (x : Nat) : Nat := if (mCtl o.word).getLsbD 0 then 0 else (accAt (e.accOf (mAcc o.word)) x).toNat
/-- The drain of operation `o` stands queued in context `e`, from row 0, with this many columns (R330, R331). -/
def Queued (e : Engine) (o : ArrRec) (cols : Nat) : Prop :=
  ∃ d, e.drainOf (mAcc o.word) = some d ∧ d.row = 0 ∧ d.started = false ∧ d.rows = shapeRows o.sa ∧ d.cols = cols
    ∧ d.slot = mSlot o.word ∧ d.opnum = o.num ∧ d.dword = o.arg

end Sys2Proof.Claims

/-- R325-R327, R346: without a context a numbered engine operation traps ENGINE_UNBOUND with its word; with one, it takes the trap its own
checks find, or, its checks passed, the number after ISSUED, and waits for its array part with kind TIMELINE and that number; one that
drains holds its slot. -/
def Sys2Proof.Claims.EngineOperations : Prop :=
  (∀ (i : Instr) (o : OpM) (srcs : List Reg) (check : Word → Engine → Thread → State → Option Stop) (s : State) (t : Thread),
    numberedOps i = some (o, srcs, check) → Clear i s t → s.engineOf t = none →
    exec i s = .next (takeTrap (chargedThread i t s) .engineUnbound (i.encode.zeroExtend 64) t.pc (chargedState i t s)))
  ∧ (∀ (i : Instr) (o : OpM) (srcs : List Reg) (check : Word → Engine → Thread → State → Option Stop) (s : State) (t : Thread)
    (e : Engine) (c : Cause) (v : Word), numberedOps i = some (o, srcs, check) → Clear i s t → Readable t s 0#2 srcs [] → Bound t s e →
    check (if srcs = [] then 0#64 else srcVal t s 0#2 o.a) e t s = some (.trap c v) →
    exec i s = .next (takeTrap (chargedThread i t s) c v t.pc (chargedState i t s)))
  ∧ (∀ (i : Instr) (o : OpM) (srcs : List Reg) (check : Word → Engine → Thread → State → Option Stop) (s : State) (t : Thread)
    (e : Engine), numberedOps i = some (o, srcs, check) → Clear i s t → Readable t s 0#2 srcs [] → Bound t s e → Uncancelled t →
    e.recordAt t.pc i.encode = none → check (if srcs = [] then 0#64 else srcVal t s 0#2 o.a) e t s = none →
    ∃ s' u w e', exec i s = .next s' ∧ s'.thread? t.tid = some u ∧ u.pc = t.pc ∧ u.c = t.c ∧ u.run = .parked w false
      ∧ w.kind = .timeline ∧ w.operand = e.issued + 1#64 ∧ s'.engine? t.cluster e.idx = some e' ∧ e'.issued = e.issued + 1#64
      ∧ (∃ r ∈ e'.ops, r.num = e.issued + 1#64 ∧ r.pc = t.pc ∧ r.word = i.encode ∧ r.recorded = true ∧ r.running = true ∧ r.finished = false ∧ r.nextk = 0)
      ∧ (drainsOf i.encode = true → ∃ k ∈ (s'.cluster t.cluster).dslots, k.slot = o.slot.toNat ∧ (t.tid, e.issued + 1#64) ∈ k.holds))

/-- R326, R328, R330, R331, R333: the array part of each operation gives its thread its number: `tzero` leaves the tile register zero, `azero`
the accumulator with its kind; `tld` fills the tile register from the tile store and `tst` writes it there, both without a pitch and with the
thread's earlier stores performed; a product sets its accumulator's kind, leaves the tile registers, and one that drains queues its drain;
an integer one of one k-group adds its sums of products to its region, or puts them there in its `.z` form, and leaves the rest; `mdrain`
queues a drain from row 0. -/
def Obligations.ArrayParts : Prop :=
  ∀ (cl : Nat) (e : Engine) (o : ArrRec) (t : Thread) (s : State), InPart cl e o t s →
    let n := mTa o.word
    let c := mAcc o.word
    (mKind o.word = .tzero → ∃ s' u e', exec (.arrayPartDone cl e.idx) s = .next s' ∧ Numbered o t u s'
      ∧ s'.engine? cl e.idx = some e' ∧ Filled (e'.tileOf n) 0 (fun _ => 0) ∧ ∀ m, m ≠ n → e'.tileOf m = e.tileOf m)
    ∧ (mKind o.word = .azero → ∃ s' u e', exec (.arrayPartDone cl e.idx) s = .next s' ∧ Numbered o t u s'
      ∧ s'.engine? cl e.idx = some e' ∧ (∀ x, accAt (e'.accOf c) x = 0#32) ∧ e'.poisOf c = 0#64
      ∧ e'.kindOf c = (mCtl o.word).getLsbD 0 ∧ e'.tiles = e.tiles)
    ∧ (mKind o.word = .tld → s.performed o.after = true → tilePitch o.arg = 0 → (s.cluster cl).tileUE = [] → shapeBytes o.sa ≤ 4096 →
      ∃ s' u e', exec (.arrayPartDone cl e.idx) s = .next s' ∧ Numbered o t u s' ∧ s'.engine? cl e.idx = some e'
        ∧ Filled (e'.tileOf n) (shapeBytes o.sa) (fun i => (s.cluster cl).tileRead (shapeSwz o.sa) (tileAddr o.arg + i) 1)
        ∧ ∀ m, m ≠ n → e'.tileOf m = e.tileOf m)
    ∧ (mKind o.word = .tst → s.performed o.after = true → tilePitch o.arg = 0 →
      ∃ s' u, exec (.arrayPartDone cl e.idx) s = .next s' ∧ Numbered o t u s'
        ∧ (∀ i, i < shapeBytes o.sa → (s'.cluster cl).tileRead (shapeSwz o.sa) (tileAddr o.arg + i) 1 = (Memory.get (e.tileOf n) i).toNat)
        ∧ ∀ a, a < tileAddr o.arg ∨ tileAddr o.arg + shapeBytes o.sa ≤ a →
          (s'.cluster cl).tileRead (shapeSwz o.sa) a 1 = (s.cluster cl).tileRead (shapeSwz o.sa) a 1)
    ∧ (mKind o.word = .mma → o.nextk = 0 → tileInt o.fa.toNat = true → 1 ≤ shapeCols o.sa →
      shapeCols o.sa ≤ 16 → shapeRows o.sa ≤ 64 → shapeCols o.sb ≤ 64 →
      ∃ s' u e', exec (.arrayPartDone cl e.idx) s = .next s' ∧ Numbered o t u s' ∧ s'.engine? cl e.idx = some e' ∧ e'.tiles = e.tiles
        ∧ ∀ i j, i < 64 → j < 64 → accAt (e'.accOf c) (64 * i + j) =
          if i < shapeRows o.sa ∧ j < shapeCols o.sb then
            BitVec.ofNat 32 (accumulateInt (before e o (64 * i + j)) ((List.range (shapeCols o.sa)).map fun k =>
              intValue o.fa.toNat (tileElem (e.tileOf n) (fmtBits (shapeFmt o.sa)) (i * shapeCols o.sa + k))
                * intValue o.fb.toNat (tileElem (e.tileOf (mTb o.word)) (fmtBits (shapeFmt o.sb)) (k * shapeCols o.sb + j))).sum)
          else accAt (e.accOf c) (64 * i + j))
    ∧ ((mKind o.word = .mma ∨ mKind o.word = .mmac) → o.nextk = 0 →
      ∃ s' u e', exec (.arrayPartDone cl e.idx) s = .next s' ∧ Numbered o t u s' ∧ s'.engine? cl e.idx = some e' ∧ e'.tiles = e.tiles
        ∧ e'.kindOf c = tileInt o.fa.toNat
        ∧ e'.poisOf c = (if (mCtl o.word).getLsbD 0 then e.poisOf c &&& ~~~ BitVec.ofNat 64 (2 ^ shapeRows o.sa - 1) else e.poisOf c)
        ∧ ((mCtl o.word).getLsbD 1 = true →
          Queued e' o (if mKind o.word = .mma then shapeCols o.sb else 2 * shapeCols o.sb)))
    ∧ (mKind o.word = .mdrain → ∃ s' u e', exec (.arrayPartDone cl e.idx) s = .next s' ∧ Numbered o t u s'
      ∧ s'.engine? cl e.idx = some e' ∧ Queued e' o (shapeCols o.sa))

/-- R334-R336: `ebind` gives a task its own context's number, or binds a zeroed one, or answers 0x101 to a job that does not hold the cluster,
0x100 where all 16 are bound and 0x102 where the free ones are reserved; `efree` without a context does nothing, with nothing in progress
gives it back, and with something in progress waits for ISSUED; `tlwait` for a number above ISSUED traps ACCESS with it, for one reached
goes on with its core's copies dropped, and for one not reached waits with kind TIMELINE; `tlread` gives TL, the accumulators' poison rows
or ISSUED. -/
def Sys2Proof.Claims.EngineContexts : Prop :=
  (∀ (o : OpM) (s : State) (t : Thread), Clear (.ebind o) s t → Readable t s 0#2 [] [o.a] → Uncancelled t →
    ∃ s' u, exec (.ebind o) s = .next s' ∧ Leaves t (.ebind (o.ctl.extractLsb' 0 2) o.a) u s')
  ∧ (∀ (pd : BitVec 2) (d : Reg) (t : Thread) (s : State), Awaits (.ebind pd d) t s → Writable t s d →
    (∀ e, s.engineOf t = some e →
      ∃ s' u, exec (.memoryReply t.tid) s = .next s' ∧ Gets t u s s' d (dn e.idx) ∧ u.c.pred pd.toNat = true ∧ s'.clusters = s.clusters)
    ∧ (∀ i, s.engineOf t = none → (s.cluster t.cluster).owner = some t.ctx → (s.cluster t.cluster).contextFor t.contract = some i →
      ∃ s' u e, exec (.memoryReply t.tid) s = .next s' ∧ Gets t u s s' d (dn i) ∧ u.c.pred pd.toNat = true ∧ s'.engineOf t = some e
        ∧ e.idx = i ∧ e.tl = 0#64 ∧ e.issued = 0#64 ∧ (∀ n, e.tileOf n = []) ∧ (∀ c x, accAt (e.accOf c) x = 0#32))
    ∧ (s.engineOf t = none → (s.cluster t.cluster).owner ≠ some t.ctx →
      ∃ s' u, exec (.memoryReply t.tid) s = .next s' ∧ Gets t u s s' d 0x101#64 ∧ u.c.pred pd.toNat = (pd = 0#2 : Bool))
    ∧ (s.engineOf t = none → (s.cluster t.cluster).owner = some t.ctx → (s.cluster t.cluster).contextFor t.contract = none →
      ∃ s' u, exec (.memoryReply t.tid) s = .next s'
        ∧ Gets t u s s' d (if 16 ≤ (s.cluster t.cluster).engines.length then 0x100#64 else 0x102#64)
        ∧ u.c.pred pd.toNat = (pd = 0#2 : Bool)))
  ∧ (∀ (o : OpM) (s : State) (t : Thread), Clear (.efree o) s t →
    (s.engineOf t = none → ∃ s' u, exec (.efree o) s = .next s' ∧ GoesOn t u s' ∧ u.c = t.c ∧ s'.clusters = s.clusters)
    ∧ (∀ e, Bound t s e → e.ops = [] → e.landing = [] → (∀ c, e.drainOf c = none) →
      ∃ s' u, exec (.efree o) s = .next s' ∧ GoesOn t u s' ∧ u.c = t.c ∧ s'.engineOf u = none)
    ∧ (∀ e, Bound t s e → e.clearRecord.settle.tl ≠ e.issued → Uncancelled t →
      ∃ s' u w, exec (.efree o) s = .next s' ∧ s'.thread? t.tid = some u ∧ u.pc = t.pc ∧ u.c = t.c ∧ u.run = .parked w false
        ∧ w.kind = .timeline ∧ w.operand = e.issued))
  ∧ (∀ (o : OpM) (e : Engine) (s : State) (t : Thread), Clear (.tlwait o) s t → Readable t s 0#2 [o.a] [] → Bound t s e →
    e.issued < srcVal t s 0#2 o.a →
    exec (.tlwait o) s
      = .next (takeTrap (chargedThread (.tlwait o) t s) .access (srcVal t s 0#2 o.a) t.pc (chargedState (.tlwait o) t s)))
  ∧ (∀ (o : OpM) (e : Engine) (s : State) (t : Thread), Clear (.tlwait o) s t → Readable t s 0#2 [o.a] [] → RegionsDone t s → Bound t s e →
    srcVal t s 0#2 o.a ≤ e.issued →
    (srcVal t s 0#2 o.a ≤ e.clearRecord.settle.tl →
      ∃ s' u, exec (.tlwait o) s = .next s' ∧ GoesOn t u s' ∧ u.c = t.c ∧ (s'.core t.coreId).l1 = [])
    ∧ (¬ srcVal t s 0#2 o.a ≤ e.clearRecord.settle.tl → Uncancelled t →
      ∃ s' u w, exec (.tlwait o) s = .next s' ∧ s'.thread? t.tid = some u ∧ u.pc = t.pc ∧ u.c = t.c ∧ u.run = .parked w false
        ∧ w.kind = .timeline ∧ w.operand = srcVal t s 0#2 o.a))
  ∧ (∀ (o : OpM) (e : Engine) (s : State) (t : Thread), Clear (.tlread o) s t → Readable t s 0#2 [] [o.a] → Bound t s e →
    let x := match (o.ctl.extractLsb' 0 2).toNat with
      | 0 => e.clearRecord.settle.tl
      | 1 => e.poisOf 0
      | 2 => e.poisOf 1
      | _ => e.issued
    ∃ s' u, exec (.tlread o) s = .next s' ∧ Gets t u s s' o.a x ∧ othersKept t u o.a)

namespace Sys2Proof.Claims

/-- A drain of accumulator `c` of context `e` is at the start of a row, its slot loaded, its context at work. -/
structure Draining (cl : Nat) (e : Engine) (c : Nat) (d : DrainRec) (k : DSlot) (s : State) : Prop where
  acc : c < 2
  named : s.engine? cl e.idx = some e
  drain : e.drainOf c = some d
  after : s.performed d.after = true
  slot : (s.cluster cl).dslots.find? (fun k => k.slot == d.slot) = some k
  works : s.engineRuns e = true
  goes : d.stop = false

/-- The record after a row names the next row; after the last row the drain waits for its stores only. -/
def RowDone (e e' : Engine) (c : Nat) (d : DrainRec) : Prop :=
  let d' := { d with row := d.row + 1, col := 0, step := 0 }
  if d.row + 1 < d.rows then e'.drainOf c = some d' ∧ e'.landing = e.landing
  else e'.drainOf c = none ∧ e'.landing = e.landing ++ [(c, d')]

end Sys2Proof.Claims

/-- R352, R355, R356, R362, R363, R339, R346: a queued drain starts; a row of a program of `d.end` alone changes only the row number; one of
`d.st` stores the row's elements, packed from the destination; a store past the tile store's end stops the drain with KIND 1 and halts the
context; after its last row a drain leaves its accumulator, and when it completes, its hold on the slot ends. -/
def Sys2Proof.Claims.Drains : Prop :=
  (∀ (cl : Nat) (e : Engine) (c : Nat) (d : DrainRec) (k : DSlot) (s : State), Draining cl e c d k s →
    (d.started = false → ∃ s' e', exec (.drainStart cl e.idx c) s = .next s' ∧ s'.engine? cl e.idx = some e'
      ∧ e'.drainOf c = some { d with started := true } ∧ e'.acc = e.acc)
    ∧ (∀ rest, d.started = true → d.row < d.rows → k.code = 0x08000000#32 :: rest →
      ∃ s' e', exec (.drainRowDone cl e.idx c) s = .next s' ∧ s'.engine? cl e.idx = some e'
        ∧ RowDone e e' c d ∧ e'.acc = e.acc
        ∧ (s'.cluster cl).tile = (s.cluster cl).tile)
    ∧ (∀ rest, d.started = true → d.row < d.rows → k.code = 0x78000000#32 :: 0x08000000#32 :: rest → d.step = 0 → d.col = 0 →
      drainSwz d.dword < 4 → e.aUE = [] →
      let dst := fun n => drainDst d.dword + 4 * (d.row * d.cols + n)
      (drainDst d.dword + 4 * (d.row * d.cols + d.cols) ≤ 4194304 →
        ∃ s' e', exec (.drainRowDone cl e.idx c) s = .next s' ∧ s'.engine? cl e.idx = some e'
          ∧ RowDone e e' c d ∧ e'.acc = e.acc
          ∧ (∀ n, n < d.cols → (s'.cluster cl).tileRead (drainSwz d.dword) (dst n) 4 = (accAt (e.accOf c) (64 * d.row + n)).toNat)
          ∧ ∀ a, a < dst 0 ∨ dst d.cols ≤ a →
            (s'.cluster cl).tileRead (drainSwz d.dword) a 1 = (s.cluster cl).tileRead (drainSwz d.dword) a 1)
      ∧ (0 < d.cols → 4194304 < dst 0 + 4 →
        ∃ s' e' d', exec (.drainRowDone cl e.idx c) s = .next s' ∧ s'.engine? cl e.idx = some e' ∧ e'.drainOf c = some d'
          ∧ d'.stop = true ∧ d'.row = d.row ∧ d'.col = 0 ∧ d'.step = 0 ∧ e'.halt = true ∧ (s'.cluster cl).tile = (s.cluster cl).tile
          ∧ d'.fault = dn (2 ^ 57 + max 4194304 (dst 0) * 2 ^ 34 + c * 2 ^ 33 + d.slot * 2 ^ 22 + d.row * 2 ^ 6)))
  )
  ∧ (∀ (cl : Nat) (e : Engine) (c : Nat) (d : DrainRec) (s : State), s.engine? cl e.idx = some e → s.engineRuns e = true →
    e.landing.find? (fun l => l.1 == c) = some (c, d) →
    ∃ s' e', exec (.drainComplete cl e.idx c) s = .next s' ∧ s'.engine? cl e.idx = some e' ∧ e'.landing = e.landing.erase (c, d)
      ∧ e'.acc = e.acc ∧ e'.drains = e.drains
      ∧ (s'.cluster cl).dslots = (s.cluster cl).dslots.map fun k =>
          if k.slot = d.slot then { k with holds := k.holds.erase (e.holder, d.opnum) } else k)

namespace Sys2Proof.Claims

/-- The waits on a thread's own timelines, and the instructions that read them: row operations and queries (R383, R408). -/
def ownWaits : Instr → Option (OpR × ((Thread → Word) × (Thread → Word)))
  | .mrowWait o => some (o, (·.rtl), (·.rissued))
  | .aqWait o => some (o, (·.qtl), (·.qissued))
  | _ => none
def ownReads : Instr → Option (OpR × (Thread → Word))
  | .mrowTl o => some (o, (·.rtl))
  | .mrowIss o => some (o, (·.rissued))
  | .aqTl o => some (o, (·.qtl))
  | .aqIss o => some (o, (·.qissued))
  | _ => none

/-- No other thread waits for a unit of resource `r` at that core (R165, R169, R379, R399). -/
def Unrivalled (r : Res) (core : Nat) (t : Thread) (s : State) : Prop := s.othersBefore t r core = false

/-- The thread `tid` is not evicted: work billed to it touches no memory (R316). -/
def NotFramed (s : State) (tid : Nat) : Prop := ∀ t, s.thread? tid = some t → t.evicted = false

/-- The checks of R379, in its order. -/
def row379 (copy : Bool) (len dst src : Nat) : Option (Cause × Nat) :=
  if len = 0 ∨ len % 1024 ≠ 0 ∨ 2 ^ 30 < len then some (.access, len)
  else if dst % 1024 ≠ 0 then some (.misaligned, dst)
  else if copy = true ∧ src % 1024 ≠ 0 then some (.misaligned, src)
  else if 2 ^ 52 < dst + len then some (.access, dst)
  else if copy = true ∧ 2 ^ 52 < src + len then some (.access, src)
  else if copy = true ∧ dst ≠ src ∧ dst < src + len ∧ src < dst + len then some (.access, dst)
  else none

end Sys2Proof.Claims

/-- R379-R381: `mrow.zero` and `mrow.copy` take the trap of the first check of R379 that fails; where none does and the row queue has room
they take the number after RISSUED, put it in d and enter the row queue; a chunk of a zeroing writes 1,024 zero bytes at its destination and
one of a copy the bytes of its source, and no other byte; the last chunk of the only operation of its thread brings RTL to RISSUED. -/
def Sys2Proof.Claims.RowOperations : Prop :=
  (∀ (i : Instr) (o : OpR) (copy : Bool) (s : State) (t : Thread), (i = .mrowZero o ∧ copy = false ∨ i = .mrowCopy o ∧ copy = true) →
    Clear i s t → Readable t s o.w (o.d :: o.a :: if copy then [o.b] else []) [] →
    let len := (srcVal t s o.w o.d).toNat
    let dst := (srcVal t s o.w o.a).toNat
    let src := if copy then (srcVal t s o.w o.b).toNat else dst
    match row379 copy len dst src with
    | some r => exec i s = .next (takeTrap (chargedThread i t s) r.1 (dn r.2) t.pc (chargedState i t s))
    | none =>
      Unrivalled .rowq t.coreId t s → (s.core t.coreId).rowq.length < 8 →
      ∃ s' u r, exec i s = .next s' ∧ GoesOn t u s' ∧ Holds t s o.w o.d (t.rissued + 1#64) u s' ∧ u.c.q0 = t.rissued + 1#64
        ∧ u.rissued = t.rissued + 1#64 ∧ u.rtl = t.rtl ∧ (s'.core t.coreId).rowq = (s.core t.coreId).rowq ++ [r] ∧ r.tid = t.tid
        ∧ r.num = t.rissued + 1#64 ∧ r.copy = copy ∧ r.dst = dst ∧ r.src = src ∧ r.left = List.range (len / 1024)
        ∧ r.after = (s.storesOf t.tid).map (·.id) ∧ (t.handler = none → s'.mem = s.mem))
  ∧ (∀ (core k : Nat) (r : RowOp) (dst src : Nat) (dl sl : Word) (s : State), s.rowOp? core r.id = some r → k ∈ r.left → r.early = [] →
    s.performed r.after = true → s.xlate r.ctx (some core) .write (r.dst + 1024 * k) = .ok dst dl → s.bufferRoom dst = true →
    (r.copy = true → s.xlate r.ctx (some core) .read (r.src + 1024 * k) = .ok src sl ∧ s.awake src = true) → NotFramed s r.tid →
    (r.copy = true → s.poison = []) → (r.copy = true → dst = src ∨ dst + 1024 ≤ src ∨ src + 1024 ≤ dst) →
    ∃ s', exec (.rowChunkDone core r.id k) s = .next s'
      ∧ (∀ i, i < 1024 → Memory.get s'.mem (dst + i) = if r.copy then Memory.get s.mem (src + i) else 0#8)
      ∧ (∀ a, a < dst ∨ dst + 1024 ≤ a → Memory.get s'.mem a = Memory.get s.mem a)
      ∧ (r.left ≠ [k] → r.left.Nodup → ∃ q, s'.rowOp? core r.id = some q ∧ q = { r with left := r.left.filter (· != k) })
      ∧ (r.left = [k] → s'.rowOp? core r.id = none
        ∧ ((∀ c ∈ s.cores, ∀ q ∈ c.rowq, q.tid = r.tid → c.id = core ∧ q.id = r.id) → ∀ t, s.thread? r.tid = some t →
          ∃ u, s'.thread? r.tid = some u ∧ u.rtl = t.rissued)))

/-- R237, R383, R408: `mrow.tl`, `mrow.iss`, `aq.tl` and `aq.iss` give the counts of their thread; `mrow.wait` and `aq.wait` for a number
above those issued trap ACCESS with it, for a number reached go on with the core's L1 copies dropped, and for a number issued but not
reached park with kind TIMELINE and that number. -/
def Sys2Proof.Claims.OwnTimelines : Prop :=
  (∀ (i : Instr) (o : OpR) (f : Thread → Word) (s : State) (t : Thread), ownReads i = some (o, f) → Clear i s t →
    Readable t s o.w [] [o.d] →
    ∃ s' u, exec i s = .next s' ∧ GoesOn t u s' ∧ Holds t s o.w o.d (f t) u s' ∧ u.c.q0 = f t ∧ u.c.q1 = t.c.q0)
  ∧ (∀ (i : Instr) (o : OpR) (tl issued : Thread → Word) (s : State) (t : Thread), ownWaits i = some (o, tl, issued) → Clear i s t →
    Readable t s o.w [o.a] [] → t.isFw = false →
    (issued t < srcVal t s o.w o.a →
      exec i s = .next (takeTrap (chargedThread i t s) .access (srcVal t s o.w o.a) t.pc (chargedState i t s)))
    ∧ (srcVal t s o.w o.a ≤ issued t → srcVal t s o.w o.a ≤ tl t → RegionsDone t s →
      ∃ s' u, exec i s = .next s' ∧ GoesOn t u s' ∧ u.c = t.c ∧ (s'.core t.coreId).l1 = [] ∧ (t.handler = none → s'.mem = s.mem))
    ∧ (srcVal t s o.w o.a ≤ issued t → ¬ srcVal t s o.w o.a ≤ tl t → Uncancelled t → t.handler = none →
      ∃ s' u w, exec i s = .next s' ∧ s'.thread? t.tid = some u ∧ u.pc = t.pc ∧ u.c = t.c ∧ u.run = .parked w false
        ∧ w.kind = .timeline ∧ w.operand = srcVal t s o.w o.a))

namespace Sys2Proof.Claims

/-- The bytes at an address of a thread's scratchpad. -/
def spadAt (t : Thread) (s : State) (a n : Nat) : Nat := Memory.read (s.near t).spad a n

/-- A query descriptor at `a` that meets every check of R399. -/
structure GoodPost (t : Thread) (s : State) (a : Nat) : Prop where
  aligned : a % 64 = 0
  dim : spadAt t s (a + 21) 1 = 64 ∨ spadAt t s (a + 21) 1 = 128
  inside : a + 64 + 2 * spadAt t s (a + 21) 1 ≤ (s.near t).size
  sound : soundRange (s.near t).bad 8 a (64 + 2 * spadAt t s (a + 21) 1)
  pages : 1 ≤ spadAt t s (a + 20) 1 ∧ spadAt t s (a + 20) 1 ≤ 64
  flags : spadAt t s (a + 22) 1 < 2
  reserved : spadAt t s (a + 23) 41 = 0
  finite : spadAt t s (a + 12) 4 / 2 ^ 23 % 256 ≠ 255
  len : spadAt t s (a + 8) 4 ≤ spadAt t s (a + 20) 1 * 64 * (1024 / (4 * spadAt t s (a + 21) 1))
  table : spadAt t s a 8 % 8 = 0 ∧ spadAt t s a 8 < 2 ^ 52
  result : spadAt t s (a + 16) 4 % 64 = 0
    ∧ spadAt t s (a + 16) 4 + (if spadAt t s (a + 22) 1 = 1 then spadAt t s (a + 20) 1 else 1) * (64 + 4 * spadAt t s (a + 21) 1)
      ≤ (s.near t).size

/-- A record operand of `aq.merge` or `aq.norm` (R405): aligned, in the scratchpad with its elements, its head acceptable, sound. -/
structure GoodRecord (t : Thread) (s : State) (a dim : Nat) : Prop where
  aligned : a % 64 = 0
  inside : a + 64 + 4 * dim ≤ (s.near t).size
  named : spadAt t s (a + 9) 1 = dim
  legal : dim = 64 ∨ dim = 128
  flags : spadAt t s (a + 8) 1 < 8
  reserved : spadAt t s (a + 14) 2 = 0 ∧ spadAt t s (a + 40) 24 = 0
  sound : soundRange (s.near t).bad 8 a (64 + 4 * dim)

/-- The record at an address (R400). -/
def recordAt (t : Thread) (s : State) (a dim : Nat) : AqRec := readRecord (spadAt t s a (64 + 4 * dim))

/-- A query is inside its stack's controller; row `p.2.1` of its page `g` may be scanned now (R412, R415). -/
structure Scanning (s : State) (q : Query) (g : Nat) (p : (Nat × Nat) × (Nat × AqRec)) : Prop where
  there : s.query? q.id = some q
  handed : q.handed = true
  page : q.pages[g]? = some p
  left : q.desc.pageDone g p = false
  after : s.performed q.after = true
  bank : s.bankTaken q p.1.2 = false
  awake : s.awake p.1.1 = true

/-- The load word of R348 is a good one: reserved bits 0, SCLOG at most 12, a side channel aligned and inside the tile store. -/
def LoadWord (x : Word) : Prop :=
  part x 42 22 = 0 ∧ part x 6 10 = 0 ∧ part x 38 4 ≤ 12
    ∧ (part x 38 4 ≠ 0 → part x 16 22 % 8 = 0 ∧ part x 16 22 + 16 + 8 * 2 ^ part x 38 4 ≤ 4194304)

/-- The address of a position's key and value vectors in a page (R395). -/
def vectorAt (d : AqDesc) (p : (Nat × Nat) × (Nat × AqRec)) (pos : Nat) : Nat :=
  p.1.1 + 1024 * p.2.1 + 4 * d.dim * (pos % (1024 / (4 * d.dim)))

end Sys2Proof.Claims

/-- R399, R405-R407: `aq.post` takes the trap of the first check of its descriptor that fails, or leaves the rotation with the descriptor
read; once its thread's earlier stores are performed its reply takes the trap its table or pages ask for, or is the number after QISSUED
with the query on its way; `aq.merge` writes the merge of its two records at a and gives NPOS and the flags;
`aq.norm` and `aq.norm.b` of an empty record write zeros; the bytes are in the scratchpad with the reply, and no other byte changes. -/
def Sys2Proof.Claims.AttentionOperations : Prop :=
  (∀ (o : OpR) (s : State) (t : Thread) (c : Cause) (v : Word), Clear (.aqPost o) s t → Readable t s o.w [o.a] [o.d] →
    postStop (srcVal t s o.w o.a) t s = some (.trap c v) →
    exec (.aqPost o) s = .next (takeTrap (chargedThread (.aqPost o) t s) c v t.pc (chargedState (.aqPost o) t s)))
  ∧ (∀ (o : OpR) (s : State) (t : Thread), Clear (.aqPost o) s t → Readable t s o.w [o.a] [o.d] → Uncancelled t → Unrivalled .query t.coreId t s →
    s.queriesOf t.coreId < 16 → GoodPost t s (srcVal t s o.w o.a).toNat →
    let a := (srcVal t s o.w o.a).toNat
    ∃ s' u x, exec (.aqPost o) s = .next s' ∧ Leaves t (.aqPost o.d t.coreId x ((s.storesOf t.tid).map (·.id))) u s' ∧ x.table = spadAt t s a 8 ∧ x.len = spadAt t s (a + 8) 4
      ∧ x.scale.toNat = spadAt t s (a + 12) 4 ∧ x.res = spadAt t s (a + 16) 4 ∧ x.npg = spadAt t s (a + 20) 1
      ∧ x.dim = spadAt t s (a + 21) 1 ∧ x.banks = (spadAt t s (a + 22) 1 % 2 == 1) ∧ x.q = spadAt t s (a + 64) (2 * x.dim))
  ∧ (∀ (d : Reg) (core : Nat) (x : AqDesc) (after : List Nat) (c : Cause) (v : Word) (t : Thread) (s : State),
    Awaits (.aqPost d core x after) t s → HasHandler t → s.performed after = true → s.posted t.ctx core x = .stop c v →
    ∃ s' u, exec (.memoryReply t.tid) s = .next s' ∧ s'.thread? t.tid = some u ∧ Trapped t c.code v u ∧ s'.queries = s.queries)
  ∧ (∀ (d : Reg) (core : Nat) (x : AqDesc) (after : List Nat) (pages : List (Nat × Nat)) (stack : Nat) (vas : List Nat) (t : Thread)
    (s : State), Awaits (.aqPost d core x after) t s → Writable t s d → s.performed after = true →
    s.posted t.ctx core x = .ok pages stack vas →
    ∃ s' u q, exec (.memoryReply t.tid) s = .next s' ∧ Gets t u s s' d (t.qissued + 1#64) ∧ u.qissued = t.qissued + 1#64
      ∧ s'.queries = s.queries ++ [q] ∧ q.tid = t.tid ∧ q.num = t.qissued + 1#64 ∧ q.desc = x ∧ q.stack = stack ∧ q.handed = false
      ∧ q.core = core ∧ q.vas = vas ∧ q.after = after ∧ q.pages.map (·.1) = pages ∧ ∀ p ∈ q.pages, p.2.1 = 0 ∧ p.2.2.empty = true ∧ p.2.2.npos = 0)
  ∧ (∀ (o : OpR) (dim : Nat) (s : State) (t : Thread), Clear (.aqMerge o) s t → Readable t s o.w [o.a, o.b] [o.d] → Uncancelled t →
    GoodRecord t s (srcVal t s o.w o.a).toNat dim → GoodRecord t s (srcVal t s o.w o.b).toNat dim →
    let x := recordAt t s (srcVal t s o.w o.a).toNat dim
    let y := recordAt t s (srcVal t s o.w o.b).toNat dim
    ∃ (s' : State) (u : Thread) (z : AqRec) (due : Nat), exec (.aqMerge o) s = .next s'
      ∧ Leaves t (.aqBytes t.coreId (srcVal t s o.w o.a).toNat (64 + 4 * dim) z.image o.d (dn (z.npos * 2 ^ 32 + z.flags)) due) u s'
      ∧ z.npos = min (x.npos + y.npos) 0xFFFFFFFF ∧ z.empty = (x.empty && y.empty) ∧ z.err = (x.err || y.err) ∧ z.merged = true
      ∧ z.errmask = x.errmask ||| y.errmask ∧ z.errpos = min x.errpos y.errpos ∧ z.page = 0xFF ∧ z.bank = 0xFFFF ∧ z.dim = dim
      ∧ z.num = x.num ∧ z.stack = (if x.stack = y.stack then x.stack else 0xFF)
      ∧ (y.empty = true → x.empty = false → z.m = x.m ∧ z.s = x.s ∧ z.a = x.a)
      ∧ (x.empty = true → y.empty = false → z.m = y.m ∧ z.s = y.s ∧ z.a = y.a))
  ∧ (∀ (i : Instr) (o : OpR) (bytes dim : Nat) (s : State) (t : Thread), (i = .aqNorm o ∧ bytes = 4 ∨ i = .aqNormB o ∧ bytes = 2) →
    Clear i s t → Readable t s o.w [o.a, o.b] [o.d] → Uncancelled t → GoodRecord t s (srcVal t s o.w o.a).toNat dim →
    (srcVal t s o.w o.b).toNat % 64 = 0 → (srcVal t s o.w o.b).toNat + bytes * dim ≤ (s.near t).size →
    let x := recordAt t s (srcVal t s o.w o.a).toNat dim
    ∃ s' u v due, exec i s = .next s'
      ∧ Leaves t (.aqBytes t.coreId (srcVal t s o.w o.b).toNat (bytes * dim) v o.d (dn (x.npos * 2 ^ 32 + x.flags)) due) u s'
      ∧ (x.empty = true → v = 0))
  ∧ (∀ (core addr size v due : Nat) (d : Reg) (x : Word) (t : Thread) (s : State), Awaits (.aqBytes core addr size v d x due) t s →
    Writable t s d → due ≤ s.now →
    ∃ s' u, exec (.memoryReply t.tid) s = .next s' ∧ Gets t u s s' d x
      ∧ Memory.read (s'.core core).spad addr size = v % 256 ^ size
      ∧ ∀ a, a < addr ∨ addr + size ≤ a → Memory.get (s'.core core).spad a = Memory.get (s.core core).spad a)

/-- R401-R404, R408-R410, R415: a query enters a controller that holds fewer than 256; a scan step merges the positions of one row, in
ascending order, into its page's record, and an uncorrectable word of a vector makes that record the empty one with ERR, the page's bit in
ERRMASK and the position in ERRPOS; a query whose pages are done writes its results at RES of the core where its post issued, and brings QTL
to QISSUED where it was its thread's only one. -/
def Sys2Proof.Claims.AttentionScans : Prop :=
  (∀ (q : Query) (s : State), s.query? q.id = some q → q.handed = false →
    (s.queries.filter fun k => k.handed && k.stack == q.stack).length < 256 →
    ∃ s', exec (.queryHandover q.id) s = .next s' ∧ s'.query? q.id = some { q with handed := true } ∧ s'.mem = s.mem)
  ∧ (∀ (q : Query) (g : Nat) (p : (Nat × Nat) × (Nat × AqRec)) (s : State), Scanning s q g p →
    (s.poison = [] → ∃ s' q' r, exec (.scanStep q.id g) s = .next s' ∧ s'.query? q.id = some q'
      ∧ q'.pages = q.pages.set g (p.1, (p.2.1 + 1, r))
      ∧ r = (q.desc.rowOf g p.2.1).foldl (fun r pos => mergeRec r (positionRec q.desc
          (Memory.read s.mem (vectorAt q.desc p pos) (2 * q.desc.dim))
          (Memory.read s.mem (vectorAt q.desc p pos + 2 * q.desc.dim) (2 * q.desc.dim)))) p.2.2)
    ∧ (∀ pos, (q.desc.rowOf g p.2.1).head? = some pos → (s.poisonAt (vectorAt q.desc p pos) (4 * q.desc.dim)).isSome = true →
      ∃ s' q' r, exec (.scanStep q.id g) s = .next s' ∧ s'.query? q.id = some q' ∧ q'.pages = q.pages.set g (p.1, (p.2.1 + 1, r))
        ∧ r.err = true ∧ r.empty = true ∧ r.errmask = 1#64 <<< g ∧ r.errpos = pos ∧ r.npos = 0))
  ∧ (∀ (q : Query) (s : State), s.query? q.id = some q → q.handed = true → q.done = true → s.performed q.after = true →
    ∃ s', exec (.queryComplete q.id) s = .next s' ∧ s'.query? q.id = none
      ∧ (q.early = [] →
        Memory.read (s'.core q.core).spad q.desc.res q.desc.resultBytes = q.result % 256 ^ q.desc.resultBytes)
      ∧ (∀ a, a < q.desc.res ∨ q.desc.res + q.desc.resultBytes ≤ a →
        Memory.get (s'.core q.core).spad a = Memory.get (s.core q.core).spad a)
      ∧ ((∀ k ∈ s.queries, k.tid = q.tid → k.id = q.id) → ∀ t, s.thread? q.tid = some t →
        ∃ u, s'.thread? q.tid = some u ∧ u.qtl = t.qissued))

/-- R345, R348-R350: `dpm.load` of a good load word and image leaves the rotation with the 32 words read, and traps as R348 says on a bad
one; its reply is 1 where the slot is
loaded, 2 + 256·k for a malformed image whose lowest offending word is k, and otherwise 0 with the slot loaded and nothing holding it;
`dpm.free` of a slot number by a job that holds the cluster leaves the rotation, and traps ACCESS otherwise; its reply is 1 for a slot that
is free, 2 for one that is held, and otherwise 0 with the slot free. -/
def Sys2Proof.Claims.DrainPrograms : Prop :=
  (∀ (o : OpR) (s : State) (t : Thread), Clear (.dpmLoad o) s t → Readable t s o.w [o.a, o.b] [o.d] →
    let x := srcVal t s o.w o.a
    let a := (srcVal t s o.w o.b).toNat
    let traps : Cause → Word → Prop := fun c v =>
      exec (.dpmLoad o) s = .next (takeTrap (chargedThread (.dpmLoad o) t s) c v t.pc (chargedState (.dpmLoad o) t s))
    (¬ LoadWord x → traps .access x)
    ∧ (LoadWord x → a % 16 ≠ 0 → traps .misaligned (srcVal t s o.w o.b))
    ∧ (LoadWord x → a % 16 = 0 → (s.near t).size < a + 128 → traps .access (srcVal t s o.w o.b))
    ∧ (LoadWord x → a % 16 = 0 → a + 128 ≤ (s.near t).size → s.holds t.ctx t.cluster = false → traps .access x)
    ∧ (LoadWord x → a % 16 = 0 → a + 128 ≤ (s.near t).size → s.holds t.ctx t.cluster = true →
      (∀ k, badFirst (s.near t).bad 8 a 128 k → traps .ue (dn (a + k)))
      ∧ (soundRange (s.near t).bad 8 a 128 → Uncancelled t →
        ∃ s' u image, exec (.dpmLoad o) s = .next s' ∧ Leaves t (.dpmLoad o.d x image) u s' ∧ image.length = 32
          ∧ ∀ i, i < 32 → (image.getD i 0#32).toNat = spadAt t s (a + 4 * i) 4)))
  ∧ (∀ (d : Reg) (x : Word) (image : List W32) (t : Thread) (s : State), Awaits (.dpmLoad d x image) t s → Writable t s d →
    let slot := x.toNat % 64
    let loaded := (s.cluster t.cluster).dslots.any fun k => k.slot == slot
    (loaded = true → ∃ s' u, exec (.memoryReply t.tid) s = .next s' ∧ Gets t u s s' d 1#64 ∧ s'.clusters = s.clusters)
    ∧ (∀ k, loaded = false → malformed image (x.toNat / 2 ^ 38 % 16) = some k →
      ∃ s' u, exec (.memoryReply t.tid) s = .next s' ∧ Gets t u s s' d (dn (2 + 256 * k)) ∧ s'.clusters = s.clusters)
    ∧ (loaded = false → malformed image (x.toNat / 2 ^ 38 % 16) = none →
      ∃ s' u k, exec (.memoryReply t.tid) s = .next s' ∧ Gets t u s s' d 0#64
        ∧ (s'.cluster t.cluster).dslots = (s.cluster t.cluster).dslots ++ [k] ∧ k.slot = slot ∧ k.code = image ∧ k.holds = []
        ∧ k.sclog = x.toNat / 2 ^ 38 % 16 ∧ k.scbase = x.toNat / 2 ^ 16 % 2 ^ 22))
  ∧ (∀ (o : OpR) (s : State) (t : Thread), Clear (.dpmFree o) s t → Readable t s o.w [o.a] [o.d] →
    let a := srcVal t s o.w o.a
    (a.toNat < 64 ∧ s.holds t.ctx t.cluster = true → Uncancelled t →
      ∃ s' u, exec (.dpmFree o) s = .next s' ∧ Leaves t (.dpmFree o.d a.toNat) u s')
    ∧ (¬ (a.toNat < 64 ∧ s.holds t.ctx t.cluster = true) →
      exec (.dpmFree o) s = .next (takeTrap (chargedThread (.dpmFree o) t s) .access a t.pc (chargedState (.dpmFree o) t s))))
  ∧ (∀ (d : Reg) (slot : Nat) (t : Thread) (s : State), Awaits (.dpmFree d slot) t s → Writable t s d →
    ((∀ k ∈ (s.cluster t.cluster).dslots, k.slot ≠ slot) →
      ∃ s' u, exec (.memoryReply t.tid) s = .next s' ∧ Gets t u s s' d 1#64 ∧ s'.clusters = s.clusters)
    ∧ (∀ k, (s.cluster t.cluster).dslots.find? (fun k => k.slot == slot) = some k → k.holds ≠ [] →
      ∃ s' u, exec (.memoryReply t.tid) s = .next s' ∧ Gets t u s s' d 2#64 ∧ s'.clusters = s.clusters)
    ∧ (∀ k, (s.cluster t.cluster).dslots.find? (fun k => k.slot == slot) = some k → k.holds = [] →
      ∃ s' u, exec (.memoryReply t.tid) s = .next s' ∧ Gets t u s s' d 0#64 ∧ ∀ k ∈ (s'.cluster t.cluster).dslots, k.slot ≠ slot))

namespace Sys2Proof.Claims

/-- A 64-byte descriptor or record at `a` of a thread's scratchpad that can be read (R437, R445). -/
structure GoodBytes (t : Thread) (s : State) (a : Nat) : Prop where
  aligned : a % 64 = 0
  inside : a + 64 ≤ (s.near t).size
  sound : soundRange (s.near t).bad 8 a 64

/-- The number at bytes `off` to `off + n - 1` of the 64 bytes at `a`. -/
def fieldAt (t : Thread) (s : State) (a off n : Nat) : Nat := spadAt t s (a + off) n

/-- A frame descriptor that meets R436. -/
structure GoodFrame (t : Thread) (s : State) (k : Stream) (a : Nat) : Prop where
  pitch : fieldAt t s a 28 2 % 64 = 0 ∧ k.width ≤ fieldAt t s a 28 2
  stat : fieldAt t s a 32 8 % 32 = 0
  flags : fieldAt t s a 40 1 < 2
  qp : k.codec = 1 → fieldAt t s a 41 1 ≤ 51
  reserved : fieldAt t s a 30 2 = 0 ∧ fieldAt t s a 42 2 = 0 ∧ fieldAt t s a 56 8 = 0
  note : fieldAt t s a 48 8 = 0 ∨ s.handleOk (dn (fieldAt t s a 48 8)) = true

/-- The fields of a remote put's descriptor are in their sets and its chip is reached (R433). -/
structure PutFields (t : Thread) (s : State) (a : Nat) : Prop where
  reserved : fieldAt t s a 25 7 = 0 ∧ fieldAt t s a 40 24 = 0
  tag : fieldAt t s a 24 1 < 64
  len : 1 ≤ fieldAt t s a 16 4 ∧ fieldAt t s a 16 4 ≤ 1048576
  chip : fieldAt t s a 20 2 ≠ s.chip.toNat ∧ s.reached (fieldAt t s a 20 2) = true
  inside : fieldAt t s a 0 8 < 2 ^ 52 ∧ fieldAt t s a 8 8 < 2 ^ 52
/-- The note of a remote put, where it has one, passes the local check (R245, R433). -/
def PutNote (t : Thread) (s : State) (a : Nat) : Prop := fieldAt t s a 32 8 = 0 ∨ s.handleOk (dn (fieldAt t s a 32 8)) = true

/-- The status record of a frame can be written (R437). -/
def StatReady (s : State) (k : Stream) (f : Frame) : Prop :=
  s.faulting (.encoder k.n) = false ∧ s.performed f.after = true
    ∧ ∀ va ∈ pagesOf f.stat 32, ∃ pa leaf, s.xlate k.ctx none .write va = .ok pa leaf ∧ s.bufferRoom pa = true
/-- The planes of a frame can be read and `n` bytes of its output written (R434, R437). -/
def BuffersReady (s : State) (k : Stream) (f : Frame) (n : Nat) : Prop :=
  s.poison = []
    ∧ (∀ va ∈ pagesOf f.luma (f.pitch * (k.height - 1) + k.width) ++ pagesOf f.chroma (f.pitch * (k.height / 2 - 1) + k.width),
        ∃ pa leaf, s.xlate k.ctx none .read va = .ok pa leaf ∧ s.awake pa = true)
    ∧ ∀ va ∈ pagesOf f.out n, ∃ pa leaf, s.xlate k.ctx none .write va = .ok pa leaf ∧ s.bufferRoom pa = true

end Sys2Proof.Claims

/-- R436-R438: `enc.post` of a good descriptor to an open stream with a free entry takes the number after EISSUED, gives it in d, and the frame
stands last in the stream; with a misaligned descriptor it traps MISALIGNED, with one out of the scratchpad, a stream that is not open, or a
descriptor outside its sets, ACCESS; `enc.wait` for a number reached goes on with the core's L1 copies dropped, for one issued but not
reached parks with kind TIMELINE, and for a higher one traps ACCESS with it; `enc.tl` gives ETL; both trap ACCESS with the stream word where
no stream is open; the oldest frame completes with status 0, or 1 where its bitstream exceeds OUTCAP, or 2 where a plane denies the read, ETL takes its
number, and its note is resolved with number and status. -/
def Obligations.EncoderStreams : Prop :=
  (∀ (o : OpR) (s : State) (t : Thread), Clear (.encPost o) s t → Readable t s o.w [o.a, o.b] [o.d] →
    let a := srcVal t s o.w o.a
    let b := srcVal t s o.w o.b
    let traps : Cause → Word → Prop := fun c v =>
      exec (.encPost o) s = .next (takeTrap (chargedThread (.encPost o) t s) c v t.pc (chargedState (.encPost o) t s))
    (a.toNat % 64 ≠ 0 → traps .misaligned a)
    ∧ (a.toNat % 64 = 0 → (s.near t).size < a.toNat + 64 → traps .access a)
    ∧ (a.toNat % 64 = 0 → a.toNat + 64 ≤ (s.near t).size → s.streamFor t.ctx b = none → traps .access b)
    ∧ (∀ k, s.streamFor t.ctx b = some k → GoodBytes t s a.toNat → ¬ GoodFrame t s k a.toNat → traps .access a))
  ∧ (∀ (o : OpR) (k : Stream) (s : State) (t : Thread), Clear (.encPost o) s t → Readable t s o.w [o.a, o.b] [o.d] →
    s.streamFor t.ctx (srcVal t s o.w o.b) = some k → Unrivalled (.frame k.n) 0 t s → k.frames.length < 8 →
    GoodBytes t s (srcVal t s o.w o.a).toNat → GoodFrame t s k (srcVal t s o.w o.a).toNat →
    let a := (srcVal t s o.w o.a).toNat
    ∃ s' u k' f, exec (.encPost o) s = .next s' ∧ GoesOn t u s' ∧ Holds t s o.w o.d (k.eissued + 1#64) u s' ∧ u.c.q0 = k.eissued + 1#64
      ∧ s'.streams.find? (fun j => j.n == k.n) = some k' ∧ k'.eissued = k.eissued + 1#64 ∧ k'.etl = k.etl ∧ k'.frames = k.frames ++ [f]
      ∧ f.num = k.eissued + 1#64 ∧ f.tid = t.tid ∧ f.luma = fieldAt t s a 0 8 ∧ f.chroma = fieldAt t s a 8 8
      ∧ f.out = fieldAt t s a 16 8 ∧ f.outcap = fieldAt t s a 24 4 ∧ f.pitch = fieldAt t s a 28 2 ∧ f.stat = fieldAt t s a 32 8
      ∧ f.note = dn (fieldAt t s a 48 8))
  ∧ (∀ (o : OpR) (s : State) (t : Thread), Clear (.encWait o) s t → Readable t s o.w [o.a, o.b] [] →
    s.streamFor t.ctx (srcVal t s o.w o.a) = none →
    exec (.encWait o) s
      = .next (takeTrap (chargedThread (.encWait o) t s) .access (srcVal t s o.w o.a) t.pc (chargedState (.encWait o) t s)))
  ∧ (∀ (o : OpR) (k : Stream) (s : State) (t : Thread), Clear (.encWait o) s t → Readable t s o.w [o.a, o.b] [] →
    s.streamFor t.ctx (srcVal t s o.w o.a) = some k →
    (k.eissued < srcVal t s o.w o.b → exec (.encWait o) s
      = .next (takeTrap (chargedThread (.encWait o) t s) .access (srcVal t s o.w o.b) t.pc (chargedState (.encWait o) t s)))
    ∧ (srcVal t s o.w o.b ≤ k.eissued → srcVal t s o.w o.b ≤ k.etl → RegionsDone t s →
      ∃ s' u, exec (.encWait o) s = .next s' ∧ GoesOn t u s' ∧ u.c = t.c ∧ (t.isFw = false → (s'.core t.coreId).l1 = [])
        ∧ (t.handler = none → s'.mem = s.mem))
    ∧ (srcVal t s o.w o.b ≤ k.eissued → ¬ srcVal t s o.w o.b ≤ k.etl → Uncancelled t → t.handler = none →
      ∃ s' u w, exec (.encWait o) s = .next s' ∧ s'.thread? t.tid = some u ∧ u.pc = t.pc ∧ u.c = t.c ∧ u.run = .parked w false
        ∧ w.kind = .timeline ∧ w.operand = srcVal t s o.w o.b))
  ∧ (∀ (o : OpR) (k : Stream) (s : State) (t : Thread), Clear (.encTl o) s t → Readable t s o.w [o.a] [o.d] → Uncancelled t →
    s.streamFor t.ctx (srcVal t s o.w o.a) = some k →
    ∃ s' u, exec (.encTl o) s = .next s' ∧ Leaves t (.encTl o.d k.n) u s')
  ∧ (∀ (o : OpR) (s : State) (t : Thread), Clear (.encTl o) s t → Readable t s o.w [o.a] [o.d] →
    s.streamFor t.ctx (srcVal t s o.w o.a) = none →
    exec (.encTl o) s
      = .next (takeTrap (chargedThread (.encTl o) t s) .access (srcVal t s o.w o.a) t.pc (chargedState (.encTl o) t s)))
  ∧ (∀ (d : Reg) (k : Stream) (t : Thread) (s : State), Awaits (.encTl d k.n) t s → Writable t s d →
    s.streamFor t.ctx (dn k.n) = some k → ∃ s' u, exec (.memoryReply t.tid) s = .next s' ∧ Gets t u s s' d k.etl)
  ∧ (∀ (bytes : Nat) (k : Stream) (f : Frame) (rest : List Frame) (s : State), s.streams.find? (fun j => j.n == k.n) = some k →
    k.frames = f :: rest → bytes < 2 ^ 32 → StatReady s k f →
    (BuffersReady s k f (min bytes f.outcap) →
      ∃ s' k', exec (.frameComplete k.n bytes) s = .next s' ∧ s'.streams.find? (fun j => j.n == k.n) = some k' ∧ k'.etl = f.num
        ∧ k'.frames = rest ∧ k'.nextKey = decide (f.outcap < bytes)
        ∧ (f.note ≠ 0#64 → s'.noteOps = s.noteOps ++ [⟨.resolve, f.note, dn (f.num.toNat * 256 + if f.outcap < bytes then 1 else 0),
          0#8, f.tid, k.ctx, 0, false, [], false, none⟩]))
    ∧ (s.xlate k.ctx none .read (f.luma / 65536 * 65536) = .access → 0 < k.width →
      ∃ s' k', exec (.frameComplete k.n bytes) s = .next s' ∧ s'.streams.find? (fun j => j.n == k.n) = some k' ∧ k'.etl = f.num
        ∧ k'.frames = rest ∧ k'.nextKey = true
        ∧ (f.note ≠ 0#64 → s'.noteOps = s.noteOps ++ [⟨.resolve, f.note, dn (f.num.toNat * 256 + 2), 0#8, f.tid, k.ctx, 0, false, [],
          false, none⟩])))

namespace Sys2Proof.Claims

/-- A named core is another job's. -/
def ForeignCore (s : State) (g : Grant) : Bool := g.named.any fun c => match (s.core c).owner with
  | some x => x != g.ctx
  | none => false
/-- The split of a grant record (R73, R97). -/
def GoodSplit (g : Grant) : Prop :=
  6 ≤ g.reg ∧ g.reg ≤ 24 ∧ 4 ≤ g.l1 ∧ g.l1 ≤ 48 ∧ g.l1 % 4 = 0 ∧ g.reg + g.l1 + g.tagged ≤ 64
/-- The cluster's resources are the job's, or free with a vault that is aligned and present. -/
def GoodCluster (s : State) (g : Grant) : Prop :=
  (s.cluster g.cl).owner = some g.ctx ∨ (s.cluster g.cl).owner = none ∧ g.vault % 2 ^ 22 = 0 ∧ s.present g.vault = true

/-- A grant record that R445 accepts: its fields in their sets, no named core of another job, a legal split, the cluster's resources the
job's or free with a good vault, the cluster released. -/
structure GoodGrant (s : State) (g : Grant) : Prop where
  fields : g.rsv = false
  cores : ForeignCore s g = false
  split : GoodSplit g
  resources : GoodCluster s g
  works : (s.cluster g.cl).released = true

/-- The reply of a firmware instruction gives the status `n` in d and changes no core and no cluster. -/
def Refuses (t : Thread) (s : State) (d : Reg) (n : Nat) : Prop :=
  ∃ s' u, exec (.memoryReply t.tid) s = .next s' ∧ Gets t u s s' d (dn n) ∧ s'.cores = s.cores ∧ s'.clusters = s.clusters ∧ s'.mem = s.mem

end Sys2Proof.Claims

/-- R444-R448: where the physical stacks of the range answer, the firmware's `own.grant` and `own.revoke` leave the rotation with the record read; a good grant gives 0 and every named core
and the cluster to the job, a core that had no owner blank with the record's split and a free vault zero; a bad one gives the status of R445 (the reserved fields
first, then the lowest: the model's choice, log 97) and acts on nothing; a good revocation gives 0 and leaves the named cores without owner,
with the last of them the cluster; one that names a core the job does not own gives 1, one with a busy core 5; `pinv` leaves the rotation
with a translation fence for the job named by d; `pzero` with a range, which its reply makes zero. A record address, a CTXID or a range
outside the sets of R445-R447 traps. -/
def Obligations.Ownership : Prop :=
  (∀ (i : Instr) (o : OpR) (grant : Bool) (s : State) (t : Thread), (i = .ownGrant o ∧ grant = true ∨ i = .ownRevoke o ∧ grant = false) →
    Clear i s t → Readable t s o.w [o.a] [o.d] →
    let a := srcVal t s o.w o.a
    let traps : Cause → Word → Prop := fun c v => exec i s = .next (takeTrap (chargedThread i t s) c v t.pc (chargedState i t s))
    (a.toNat % 64 ≠ 0 → traps .misaligned a) ∧ (a.toNat % 64 = 0 → (s.near t).size < a.toNat + 64 → traps .access a)
    ∧ (Uncancelled t → GoodBytes t s a.toNat →
      ∃ s' u, exec i s = .next s' ∧ Leaves t (.own grant o.d (spadAt t s a.toNat 64)) u s'))
  ∧ (∀ (d : Reg) (rec : Nat) (t : Thread) (s : State), Awaits (.own true d rec) t s → d.toNat < 40 →
    let g := grantOf rec
    (GoodGrant s g → s.rangeAwake g.vault (2 ^ 22) = true → ∃ s' u, exec (.memoryReply t.tid) s = .next s' ∧ Gets t u s s' d 0#64 ∧ (s'.cluster g.cl).owner = some g.ctx
      ∧ (∀ c ∈ g.named, (s'.core c).owner = some g.ctx ∧ ((s.core c).owner = none → s'.core c = Core.granted c g))
      ∧ ((s.cluster g.cl).owner = none → ∀ a, g.vault ≤ a → a < g.vault + 2 ^ 22 → Memory.get s'.mem a = 0#8))
    ∧ (g.rsv = true → Refuses t s d 6)
    ∧ (g.rsv = false → ForeignCore s g = true → Refuses t s d 1)
    ∧ (g.rsv = false → ForeignCore s g = false → ¬ GoodSplit g → Refuses t s d 2)
    ∧ (g.rsv = false → ForeignCore s g = false → GoodSplit g → ¬ GoodCluster s g → Refuses t s d 3)
    ∧ (g.rsv = false → ForeignCore s g = false → GoodSplit g → GoodCluster s g → (s.cluster g.cl).released = false → Refuses t s d 4))
  ∧ (∀ (d : Reg) (rec : Nat) (t : Thread) (s : State), Awaits (.own false d rec) t s → d.toNat < 40 →
    let g := grantOf rec
    (g.rsv = true → Refuses t s d 6)
    ∧ (∀ c ∈ g.named, g.rsv = false → (s.core c).owner ≠ some g.ctx → Refuses t s d 1)
    ∧ (g.rsv = false → (∀ c ∈ g.named, (s.core c).owner = some g.ctx) → (∀ c ∈ g.named, s.coreBusy c = false) → s.rangeAwake (s.cluster g.cl).vault (2 ^ 22) = true →
      ∃ s' u, exec (.memoryReply t.tid) s = .next s' ∧ Gets t u s s' d 0#64 ∧ (∀ c ∈ g.named, s'.core c = Core.blank c)
        ∧ ((∀ k, k < 16 → s.owns g.ctx (clusterCore g.cl k) = true → clusterCore g.cl k ∈ g.named) →
          (s.cluster g.cl).owner = some g.ctx → (s'.cluster g.cl).owner = none))
    ∧ (g.rsv = false → (∀ c ∈ g.named, (s.core c).owner = some g.ctx) → ∀ c ∈ g.named, s.coreBusy c = true → Refuses t s d 5))
  ∧ (∀ (o : OpR) (s : State) (t : Thread), Clear (.pinv o) s t → Readable t s o.w [o.d, o.a, o.b] [] →
    let d := srcVal t s o.w o.d
    let a := srcVal t s o.w o.a
    let traps : Cause → Word → Prop := fun c v =>
      exec (.pinv o) s = .next (takeTrap (chargedThread (.pinv o) t s) c v t.pc (chargedState (.pinv o) t s))
    (4096 ≤ d.toNat → traps .access d) ∧ (d.toNat < 4096 → 2 ^ 52 ≤ a.toNat → traps .access a)
    ∧ (d.toNat < 4096 → a.toNat < 2 ^ 52 → Uncancelled t →
      ∃ s' u, exec (.pinv o) s = .next s' ∧ Leaves t (.tlb d.toNat a (srcVal t s o.w o.b) (s.earlier t.tid)) u s'))
  ∧ (∀ (o : OpR) (s : State) (t : Thread), Clear (.pzero o) s t → Readable t s o.w [o.d, o.a] [o.d] →
    let a := (srcVal t s o.w o.a).toNat
    let len := (srcVal t s o.w o.d).toNat
    let good : Prop := len ≠ 0 ∧ len % 65536 = 0 ∧ len ≤ 2 ^ 30 ∧ a % 65536 = 0 ∧ ∀ i, i < len / 65536 → s.present (a + 65536 * i) = true
    (good → Uncancelled t → ∃ s' u, exec (.pzero o) s = .next s' ∧ Leaves t (.pzero o.d a len) u s')
    ∧ (¬ good → exec (.pzero o) s
      = .next (takeTrap (chargedThread (.pzero o) t s) .access (dn a) t.pc (chargedState (.pzero o) t s))))
  ∧ (∀ (d : Reg) (pa len : Nat) (t : Thread) (s : State), Awaits (.pzero d pa len) t s → d.toNat < 40 → s.rangeAwake pa len = true →
    ∃ s' u, exec (.memoryReply t.tid) s = .next s' ∧ Gets t u s s' d 0#64
      ∧ (∀ a, pa ≤ a → a < pa + len → Memory.get s'.mem a = 0#8)
      ∧ ∀ a, a < pa ∨ pa + len ≤ a → Memory.get s'.mem a = Memory.get s.mem a)

/-- R166-R168: message k of a core's outbound buffer, the first there for its target, enters the target's queue of fewer than 16 once its
sender's earlier stores are performed; phase 7, where it is free, starts a handler for the oldest message, at CBASE + ENTRY with the argument,
the sender's COORD and its phase in g1-g3; a handler of 256 issues takes ACCESS at its address, which an awaiting sender then takes. -/
def Sys2Proof.Claims.MessageEvents : Prop :=
  (∀ (c k : Nat) (m : Msg) (s : State), (s.core c).outb[k]? = some m → s.performed m.after = true →
    (s.core m.target).inb.length < 16 → (∀ q ∈ (s.core c).outb.take k, q.target ≠ m.target) →
    ∃ s', exec (.amsgArrive c k) s = .next s' ∧ (s'.core m.target).inb = (s.core m.target).inb ++ [m]
      ∧ (s'.core c).outb = (s.core c).outb.eraseIdx k ∧ s'.threads = s.threads ∧ s'.mem = s.mem)
  ∧ (∀ (c : Nat) (m : Msg) (rest : List Msg) (j : Job) (s : State), (s.core c).inb = m :: rest → m.target = c →
    (∀ t ∈ s.threads, t.loc ≠ .phase c 7 ∧ t.tid < s.nextTid) → s.job? m.ctx = some j →
    ∃ s' t, exec (.amsgHandlerStart c) s = .next s' ∧ (s'.core c).inb = rest ∧ s'.thread? s.nextTid = some t ∧ t.loc = .phase c 7
      ∧ t.ctx = m.ctx ∧ t.run = .runnable ∧ t.pc = dn (j.cbase + m.entry) ∧ t.c.reg 1#6 = m.arg
      ∧ t.c.reg 2#6 = m.senderCoord ∧ t.c.reg 3#6 = dn m.senderPhase)
  ∧ (∀ (c : Nat) (h : Handler) (t u : Thread) (w : Wake) (d : Reg) (s : State), s.thread? t.tid = some t → t.loc = .phase c 7 →
    t.run = .runnable → t.handler = some h → 256 ≤ h.issues → h.wantReply = true → s.thread? h.sender = some u → u.tid ≠ t.tid →
    u.run = .out w (.amsg d none) →
    ∃ s' u', exec (.handlerIssueLimit t.tid) s = .next s' ∧ s'.thread? t.tid = none ∧ s'.thread? h.sender = some u'
      ∧ u'.run.pending = some (.amsg d (some (.inr ⟨.access, t.pc⟩))))

/-- R193, R197, R208, R228, R235: an L1 copy of a line goes; the first window that is announced and not cleared clears at cycle
32·(w + 1) + 16, once no slot comes before it; an ended region whose checked pieces are performed retires, and no granule keeps its tag; a walk puts the leaf or the table pointer it read into its cache, and
one that stops puts nothing there. -/
def Obligations.CacheEvents : Prop :=
  (∀ (core line : Nat) (l : L1Line) (s : State), l ∈ (s.core core).l1 → l.pa = line →
    ∃ s', exec (.l1CopyExpire core line) s = .next s' ∧ (s'.core core).l1 = (s.core core).l1.filter (fun k => k.pa != line)
      ∧ s'.mem = s.mem)
  ∧ (∀ (w : Nat) (s : State), w ∈ s.openWindows → (∀ v ∈ s.openWindows, w ≤ v) → s.reachedBy (32 * (w + 1) + 15) = true →
    ∃ s', exec (.clearing w) s = .next s' ∧ s'.cleared = w + 1 ∧ s'.cycle = dn (max s.now (32 * (w + 1) + 16)))
  ∧ (∀ (t : Thread) (seq : BitVec 2) (r : Region) (s : State), s.thread? t.tid = some t → r ∈ t.unretired → r.seq = seq →
    s.checkedPieces t.tid seq = false →
    ∃ s' u, exec (.regionRetire t.tid seq) s = .next s' ∧ s'.thread? t.tid = some u
      ∧ u.unretired = t.unretired.filter (fun r => r.seq != seq) ∧ u.region = t.region
      ∧ ∀ e ∈ s'.race, e.writer ≠ some ⟨t.num, seq⟩ ∧ (⟨t.num, seq⟩ : RaceTag) ∉ e.readers)
  ∧ (∀ (core ctx va : Nat) (fetch : Bool) (j : Job) (s : State), s.job? ctx = some j →
    let place : TlbPlace := if fetch then .itlb core else .dtlb core
    (∀ e level, s.walkFrom (coreCluster core) ctx va 4 0 j.root = .ok (e, level) →
      ∃ s', exec (.tlbWalkDone place ctx va) s = .next s' ∧ s'.mem = s.mem
        ∧ s'.tlb.head? = some ⟨place, ctx, level, va / 2 ^ levelShift level * 2 ^ levelShift level, e⟩)
    ∧ (∀ x, s.walkFrom (coreCluster core) ctx va 4 0 j.root = .error x → exec (.tlbWalkDone place ctx va) s = .next s))
  ∧ (∀ (cl ctx va level : Nat) (e : Word) (j : Job) (s : State), s.job? ctx = some j → s.pointerAt va level 3 0 j.root = some e →
    ∃ s', exec (.tlbWalkDone (.walk cl level) ctx va) s = .next s' ∧ s'.mem = s.mem
      ∧ s'.tlb.head? = some ⟨.walk cl level, ctx, level, va / 2 ^ levelShift level * 2 ^ levelShift level, e⟩)

namespace Sys2Proof.Claims

/-- A task in a slot whose trap goes to its handler (R130). -/
structure Traps (s : State) (t : Thread) : Prop where
  slot : s.current = some t
  plain : t.isFw = false ∧ t.handler = none
  base : t.csr.tbase ≠ 0#64
  first : ¬ (t.csr.trap = true ∧ t.pc = t.csr.tbase)
  aligned : t.pc.toNat % 4 = 0

end Sys2Proof.Claims

/-- R49, R50, R116, R202-R204, R456, R441: a word that names no instruction traps ILLEGAL with it as TVAL; a fetch that fails traps ACCESS or
UE with the fetch address; when the only fault record completes, its waiting thread's condition has fired, with RETRY to issue again, with
DENY and POISON to trap ACCESS and UE with the faulting address; an access or fetch whose walk finds no leaf parks its thread with kind PAGE,
the kind of access and its address, and raises the page's fault record; a trap on a firmware core goes from plug-in level to scheduler level, by
`ecall` from scheduler to monitor level, and halts the core where that level's FTBASE is 0. -/
def Obligations.FaultEvents : Prop :=
  (∀ (w : W32) (s : State) (t : Thread), Traps s t →
    ∃ s' u, exec (.illegal w) s = .next s' ∧ s'.thread? t.tid = some u ∧ u.pc = t.csr.tbase ∧ u.csr.tcause = 0x01#8
      ∧ u.csr.tval = w.zeroExtend 64 ∧ u.csr.tepc = t.pc ∧ u.csr.trap = true ∧ u.c = t.c)
  ∧ (∀ (ue : Bool) (s : State) (t : Thread), Traps s t →
    ∃ s' u, exec (.fetchFault ue t.pc) s = .next s' ∧ s'.thread? t.tid = some u ∧ u.pc = t.csr.tbase
      ∧ u.csr.tcause = (if ue then 0x05#8 else 0x03#8) ∧ u.csr.tval = t.pc ∧ u.csr.tepc = t.pc ∧ u.csr.trap = true ∧ u.c = t.c
      ∧ u.csr.remain = t.csr.remain ∧ u.csr.purse = t.csr.purse)
  ∧ (∀ (f : FaultRec) (j : Job) (outcome : FaultOutcome) (t : Thread) (w : Wake) (s : State), s.faults = [f] → f.written = true →
    s.job? f.ctx = some j → f.waiters = [.thread t.tid] → s.thread? t.tid = some t → t.run = .parked w false → w.kind = .page →
    w.operand.toNat / 65536 = f.page → t.evicted = false →
    ∃ s' u, exec (.faultComplete f.ctx f.page outcome) s = .next s' ∧ s'.faults = [] ∧ s'.thread? t.tid = some u
      ∧ u.run = .parked w true ∧ u.pc = t.pc ∧ u.c = t.c
      ∧ u.due = (match outcome with
        | .retry => t.due
        | .deny => some ⟨.access, w.operand⟩
        | .poison => some ⟨.ue, w.operand⟩))
  ∧ (∀ (need : Need) (va : Word) (size n : Nat) (p : Pending) (x : WalkStop) (j : Job) (t : Thread) (s : State),
    Awaits (.walk need va size n p) t s → s.job? t.ctx = some j → s.faults = [] → s.hasWalker t va.toNat n = true →
    s.cachedAt [.l2 t.cluster] t.ctx va.toNat = none → s.translationWaits [.l2 t.cluster] t.ctx va.toNat = false →
    s.walkFrom t.cluster t.ctx va.toNat 4 0 j.root = .error x →
    ∃ s' u w f, exec (.memoryReply t.tid) s = .next s' ∧ s'.thread? t.tid = some u ∧ u.pc = t.pc ∧ u.c = t.c ∧ u.run = .parked w false
      ∧ w.kind = .page ∧ w.detail = BitVec.ofNat 32 need.code ∧ w.operand = va ∧ s'.faults = [f] ∧ f.ctx = t.ctx
      ∧ f.page = va.toNat / 65536 ∧ f.kind = need.code ∧ f.reason = x.reason ∧ f.level = x.level ∧ f.waiters = [.thread t.tid])
  ∧ (∀ (s : State) (t : Thread) (die n phase : Nat) (cause : Cause) (v epc : Word), s.thread? t.tid = some t →
    t.loc = .fw die n phase → t.lev.toNat ≤ 2 →
    let lev : BitVec 2 := if t.lev = 2#2 then 1#2 else if t.lev = 1#2 ∧ cause = .ecall then 0#2 else t.lev
    let base := if lev = 1#2 then (s.fwcore die n).ftbase1 else (s.fwcore die n).ftbase0
    (base ≠ 0#64 → ∃ u, (takeTrap t cause v epc s).thread? t.tid = some u ∧ u.pc = base ∧ u.lev = lev ∧ u.plev = t.lev
      ∧ u.csr.tcause = cause.code ∧ u.csr.tval = v ∧ (epc.toNat % 4 = 0 → u.csr.tepc = epc))
    ∧ (base = 0#64 → ((takeTrap t cause v epc s).fwcore die n).halted = true))

namespace Sys2Proof.Claims

/-- Nothing of a job but the task `t` waits for a phase (R304). -/
def OnlyReady (t : Thread) (s : State) : Prop :=
  t.waitsPhase = true ∧ (∀ u ∈ s.threads, u.waitsPhase = true → u = t) ∧ ∀ c ∈ s.clusters, ∀ h ∈ c.records, h.readyAt = none

/-- A task parked on `w` in a phase of its core, without an engine context, where no other task of its core is being saved. -/
structure ParkedIn (t : Thread) (s : State) (core phase : Nat) (w : Wake) (fired : Bool) : Prop where
  there : s.thread? t.tid = some t
  place : t.loc = .phase core phase
  run : t.run = .parked w fired
  plain : t.handler = none
  free : s.engineOf t = none
  quiet : s.savingOn t.coreId = false

/-- The task's frame at `va`, which its job's tables put at `pa` wherever else its memory changes (R138, R139). -/
def FrameAt (s : State) (ctx va pa n : Nat) : Prop :=
  ∀ m : Mem, (∀ a, a < pa ∨ pa + n ≤ a → Memory.get m a = Memory.get s.mem a) →
    ∀ i, i < n → ({ s with mem := m } : State).jobPhys ctx (va + i) = some (pa + i)

end Sys2Proof.Claims

/-- R117, R118, R136-R140, R314, R315, R454: a free phase, or one whose holder may lend it, goes to the only ready resident task, which then
issues from that phase's second slot on; a parked task that is asked for its phase is saved in free room of its job's save area; when the save is done its frame holds
the layout, wake word, operand, PC and registers, nothing outside the frame has changed, and the task holds the frame alone; a restore gives the only ready task the place its walk
finds, with PC and registers read from the frame, and the frame's room is free again; a frame of a layout that is not implemented ends the
job; a restored task parks with its condition as it was, awaits what it awaited, or goes on with the reply it has. -/
def Obligations.Placement : Prop :=
  (∀ (core p0 phase : Nat) (t : Thread) (s : State), s.thread? t.tid = some t → t.loc = .slot core p0 → OnlyReady t s → phase < 7 →
    t.migTarget = none → t.request = none → s.quiesce = none → s.owns t.ctx core = true → (t.csr.pin = true → p0 = phase) →
    (s.holder core phase = none → s.phaseFree core phase = true →
      ∃ s' u, exec (.tellerLendPhase core phase t.tid) s = .next s' ∧ s'.thread? t.tid = some u ∧ u.loc = .phase core phase
        ∧ u.c = t.c ∧ u.pc = t.pc ∧ u.csr = t.csr ∧ u.run = t.run ∧ s.now < u.lastIssue ∧ u.lastIssue % 8 = phase)
    ∧ (∀ h, s.holder core phase = some h → s.thread? h.tid = some h → s.lendable h (s.level t) = true →
      ∃ s' u v, exec (.tellerLendPhase core phase t.tid) s = .next s' ∧ s'.thread? t.tid = some u ∧ u.loc = .phase core phase
        ∧ s'.thread? h.tid = some v ∧ v = { h with loc := .slot core phase }))
  ∧ (∀ (core phase va : Nat) (t : Thread) (w : Wake) (fired : Bool) (j : Job) (s : State), ParkedIn t s core phase w fired →
    t.migTarget = none → s.job? t.ctx = some j → j.frameRoom 1 = some va → (t.request.isSome = true ∨ s.quiesce.isSome = true) →
    ∃ s' u j', exec (.taskEvict t.tid 0) s = .next s' ∧ s'.thread? t.tid = some u ∧ u.run = .saving w none fired va false ∧ u.c = t.c
      ∧ s'.job? t.ctx = some j' ∧ j'.frames = j.frames ++ [(va, 1)])
  ∧ (∀ (core phase va pa : Nat) (t : Thread) (w : Wake) (fired : Bool) (s : State), s.thread? t.tid = some t → t.loc = .phase core phase →
    t.run = .saving w none fired va false → s.engineOf t = none → t.taken = [] → FrameAt s t.ctx va pa 4096 →
    s.frameAwake t.ctx va 2944 = true →
    ∃ s' u, exec (.contextSaveDone t.tid) s = .next s' ∧ s'.thread? t.tid = some u ∧ u.loc = .frame (dn va) core phase none
      ∧ u.run = .parked w fired ∧ u.request = none ∧ u.c = t.c ∧ Memory.read s'.mem pa 2 = 1
      ∧ Memory.read s'.mem (pa + 16) 8 = w.word.toNat ∧ Memory.read s'.mem (pa + 24) 8 = w.operand.toNat
      ∧ Memory.read s'.mem (pa + 40) 8 = t.pc.toNat
      ∧ (∀ r : Reg, 1 ≤ r.toNat → r.toNat < 32 → Memory.read s'.mem (pa + 128 + 8 * (r.toNat - 1)) 8 = (t.c.reg r).toNat)
      ∧ ∀ a, a < pa ∨ pa + 4096 ≤ a → Memory.get s'.mem a = Memory.get s.mem a)
  ∧ (∀ (core phase c0 p0 : Nat) (va : Word) (t : Thread) (j : Job) (s : State), s.thread? t.tid = some t →
    t.loc = .frame va c0 p0 none → OnlyReady t s → phase < 7 → s.quiesce = none → s.job? t.ctx = some j →
    lookupD j.frames va.toNat 1 = 1 → s.mayTakePhase t core phase = true → s.frameAwake t.ctx va.toNat 2944 = true →
    s.holder core phase = none → s.phaseFree core phase = true → s.restorePlace t = some (core, phase) →
    (s.image.layouts.contains (s.jobRead t.ctx va.toNat 2) = true → s.frameBad t.ctx va.toNat = false →
      ∃ s' u j', exec (.taskRestore t.tid core phase) s = .next s' ∧ s'.thread? t.tid = some u ∧ u.loc = .phase core phase
        ∧ u.pc = dn (s.jobRead t.ctx (va.toNat + 40) 8)
        ∧ (∀ r : Reg, 1 ≤ r.toNat → r.toNat < 32 → u.c.reg r = dn (s.jobRead t.ctx (va.toNat + 128 + 8 * (r.toNat - 1)) 8))
        ∧ s'.job? t.ctx = some j' ∧ j'.frames = j.frames.filter (fun f => f.1 != va.toNat))
    ∧ (s.image.layouts.contains (s.jobRead t.ctx va.toNat 2) = false →
      ∃ s', exec (.taskRestore t.tid core phase) s = .next s' ∧ s'.job? t.ctx = none ∧ ∀ u ∈ s'.threads, u.ctx = t.ctx → u.isFw = true))
  ∧ (∀ (w : Wake) (f : Bool) (t : Thread) (s : State), s.thread? t.tid = some t →
    (t.run = .restoring w none f → ∃ s' u, exec (.taskRestoreDone t.tid) s = .next s' ∧ s'.thread? t.tid = some u
      ∧ u = { t with run := .parked w f })
    ∧ (∀ p, t.run = .restoring w (some p) f → (∀ r, p ≠ .replied r) → ∃ s' u, exec (.taskRestoreDone t.tid) s = .next s'
      ∧ s'.thread? t.tid = some u ∧ u = { t with run := .out w p })
    ∧ (∀ d x, t.run = .restoring w (some (.replied (.scalar d x))) f → w.win = 0#2 → Writable t s d →
      ∃ s' u, exec (.taskRestoreDone t.tid) s = .next s' ∧ Gets t u s s' d x))

/-- R142-R147, R149, R305, R306: at its slot a task with a budget and less than 8 cycles left has its budget loaded again, and where something
wants its phase it is at a blocking point of kind BUDGET with its condition met, else it issues at its next slot; a limited wait that has not
ended by the end of its expiry cycle makes the task ready to trap WAIT_LIMIT with the wake word; a ready task falls one level number after
its AGE interval, not below AGECAP; a ready task without a phase names the one victim there is; a marked task is saved for its migration; when all of a job sleeps, its function is told with the number of tasks and the
detector is disarmed, and the job's handler task starts in the first free phase of its cores. -/
def Obligations.TellerEvents : Prop :=
  (∀ (core phase : Nat) (t : Thread) (s : State), s.thread? t.tid = some t → t.loc = .phase core phase → t.handler = none →
    t.run = .runnable → s.reload t ≠ 0 → t.csr.remain.toNat < 8 → Uncancelled t →
    (s.phaseWanted t = false → t.migTarget = none → s.quiesce = none →
      ∃ s' u, exec (.budgetOverrun t.tid) s = .next s' ∧ s'.thread? t.tid = some u ∧ u.run = .runnable ∧ u.lastIssue = s.now
        ∧ u.csr.remain = BitVec.ofNat 32 (s.reload t) ∧ u.pc = t.pc ∧ u.c = t.c)
    ∧ (s.phaseWanted t = true → ∃ s' u w, exec (.budgetOverrun t.tid) s = .next s' ∧ s'.thread? t.tid = some u ∧ u.run = .parked w true ∧ w.kind = .budget
      ∧ w.operand = 0#64 ∧ u.csr.remain = BitVec.ofNat 32 (s.reload t) ∧ u.pc = t.pc ∧ u.c = t.c))
  ∧ (∀ (t : Thread) (w : Wake) (r : WaitRec) (s : State), s.thread? t.tid = some t → t.run = .parked w false → t.wait = some r →
    w.kind.counts = true → r.limit ≠ 0 → s.reachedBy (r.since + r.limit) = true → s.quiesce = none →
    ∃ s' u, exec (.waitLimitExpiry t.tid) s = .next s' ∧ s'.thread? t.tid = some u ∧ u.run = .parked w true
      ∧ u.due = some ⟨.waitLimit, w.word⟩ ∧ s'.cycle = dn (max s.now (r.since + r.limit + 1)) ∧ u.pc = t.pc ∧ u.c = t.c)
  ∧ (∀ (t : Thread) (j : Job) (s : State), s.thread? t.tid = some t → t.waitsPhase = true → t.isFw = false → s.job? t.ctx = some j →
    j.ageCap < t.csr.prio.toNat → t.agedAt + 1000 * j.age ≤ s.now →
    ∃ s' u, exec (.priorityAge t.tid) s = .next s' ∧ s'.thread? t.tid = some u ∧ u.csr.prio.toNat = t.csr.prio.toNat - 1
      ∧ u.agedAt = t.agedAt + 1000 * j.age ∧ u.c = t.c)
  ∧ (∀ (t v : Thread) (s : State), s.thread? t.tid = some t → t.waitsPhase = true → s.quiesce = none →
    s.asked t.tid = false → (∀ c ∈ s.cores, ∀ p, p < 7 → s.mayTakePhase t c.id p = true → s.phaseFree c.id p = false) →
    s.victims t.ctx (s.level t) (s.mayTakePhase t) = [v] →
    ∃ s' u, exec (.preemptionRequest t.tid) s = .next s' ∧ s'.thread? v.tid = some u ∧ u = { v with request := some t.tid })
  ∧ (∀ (core phase va cl : Nat) (t : Thread) (w : Wake) (fired : Bool) (c : Core) (j : Job) (s : State),
    ParkedIn t s core phase w fired → t.csr.pin = false → t.csr.migoff = false → t.migTarget = some cl → c ∈ s.cores →
    s.mayTakePhase { t with loc := .frame 0#64 t.coreId t.lastPhase (some cl) } c.id 0 = true → s.job? t.ctx = some j →
    j.frameRoom 1 = some va →
    ∃ s' u, exec (.affinityMigration t.tid 0) s = .next s' ∧ s'.thread? t.tid = some u ∧ u.run = .saving w none fired va true
      ∧ u.migTarget = some cl)
  ∧ (∀ (j : Job) (s : State), s.job? j.ctx = some j → s.asleep j = true → j.asleep = none → (s.func j.func).en = false →
    ∃ s' j' e, exec (.allAsleep j.ctx) s = .next s' ∧ s'.job? j.ctx = some j' ∧ j'.disarmed = true
      ∧ (s'.func j.func).held = (s.func j.func).held ++ [e] ∧ e.cls = 3 ∧ e.ctx = j.ctx ∧ e.record % 2 ^ 64 = (s.tasksOf j.ctx).length % 2 ^ 64)
  ∧ (∀ (j : Job) (entry core phase : Nat) (s : State), s.job? j.ctx = some j → s.asleep j = true → j.asleep = some entry →
    (∀ u ∈ s.threads, u.tid < s.nextTid) →
    (s.ownedCores j.ctx).findSome? (fun c => (s.freePhase j.ctx c).map fun p => (c, p)) = some (core, phase) →
    ∃ s' v, exec (.allAsleep j.ctx) s = .next s' ∧ s'.thread? s.nextTid = some v ∧ v.loc = .phase core phase ∧ v.ctx = j.ctx
      ∧ v.pc = dn (j.cbase + entry) ∧ v.c.reg 1#6 = dn (s.tasksOf j.ctx).length ∧ v.c.reg 3#6 = dn s.now ∧ v.csr.tcause = 0x0C#8
      ∧ v.csr.tval = dn (s.tasksOf j.ctx).length ∧ v.csr.prio = 0#8 ∧ v.note = none)

namespace Sys2Proof.Claims

/-- An event reaches a function (R425): where its ring is not enabled it is held behind those that wait. -/
def Tells (s s' : State) (func cls ctx record : Nat) : Prop :=
  (s.func func).en = false → (s'.func func).held = (s.func func).held ++ [⟨cls, ctx, func, record⟩]

/-- The mailbox works on a command: the package has booted, the stage is reached, and no activation runs (R449, R452). -/
def Ready (stage seq : Nat) (s : State) : Prop := s.booted = true ∧ seq < 2 ^ 32 ∧ s.quiesce = none ∧ stage ≤ s.stage

/-- Function `func` owns job `ctx` (R421). -/
def Owned (func ctx : Nat) (s : State) : Prop := ∃ j, s.job? ctx = some j ∧ j.func = func

/-- The answer of a command (R452): its SEQ, the status, and MSI-X vector 1 of function 0 behind those signalled. -/
def Answered (s' : State) (seq status : Nat) : Prop := s'.mboxSeq = seq ∧ s'.mboxStatus = status ∧ (s'.func 0).msix.getLast? = some 1
/-- A command that is refused: it changes nothing but the mailbox, and its status is not 0. -/
def Refused (s s' : State) (seq : Nat) : Prop :=
  s'.mboxSeq = seq ∧ s'.mboxStatus ≠ 0 ∧ s'.jobs = s.jobs ∧ s'.clusters = s.clusters ∧ s'.cores = s.cores ∧ s'.mem = s.mem
    ∧ s'.threads = s.threads ∧ s'.streams = s.streams ∧ s'.peers = s.peers ∧ s'.grants = s.grants

end Sys2Proof.Claims

/-- R307-R312, R317, R318: the CONTRACT command of the job's function answers with the first test of R308 that fails, nothing else in the cluster changed, or with
0 and the contract admitted; a withdrawn contract ends at its release instant, kept for the tasks that live; a release with no live task releases WIDTH tasks, sets its
deadline and its next instant one PERIOD on, and one with a live task counts a skip; a live task at the deadline counts a miss; a task charged
BUDGET drops to level 255 and counts an overrun; power above the limit takes a step down and below 95 % of it undoes the last. -/
def Obligations.ContractsAndPower : Prop :=
  (∀ (seq func ctx va x : Nat) (s : State), Ready 2 seq s → Owned func ctx s → s.frameAwake ctx va 64 = true →
    s.tryRead ctx va 64 = some x →
    ∃ s', exec (.contract seq ⟨func, ctx⟩ va) s = .next s' ∧ Answered s' seq (s.contractStatus ctx x)
      ∧ (s.contractStatus ctx x ≠ 0 → s'.clusters = s.clusters ∧ s'.threads = s.threads)
      ∧ (s.contractStatus ctx x = 0 → ∃ k,
        let cl := 64 * (slice x 23 1 / 128) + slice x 23 1 % 64
        (s'.cluster cl).contracts = (s.cluster cl).contracts ++ [k] ∧ k.ctx = ctx ∧ k.va = va ∧ k.period = slice x 8 4
          ∧ k.budget = slice x 12 4 ∧ k.deadline = slice x 16 4 ∧ k.width = slice x 20 1 ∧ k.eshare = slice x 21 1 ∧ k.band = slice x 22 1
          ∧ k.live = [] ∧ k.withdrawn = false))
  ∧ (∀ (seq func ctx va : Nat) (s : State), Ready 2 seq s → ¬ Owned func ctx s → s.frameAwake ctx va 64 = true →
    ∃ s', exec (.contract seq ⟨func, ctx⟩ va) s = .next s' ∧ Refused s s' seq)
  ∧ (∀ (seq func ctx va : Nat) (s : State), Ready 2 seq s → ¬ Owned func ctx s →
    ∃ s', exec (.contractWithdraw seq ⟨func, ctx⟩ va) s = .next s' ∧ Refused s s' seq)
  ∧ (∀ (seq func ctx va cl : Nat) (k : Contract) (s : State), Ready 2 seq s → Owned func ctx s → (s.cluster cl).contracts = [k] →
    k.ctx = ctx → k.va = va →
    ∃ s', exec (.contractWithdraw seq ⟨func, ctx⟩ va) s = .next s' ∧ Answered s' seq 0
      ∧ (s'.cluster cl).contracts = [{ k with withdrawn := true }])
  ∧ (∀ (cl : Nat) (k : Contract) (s : State), (s.cluster cl).contracts = [k] → k.deadlineDue = none → k.nextRelease ≤ s.now →
    (k.withdrawn = true → ∃ s', exec (.contractRelease cl k.idx) s = .next s' ∧ (s'.cluster cl).contracts = []
      ∧ (s'.cluster cl).ending = (s.cluster cl).ending ++ if k.live = [] then [] else [k])
    ∧ (k.withdrawn = false → k.live ≠ [] → ∃ s' k', exec (.contractRelease cl k.idx) s = .next s' ∧ (s'.cluster cl).contracts = [k']
      ∧ k' = { k with nextRelease := k.nextRelease + k.period, skips := min (k.skips + 1) 0xFFFFFFFF })
    ∧ (k.withdrawn = false → k.live = [] → s.quiesce = none → ∃ s' k', exec (.contractRelease cl k.idx) s = .next s'
      ∧ (s'.cluster cl).contracts = [k'] ∧ k'.nextRelease = k.nextRelease + k.period ∧ k'.live.length = k.width
      ∧ k'.deadlineDue = some (k.nextRelease + k.deadline) ∧ k'.skips = k.skips))
  ∧ (∀ (cl : Nat) (k : Contract) (d : Nat) (s : State), (s.cluster cl).contracts = [k] → k.deadlineDue = some d → d ≤ s.now →
    ∃ s', exec (.contractDeadline cl k.idx) s = .next s' ∧ (s'.cluster cl).contracts
      = [{ k with deadlineDue := none, misses := if k.live = [] then k.misses else min (k.misses + 1) 0xFFFFFFFF }])
  ∧ (∀ (cl : Nat) (k : Contract) (t : Thread) (s : State), (s.cluster cl).contracts = [k] → s.thread? t.tid = some t →
    t.contract = some (cl, k.idx) → k.budget ≤ t.charged → t.recPrio ≠ 255#8 →
    ∃ s' u, exec (.contractBudgetExhausted t.tid) s = .next s' ∧ s'.thread? t.tid = some u ∧ u.csr.prio = 255#8 ∧ u.recPrio = 255#8
      ∧ u.c = t.c ∧ (s'.cluster cl).contracts = [{ k with overruns := min (k.overruns + 1) 0xFFFFFFFF }])
  ∧ (∀ (watts : Nat) (s : State),
    (s.powerLimit < watts → s.queries = [] → 4 < s.duty →
      ∃ s', exec (.powerControlStep watts) s = .next s' ∧ s'.duty = s.duty - 1 ∧ s'.powerSteps = .duty :: s.powerSteps)
    ∧ (∀ k q, s.powerLimit < watts → s.hbm = [k] → s.queries = [q] → q.stack = k.n → q.handed = true → 4096 < k.alim →
      ∃ s', exec (.powerControlStep watts) s = .next s' ∧ s'.hbm = [{ k with alim := max 4096 (7 * k.alim / 8) }] ∧ s'.duty = s.duty)
    ∧ (∀ rest, watts ≤ s.powerLimit → 100 * watts < 95 * s.powerLimit → s.powerSteps = .duty :: rest →
      ∃ s', exec (.powerControlStep watts) s = .next s' ∧ s'.duty = s.duty + 1 ∧ s'.powerSteps = rest)
    ∧ (watts ≤ s.powerLimit → 95 * s.powerLimit ≤ 100 * watts → exec (.powerControlStep watts) s = .next s))

/-- R377, R387-R391: a refresh changes nothing; at the critical temperature a stack enters self-refresh and below the exit temperature it
leaves it; after 2 ms in it a stall is reported to function 0, and again at exit; a scrubbed line is reported where a word of it is
uncorrectable, and changes nothing otherwise; more corrected errors than the threshold are reported; the oldest line of a write buffer
leaves it. -/
def Obligations.StackEvents : Prop :=
  (∀ (n bank : Nat) (s : State), (s.stack n).online = true → bank < 2048 → n < 12 → exec (.bankRefresh n bank) s = .next s)
  ∧ (∀ (n temp : Nat) (s : State), (s.stack n).online = true → (s.stack n).selfRefresh = none → s.critTemp ≤ temp →
    ∃ s', exec (.selfRefreshEntry n temp) s = .next s' ∧ s'.stack n = { s.stack n with selfRefresh := some s.now, stalled := false }
      ∧ s'.mem = s.mem)
  ∧ (∀ (n temp : Nat) (s : State), (s.stack n).selfRefresh.isSome = true → temp < s.exitTemp →
    ∃ s', exec (.selfRefreshExit n temp) s = .next s' ∧ s'.stack n = { s.stack n with selfRefresh := none, stalled := false }
      ∧ s'.mem = s.mem
      ∧ ((s.stack n).stalled = true → Tells s s' 0 2 0xFFFF (3 + 2 ^ 8 * n + 2 ^ 16 * 0xFF + 2 ^ 128 * s.now))
      ∧ ((s.stack n).stalled = false → s'.func 0 = s.func 0))
  ∧ (∀ (n t0 : Nat) (s : State), (s.stack n).selfRefresh = some t0 → (s.stack n).stalled = false → t0 + 2000000 ≤ s.now →
    ∃ s', exec (.stackStall n) s = .next s' ∧ s'.stack n = { s.stack n with stalled := true }
      ∧ Tells s s' 0 2 0xFFFF (3 + 2 ^ 8 * n + 2 ^ 16 * 0xFF + 2 ^ 128 * s.now))
  ∧ (∀ (line : Nat) (p : Place) (s : State), line % 128 = 0 → s.place line = some p → s.awake line = true →
    (s.poisonAt line 128 = none → exec (.patrolScrub line) s = .next s)
    ∧ (s.poisonAt line 128 ≠ none → ∃ s', exec (.patrolScrub line) s = .next s' ∧ s'.mem = s.mem ∧ s'.poison = s.poison
      ∧ Tells s s' 0 2 0xFFFF (2 + 2 ^ 8 * stackOf line + 2 ^ 16 * (p.bank / 128) + 2 ^ 64 * line + 2 ^ 128 * s.now)))
  ∧ (∀ (n die count : Nat) (s : State), n < 12 → (s.stack n).online = true → (s.stack n).dies.getLsbD die = true →
    s.ceThresh < count → count < 2 ^ 32 →
    ∃ s', exec (.ceThresh n die count) s = .next s'
      ∧ Tells s s' 0 2 0xFFFF (1 + 2 ^ 8 * n + 2 ^ 16 * die + 2 ^ 32 * count + 2 ^ 128 * s.now))
  ∧ (∀ (n line : Nat) (rest : List Nat) (s : State), (s.stack n).wbuf = line :: rest → (s.stack n).selfRefresh = none →
    ∃ s', exec (.postedWriteBufferDrain n) s = .next s' ∧ s'.stack n = { s.stack n with wbuf := rest } ∧ s'.mem = s.mem)

namespace Sys2Proof.Claims

/-- A page that firmware may migrate (R392): the leaf `e` at `addr` maps it, and a free page of its size is at `new`. -/
structure Migrates (s : State) (ctx va addr level new : Nat) (e : Word) : Prop where
  leaf : ∃ j, s.job? ctx = some j ∧ s.leafPlace va 4 0 j.root = some (addr, e, level)
  fits : new % 2 ^ levelShift level = 0 ∧ s.pagePresent new (2 ^ levelShift level) (leafLocal e) = true
  apart : entryField e 16 32 * 65536 + 2 ^ levelShift level ≤ new ∨ new + 2 ^ levelShift level ≤ entryField e 16 32 * 65536
  outside : addr + 8 ≤ new ∨ new + 2 ^ levelShift level ≤ addr
  none : s.migrations = []

/-- A migration in progress whose old translations are no longer used (R392): `n` bytes from `old`, apart from the new page and from the
leaf. -/
structure Moving (s : State) (m : Migration) (old n : Nat) : Prop where
  only : s.migrations = [m]
  base : m.va / n * n = m.va
  size : n = 2 ^ levelShift m.level
  from_ : old = entryField m.leaf 16 32 * 65536
  flown : s.inFlight m.ctx [(m.va, m.va + n)] = []
  faults : s.faults = []
  apart : old + n ≤ m.newPa ∨ m.newPa + n ≤ old
  outside : (m.addr + 8 ≤ m.newPa ∨ m.newPa + n ≤ m.addr) ∧ (m.addr + 8 ≤ old ∨ old + n ≤ m.addr)

end Sys2Proof.Claims

/-- R392-R394, R187: a migration first makes the page's leaf invalid, and no translation cache keeps it; once nothing uses the old
translation the page's bytes stand at the new page, its leaf names it, and no L1 keeps a copy of either page; where the copy cannot be
performed the old leaf stands again and MIGRATE_FAIL is reported; a die's map-out sets STATE to 3, and its end, when no page on the die and
no query waits, brings STATE 2 without the die; a scrubbed
array word that is sound changes nothing, an uncorrectable one of an owned core or cluster ends the owner's job, and one without owner has its
line rewritten with zero. -/
def Obligations.MemoryService : Prop :=
  (∀ (ctx va addr level new : Nat) (e : Word) (s : State), Migrates s ctx va addr level new e →
    let n := 2 ^ levelShift level
    ∃ s', exec (.pageMigrate ctx va new) s = .next s' ∧ dn (Memory.read s'.mem addr 8) = e - 1#64
      ∧ (∀ a, a < addr ∨ addr + 8 ≤ a → Memory.get s'.mem a = Memory.get s.mem a)
      ∧ s'.migrations = [⟨ctx, addr, e, level, va / n * n, new⟩]
      ∧ ∀ x ∈ s'.tlb, x.ctx = ctx → x.base + 2 ^ levelShift x.level ≤ va / n * n ∨ va / n * n + n ≤ x.base)
  ∧ (∀ (m : Migration) (old n : Nat) (s : State), Moving s m old n →
    (s.copyFails m = false → (∀ a ∈ granulesOf m.newPa n ++ granulesOf old n, s.awake a = true) →
      ∃ s', exec (.pageMigrate m.ctx m.va m.newPa) s = .next s'
        ∧ (∀ i, i < n → Memory.get s'.mem (m.newPa + i) = Memory.get s.mem (old + i))
        ∧ entryField (dn (Memory.read s'.mem m.addr 8)) 16 32 = m.newPa / 65536 % 2 ^ 32 ∧ s'.migrations = []
        ∧ ∀ c ∈ s'.cores, ∀ l ∈ c.l1, (l.pa + 128 ≤ m.newPa ∨ m.newPa + n ≤ l.pa) ∧ (l.pa + 128 ≤ old ∨ old + n ≤ l.pa))
    ∧ (s.copyFails m = true →
      ∃ s', exec (.pageMigrate m.ctx m.va m.newPa) s = .next s' ∧ dn (Memory.read s'.mem m.addr 8) = m.leaf ∧ s'.migrations = []
        ∧ (∀ a, a < m.addr ∨ m.addr + 8 ≤ a → Memory.get s'.mem a = Memory.get s.mem a)
        ∧ Tells s s' 0 2 m.ctx
          (4 + 2 ^ 8 * stackOf m.newPa + 2 ^ 16 * 0xFF + 2 ^ 64 * (m.newPa / 128 * 128) + 2 ^ 128 * s.now)))
  ∧ (∀ (n die : Nat) (s : State), n < 12 → die < 16 →
    ((s.stack n).state = 2 → (s.stack n).dies.getLsbD die = true →
      ∃ s', exec (.dieMapOut n die) s = .next s' ∧ s'.stack n = { s.stack n with state := 3, mapOut := some die })
    ∧ ((s.stack n).state = 3 → (s.stack n).mapOut = some die → s.mapOutWaits n die = false →
      ∃ s', exec (.dieMapOut n die) s = .next s' ∧ (s'.stack n).state = 2 ∧ (s'.stack n).mapOut = none
        ∧ (∀ d, (s'.stack n).dies.getLsbD d = ((s.stack n).dies.getLsbD d && d != die))
        ∧ (s'.stack n).igran = (s'.stack n).channels.length * ((32 - (s.stack n).localsa) * 1024) / 16384))
  ∧ (∀ (cl addr : Nat) (s : State), cl < 128 → addr < 2 ^ 22 →
    (addr / 16 * 16 ∉ (s.cluster cl).tileUE → exec (.arrayScrub true cl addr) s = .next s)
    ∧ (∀ ctx, addr / 16 * 16 ∈ (s.cluster cl).tileUE → (s.cluster cl).owner = some ctx →
      ∃ s', exec (.arrayScrub true cl addr) s = .next s' ∧ s'.job? ctx = none)
    ∧ (addr / 16 * 16 ∈ (s.cluster cl).tileUE → (s.cluster cl).owner = none →
      ∃ s', exec (.arrayScrub true cl addr) s = .next s' ∧ addr / 16 * 16 ∉ (s'.cluster cl).tileUE
        ∧ ∀ i, i < 128 → Memory.get (s'.cluster cl).tile (addr / 128 * 128 + i) = 0#8))
  ∧ (∀ (core addr : Nat) (s : State), core < 2048 → addr < 262144 → 4096 * (s.core core).poolReg ≤ addr →
    let w := (addr - 4096 * (s.core core).poolReg) / 8 * 8
    (w ∉ (s.core core).spadUE → exec (.arrayScrub false core addr) s = .next s)
    ∧ (∀ ctx, w ∈ (s.core core).spadUE → (s.core core).owner = some ctx →
      ∃ s', exec (.arrayScrub false core addr) s = .next s' ∧ s'.job? ctx = none))

namespace Sys2Proof.Claims

/-- A function whose accesses reach the package: function 0, or a virtual one after stage 0 (R421, R449). -/
def HostReaches (s : State) (func : Nat) : Prop := func < 32 ∧ (func = 0 ∨ s.stage ≠ 0)
/-- A BAR2 access of `size` bytes at `off` that its function's aperture onto job `ctx` takes to `base + off`, in one 128-byte line, nothing
of the function waiting before it (R421-R423). -/
structure Bar2At (s : State) (func off size ctx base : Nat) : Prop where
  pf : HostReaches s func
  bytes : 1 ≤ size ∧ off + size ≤ 2 ^ 36
  line : (base + off) % 128 + size ≤ 128
  job : (s.job? ctx).isSome = true
  bound : (s.func func).aperture = some (ctx, base)
  first : (s.func func).bar2 = []

end Sys2Proof.Claims

/-- R421-R424, R426, R375, R452: through its aperture a BAR2 access in one line that is allowed is performed: a read gives the bytes of the
job's memory, a write writes them and no others, a FetchAdd of 8 bytes gives the old dword and leaves the sum; without an aperture, and where the page denies it, a read gives all ones and nothing is written;
a bound doorbell posts a tail write of its 8 bytes, and an unbound one or one of another size is dropped with its event; RCFG enables a ring of
good size and place with WRITE and READ 0; READ advances up to WRITE; RBASE, the MSI-X table and the mailbox's buffer hold what is written; a
virtual function in stage 0 reaches nothing; a read of BAR0 gives the ring registers and the STKCAP images; an event that an enabled ring has
room for is written to its slot with its number, and vector 0 is signalled. -/
def Obligations.HostAccess : Prop :=
  (∀ (func off size ctx base val pa : Nat) (leaf : Word) (s : State), Bar2At s func off size ctx base → NotFramed s 0 → s.poison = [] →
    (s.xlate ctx none .read (base + off) = .ok pa leaf → s.awake pa = true →
      ∃ s', exec (.bar2Read func off size) s = .next s' ∧ (s'.func func).lastRead = some (Memory.read s.mem pa size) ∧ s'.mem = s.mem
        ∧ (s'.func func).bar2 = [])
    ∧ (s.xlate ctx none .write (base + off) = .ok pa leaf → s.bufferRoom pa = true →
      ∃ s', exec (.bar2Write func off size val) s = .next s' ∧ Memory.read s'.mem pa size = val % 256 ^ size
        ∧ (∀ a, a < pa ∨ pa + size ≤ a → Memory.get s'.mem a = Memory.get s.mem a) ∧ (s'.func func).bar2 = [])
    ∧ (s.xlate ctx none .atomic (base + off) = .ok pa leaf → s.bufferRoom pa = true → size = 8 →
      ∃ s', exec (.bar2Fetchadd func off val) s = .next s' ∧ (s'.func func).lastRead = some (Memory.read s.mem pa 8)
        ∧ Memory.read s'.mem pa 8 = (Memory.read s.mem pa 8 + val) % 2 ^ 64
        ∧ ∀ a, a < pa ∨ pa + 8 ≤ a → Memory.get s'.mem a = Memory.get s.mem a)
    ∧ (s.xlate ctx none .read (base + off) = .access →
      ∃ s', exec (.bar2Read func off size) s = .next s' ∧ (s'.func func).lastRead = some (256 ^ size - 1) ∧ s'.mem = s.mem))
  ∧ (∀ (func off size val : Nat) (i : Instr) (s : State), func < 32 → func ≠ 0 → s.stage = 0 →
    i ∈ [.bar2Read func off size, .bar2Write func off size val, .doorbellWrite func (off % 64) (size % 255 + 1) val, .rcfgWrite func val,
      .eventRingReadWrite func val] → 1 ≤ size → size ≤ 4096 → off + size ≤ 2 ^ 36 → exec i s = .next s)
  ∧ (∀ (func off size : Nat) (s : State), HostReaches s func → 1 ≤ size → size ≤ 4096 → off + size ≤ 2 ^ 36 →
    (s.func func).aperture = none →
    ∃ s' r, exec (.bar2Read func off size) s = .next s' ∧ (s'.func func).lastRead = some (256 ^ size - 1) ∧ s'.mem = s.mem
      ∧ Tells s s' func 4 0xFFFF r)
  ∧ (∀ (func idx size val ctx q : Nat) (s : State), HostReaches s func → idx < 64 → 1 ≤ size → size < 256 →
    ((s.func func).doorbells.find? (fun d => d.1 == idx) = some (idx, (ctx, q)) → size = 8 → (s.func func).bar2 = [] →
      ∃ s', exec (.doorbellWrite func idx size val) s = .next s' ∧ s'.tails = s.tails ++ [⟨ctx, q, dn val, none, 0, 0, []⟩])
    ∧ ((s.func func).doorbells.find? (fun d => d.1 == idx) = some (idx, (ctx, q)) → size ≠ 8 →
      ∃ s', exec (.doorbellWrite func idx size val) s = .next s' ∧ s'.tails = s.tails ∧ Tells s s' func 5 ctx
        (idx + 2 ^ 16 * size + 2 ^ 24 * 2 + 2 ^ 64 * (val % 256 ^ size % 2 ^ 64) + 2 ^ 128 * s.now))
    ∧ ((s.func func).doorbells.find? (fun d => d.1 == idx) = none →
      ∃ s', exec (.doorbellWrite func idx size val) s = .next s' ∧ s'.tails = s.tails ∧ Tells s s' func 5 0xFFFF
        (idx + 2 ^ 16 * size + 2 ^ 24 * 1 + 2 ^ 64 * (val % 256 ^ size % 2 ^ 64) + 2 ^ 128 * s.now)))
  ∧ (∀ (func val : Nat) (s : State), HostReaches s func → (s.func func).held = [] →
    let log := val % 32
    let good := 6 ≤ log ∧ log ≤ 16 ∧ (s.func func).rbase.toNat % (64 * 2 ^ log) = 0 ∧ val / 256 % 2 = 1
    ∃ s', exec (.rcfgWrite func val) s = .next s' ∧ (s'.func func).log2n.toNat = log ∧ ((s'.func func).en = true ↔ good)
      ∧ (good → (s.func func).en = false → (s'.func func).write = 0#64 ∧ (s'.func func).read = 0#64)
      ∧ ((s.func func).en = true → (s'.func func).write = (s.func func).write ∧ (s'.func func).read = (s.func func).read))
  ∧ (∀ (func val : Nat) (s : State), HostReaches s func → val < 2 ^ 64 → (s.func func).held = [] →
    (val ≤ (s.func func).write.toNat → ∃ s', exec (.eventRingReadWrite func val) s = .next s'
      ∧ s'.func func = { s.func func with read := dn val })
    ∧ ((s.func func).write.toNat < val → exec (.eventRingReadWrite func val) s = .next s))
  ∧ (∀ (func off val : Nat) (s : State), HostReaches s func → off % 8 = 0 →
    (off = 0x2000 → ∃ s', exec (.hostRegisterWrite func off val) s = .next s' ∧ s'.func func = { s.func func with rbase := dn val })
    ∧ (off < 512 → ∃ s', exec (.hostRegisterWrite func off val) s = .next s'
      ∧ Memory.read (s'.func func).msixTable off 8 = val % 2 ^ 64
      ∧ ∀ a, a < off ∨ off + 8 ≤ a → Memory.get (s'.func func).msixTable a = Memory.get (s.func func).msixTable a)
    ∧ (func = 0 → 0x8000 ≤ off → off < 0x8400 → ∃ s', exec (.hostRegisterWrite func off val) s = .next s'
      ∧ Memory.read s'.mboxBuf (off - 0x8000) 8 = val % 2 ^ 64)
    ∧ (512 ≤ off → off < 0x1000 → exec (.hostRegisterWrite func off val) s = .next s))
  ∧ (∀ (func n : Nat) (s : State), s.bar0 func 0x2000 = (s.func func).rbase ∧ s.bar0 func 0x2010 = (s.func func).write
    ∧ s.bar0 func 0x2018 = (s.func func).read ∧ s.bar0 func 0x2020 = dn (s.func func).held.length
    ∧ (n < 12 → s.bar0 0 (0x8900 + 8 * n) = (s.stack n).cap))
  ∧ (∀ (func cls ctx record : Nat) (s : State),
    let f := s.func func
    let n := 2 ^ f.log2n.toNat
    f.en = true → f.held = [] → f.write.toNat - f.read.toNat < n →
    let s' := s.postEvent func cls ctx record
    (s'.func func).write = f.write + 1#64 ∧ (s'.func func).held = [] ∧ (s'.func func).msix = f.msix ++ [0]
      ∧ Memory.read s'.hostMem (f.rbase.toNat + 64 * (f.write.toNat % n)) 64
        = (cls + 2 ^ 16 * ctx + 2 ^ 32 * func + 2 ^ 64 * f.write.toNat + 2 ^ 128 * record) % 2 ^ 512
      ∧ s'.mem = s.mem)

namespace Sys2Proof.Claims

/-- The staged image has a good header and enough bytes (R450). -/
structure GoodHeader (s : State) : Prop where
  some : s.stagedLen ≠ 0
  magic : Memory.read s.staged 0 4 = 0x4E474657
  reserved : Memory.read s.staged 28 36 = 0 ∧ Memory.read s.staged 224 32 = 0
  whole : 256 + Memory.read s.staged 8 4 ≤ s.stagedLen

/-- A job description whose fields fit, whose clusters and vaults can be granted (R445, R453). -/
structure GoodLaunch (s : State) (func : Nat) (d : JobDesc) : Prop where
  fits : jobFits d = true
  fresh : d.ctx < 4096 ∧ s.job? d.ctx = none
  func : func < 32
  granted : s.launchStatus d = 0
  ids : ∀ u ∈ s.threads, u.tid < s.nextTid

end Sys2Proof.Claims

/-- R443, R449-R454: INFO is answered with 0; ATTEST of a 32-byte nonce answers with 192 bytes: the nonce, the digests of boot ROM and image,
ACTSVN, the serial and 16 zero bytes, then the signature; of another length it is refused; the signer's end clears BUSY; ZERO clears HBM and pools, and is refused while a job runs; IMAGE_STAGE stores up to 1,000 bytes;
IMAGE_ACTIVATE answers 0x25 with nothing staged, 0x21 for a bad header, digest or signature, 0x22 for a good image of a version below MINSVN, and with no
task and no job in the package activates a good one at once; an acknowledgement of a paused function counts, and at the timeout the activation ends with 0x24; LAUNCH
answers with its status, and with 0 the job owns its clusters' cores and its root task starts at CBASE + the root's entry; END by the job's
function leaves nothing of the job, and by another is refused; a write of the doorbell runs the INFO, ATTEST or ZERO command in the buffer. -/
def Obligations.MailboxLife : Prop :=
  (∀ (seq : Nat) (s : State), Ready 0 seq s → ∃ s', exec (.info seq) s = .next s' ∧ Answered s' seq 0 ∧ s'.mem = s.mem)
  ∧ (∀ (seq : Nat) (nonce : List Byte) (s : State), Ready 0 seq s →
    (nonce.length = 32 → ∃ s', exec (.attest seq nonce) s = .next s' ∧ Answered s' seq 0 ∧ s'.mboxBody.length = 192
      ∧ s'.mboxBody.take 128 = nonce ++ bigBytes 32 romDigest ++ bigBytes 32 s.image.digest ++ bytesOf 4 s.actsvn.toNat
        ++ (List.range 12).map Config.serial ++ List.replicate 16 0#8)
    ∧ (nonce.length ≠ 32 → ∃ s', exec (.attest seq nonce) s = .next s' ∧ Refused s s' seq))
  ∧ (∀ (s : State), s.attbusy = true → ∃ s', exec .attestSignatureDone s = .next s' ∧ s'.attbusy = false
    ∧ ∀ a, a < s.attaddr.toNat + 128 ∨ s.attaddr.toNat + 192 ≤ a → Memory.get s'.mem a = Memory.get s.mem a)
  ∧ (∀ (seq : Nat) (s : State), Ready 0 seq s →
    (s.jobs = [] → ∃ s', exec (.zero seq) s = .next s' ∧ Answered s' seq 0 ∧ s'.mem = [] ∧ s'.cores = []
      ∧ ∀ c ∈ s'.clusters, c.owner = none ∧ c.tile = [] ∧ c.engines = [] ∧ c.notes = [] ∧ c.records = [])
    ∧ (s.jobs ≠ [] → ∃ s', exec (.zero seq) s = .next s' ∧ Refused s s' seq))
  ∧ (∀ (seq off : Nat) (bytes : List Byte) (s : State), Ready 0 seq s →
    (bytes.length ≤ 1000 → off + bytes.length < 2 ^ 32 → ∃ s', exec (.imageStage seq off bytes) s = .next s' ∧ Answered s' seq 0
      ∧ s'.stagedLen = max s.stagedLen (off + bytes.length)
      ∧ (∀ i, i < bytes.length → Memory.get s'.staged (off + i) = bytes.getD i 0#8)
      ∧ ∀ a, a < off ∨ off + bytes.length ≤ a → Memory.get s'.staged a = Memory.get s.staged a)
    ∧ (1000 < bytes.length → ∃ s', exec (.imageStage seq off bytes) s = .next s' ∧ Refused s s' seq ∧ s'.staged = s.staged))
  ∧ (∀ (seq timeout : Nat) (s : State), Ready 0 seq s →
    (s.stagedLen = 0 → ∃ s', exec (.imageActivate seq timeout) s = .next s' ∧ Answered s' seq 0x25 ∧ s'.image = s.image)
    ∧ (s.stagedLen ≠ 0 → Memory.read s.staged 0 4 ≠ 0x4E474657 →
      ∃ s', exec (.imageActivate seq timeout) s = .next s' ∧ Answered s' seq 0x21 ∧ s'.image = s.image)
    ∧ (GoodHeader s → s.stagedSigned = false →
      ∃ s', exec (.imageActivate seq timeout) s = .next s' ∧ Answered s' seq 0x21 ∧ s'.image = s.image)
    ∧ (GoodHeader s → s.stagedSigned = true → Memory.read s.staged 4 4 < s.minsvn.toNat →
      ∃ s', exec (.imageActivate seq timeout) s = .next s' ∧ Answered s' seq 0x22 ∧ s'.image = s.image)
    ∧ (GoodHeader s → s.stagedSigned = true → s.minsvn.toNat ≤ Memory.read s.staged 4 4 → (∀ t ∈ s.threads, t.isFw = true) → s.jobs = [] →
      ∃ s', exec (.imageActivate seq timeout) s = .next s' ∧ s'.quiesce = none ∧ Answered s' seq 0
        ∧ s'.image.svn = Memory.read s.staged 4 4 ∧ s'.actsvn.toNat = Memory.read s.staged 4 4 ∧ s'.stagedLen = 0))
  ∧ (∀ (seq func g : Nat) (q : Quiesce) (s : State), s.booted = true → seq < 2 ^ 32 → s.quiesce = some q → func ∈ q.need → g ∈ q.need →
    g ∉ q.acks → g ≠ func →
    ∃ s', exec (.quiesceAck seq func) s = .next s' ∧ Answered s' seq 0 ∧ s'.quiesce = some { q with acks := func :: q.acks })
  ∧ (∀ (q : Quiesce) (g : Nat) (s : State), s.quiesce = some q → q.need = [g] → q.acks = [] → q.timeoutAt ≤ s.now → g ≠ 0 →
    q.seq < 2 ^ 32 →
    ∃ s', exec .quiesceTimeout s = .next s' ∧ s'.quiesce = none ∧ s'.mboxSeq = q.seq ∧ s'.mboxStatus = 0x24 ∧ s'.image = s.image
      ∧ Tells s s' g 7 0xFFFF (0x24 + 2 ^ 128 * s.now))
  ∧ (∀ (seq func : Nat) (d : JobDesc) (s : State), Ready 2 seq s → GoodLaunch s func d →
    ∃ s' v core phase, exec (.launch seq func d) s = .next s' ∧ Answered s' seq 0 ∧ s'.job? d.ctx = some (jobOf func d)
      ∧ (∀ e ∈ launchClusters d, ∀ k, k < 16 → s'.owns d.ctx (clusterCore e.1 k) = true) ∧ s'.thread? s.nextTid = some v
      ∧ v.loc = .phase core phase ∧ phase < 7 ∧ s'.owns d.ctx core = true ∧ v.ctx = d.ctx ∧ v.pc = dn (d.cbase % 2 ^ 52 / 65536 * 65536 + d.rootTask)
      ∧ v.c.reg 1#6 = dn d.arg0 ∧ v.run = .runnable)
  ∧ (∀ (seq func : Nat) (d : JobDesc) (s : State), Ready 2 seq s → jobFits d = true → d.ctx < 4096 → s.job? d.ctx = none → func < 32 →
    s.launchStatus d ≠ 0 →
    ∃ s', exec (.launch seq func d) s = .next s' ∧ Answered s' seq (s.launchStatus d) ∧ s'.jobs = s.jobs ∧ s'.cores = s.cores
      ∧ s'.clusters = s.clusters ∧ s'.threads = s.threads ∧ s'.mem = s.mem)
  ∧ (∀ (seq func ctx : Nat) (s : State), Ready 2 seq s →
    (Owned func ctx s → ∃ s', exec (.end_ seq ⟨func, ctx⟩) s = .next s' ∧ Answered s' seq 0 ∧ s'.job? ctx = none
      ∧ (∀ t ∈ s'.threads, t.ctx = ctx → t.isFw = true) ∧ (∀ c ∈ s'.cores, c.owner ≠ some ctx)
      ∧ (∀ x ∈ s'.stores, x.ctx ≠ ctx) ∧ ∀ g ∈ s'.grants, g.1 ≠ ctx)
    ∧ (¬ Owned func ctx s → ∃ s', exec (.end_ seq ⟨func, ctx⟩) s = .next s' ∧ Refused s s' seq))
  ∧ (∀ (seq op fn len : Nat) (nonce : List Byte) (i : Instr) (s : State), s.booted = true → seq < 2 ^ 32 → fn < 32 →
    (op = 1 ∧ len = 0 ∧ i = .info seq ∨ op = 2 ∧ len = 32 ∧ nonce.length = 32 ∧ i = .attest seq nonce ∨ op = 3 ∧ len = 0 ∧ i = .zero seq) →
    Memory.read s.mboxBuf 0 2 = op → Memory.read s.mboxBuf 2 2 = fn → Memory.read s.mboxBuf 4 4 = len → Memory.read s.mboxBuf 8 4 = seq →
    Memory.read s.mboxBuf 12 4 = 0 → (∀ k, k < len → Memory.get s.mboxBuf (16 + k) = nonce.getD k 0#8) →
    exec (.hostRegisterWrite 0 0x8800 seq) s = exec i s)

/-- R421, R424, R428, R431, R434, R438, R452, R297: with their conditions met APERTURE binds a function's window, DOORBELL a doorbell, STREAM
opens the lowest free stream of a complex and STREAM_CLOSE frees one, FABRIC sets chip and port, PEER enters a peer with fresh streams,
FABRIC_GRANT enters or withdraws a grant and PIPELINE takes a job's table; each is answered with 0. A command about a job or stream that
its function does not own is refused, and FABRIC while a job runs. -/
def Obligations.MailboxTables : Prop :=
  (∀ (seq func ctx a b src sctx : Nat) (revoke : Bool) (d : StreamDesc) (i : Instr) (s : State), Ready 2 seq s → ¬ Owned func ctx s →
    i ∈ [.aperture seq func ctx a, .doorbell seq func a ctx b, .stream seq func ctx d, .fabricGrant seq ⟨func, ctx⟩ src sctx revoke] →
    ∃ s', exec i s = .next s' ∧ Refused s s' seq)
  ∧ (∀ (seq func n : Nat) (s : State), Ready 2 seq s → (∀ k ∈ s.streams, k.n = n → ¬ Owned func k.ctx s) →
    ∃ s', exec (.streamClose seq func n) s = .next s' ∧ Refused s s' seq)
  ∧ (∀ (seq func ctx base : Nat) (s : State), Ready 2 seq s → Owned func ctx s → base % 2 ^ 36 = 0 → base < 2 ^ 64 →
    ∃ s', exec (.aperture seq func ctx base) s = .next s' ∧ Answered s' seq 0 ∧ (s'.func func).aperture = some (ctx, base))
  ∧ (∀ (seq func idx ctx va : Nat) (s : State), Ready 2 seq s → Owned func ctx s → idx < 64 → va % 64 = 0 →
    va < 2 ^ 52 →
    ∃ s', exec (.doorbell seq func idx ctx va) s = .next s' ∧ Answered s' seq 0
      ∧ (s'.func func).doorbells.find? (fun d => d.1 == idx) = some (idx, (ctx, va)))
  ∧ (∀ (seq func ctx i : Nat) (d : StreamDesc) (s : State), Ready 2 seq s → Owned func ctx s →
    s.streamOk d = true → i < 16 → (∀ n, n < i → ∃ k ∈ s.streams, k.n = 16 * d.complex + n) → (∀ k ∈ s.streams, k.n ≠ 16 * d.complex + i) →
    ∃ s' k, exec (.stream seq func ctx d) s = .next s' ∧ Answered s' seq 0 ∧ s'.streams = s.streams ++ [k] ∧ k.n = 16 * d.complex + i
      ∧ k.ctx = ctx ∧ k.width = d.width ∧ k.height = d.height ∧ k.etl = 0#64 ∧ k.eissued = 0#64 ∧ k.frames = [])
  ∧ (∀ (seq func : Nat) (k : Stream) (s : State), Ready 2 seq s → s.streams.find? (fun j => j.n == k.n) = some k → Owned func k.ctx s →
    ∃ s', exec (.streamClose seq func k.n) s = .next s' ∧ Answered s' seq 0 ∧ ∀ x ∈ s'.streams, x.n ≠ k.n)
  ∧ (∀ (seq chip port : Nat) (s : State), Ready 1 seq s → 1 ≤ chip → chip ≤ 4095 → 1024 ≤ port → port ≤ 65535 →
    (s.jobs = [] → ∃ s', exec (.fabric seq chip port) s = .next s' ∧ Answered s' seq 0 ∧ s'.chip.toNat = chip ∧ s'.udpPort.toNat = port)
    ∧ (s.jobs ≠ [] → ∃ s', exec (.fabric seq chip port) s = .next s' ∧ Refused s s' seq ∧ s'.chip = s.chip))
  ∧ (∀ (seq chip : Nat) (addr : BitVec 128) (s : State), Ready 1 seq s → 1 ≤ chip → chip ≤ 4095 → s.jobs = [] →
    ∃ s' p, exec (.peer seq chip addr) s = .next s' ∧ Answered s' seq 0 ∧ s'.peer? chip = some p ∧ p.addr = addr ∧ p.up = true
      ∧ p.sendSeq = 0 ∧ p.recvSeq = 0 ∧ p.unacked = [])
  ∧ (∀ (seq func dctx src sctx : Nat) (revoke : Bool) (s : State), Ready 2 seq s → src < 4096 → sctx < 4096 → Owned func dctx s →
    ∃ s', exec (.fabricGrant seq ⟨func, dctx⟩ src sctx revoke) s = .next s' ∧ Answered s' seq 0
      ∧ s'.grants.contains (dctx, src, sctx) = !revoke)
  ∧ (∀ (seq func ctx va : Nat) (s : State), Ready 2 seq s → s.frameAwake ctx va 4624 = true →
    (Owned func ctx s → s.badTable ctx va = none → ∃ s' p, exec (.pipeline seq ⟨func, ctx⟩ va) s = .next s' ∧ Answered s' seq 0
      ∧ s'.pipelines = s.pipelines ++ [p] ∧ p.ctx = ctx ∧ p.table = va ∧ p.placed = false ∧ p.done = dn (s.jobRead ctx va 8))
    ∧ (¬ Owned func ctx s → ∃ s', exec (.pipeline seq ⟨func, ctx⟩ va) s = .next s' ∧ Refused s s' seq))

namespace Sys2Proof.Claims

/-- A message whose header is one of this fabric with a body of its type's length is the next of the stream from its peer, and its sender has
a grant to its job (R428-R431). -/
structure Delivers (s : State) (h : FabHdr) (len : Nat) (p : Peer) : Prop where
  form : s.headerOk h len = true
  peer : s.peer? h.src = some p
  up : p.up = true
  next : h.seq = (p.recvSeq + 1) % 2 ^ 32
  fits : h.sctx < 65536 ∧ h.dctx < 65536
  grant : (h.dctx, h.src, h.sctx) ∈ s.grants
  fresh : p.denied = none

/-- A message of this number has been taken: the stream from the peer goes on after it, and what the message acknowledges is kept no
longer (R429, R431). -/
def Taken (p : Peer) (h : FabHdr) (s' : State) : Prop :=
  ∃ p', s'.peer? h.src = some p' ∧ p'.recvSeq = p.recvSeq + 1 ∧ ∀ m, m ∈ (p.acked h.ack).unacked → m ∈ p'.unacked
/-- The answer to a taken message is sent: it stands last behind what is not yet acknowledged, with the next number, and acknowledges the
message (R429, R431). -/
def Sends (p : Peer) (h : FabHdr) (body : FabMsg) (s s' : State) : Prop :=
  ∃ p', s'.peer? h.src = some p' ∧ p'.sendSeq = p.sendSeq + 1
    ∧ p'.unacked = (p.acked h.ack).unacked ++ [⟨p.sendSeq + 1, p.recvSeq + 1, h.dctx, h.sctx, body, 0, s.now⟩]
/-- A message goes to a peer behind what is not yet acknowledged, with the next number (R431). -/
def SentTo (p : Peer) (sctx dctx : Nat) (body : FabMsg) (s s' : State) : Prop :=
  ∃ p', s'.peer? p.chip = some p' ∧ p'.sendSeq = p.sendSeq + 1
    ∧ p'.unacked = p.unacked ++ [⟨p.sendSeq + 1, p.recvSeq, sctx, dctx, body, 0, s.now⟩]
/-- The operation that a touch from another package becomes at its note's cluster (R269, R432). -/
def proxyTouch (h : FabHdr) (handle proxy : Word) : NoteOp :=
  ⟨.touch, handle, 0#64, 0#8, 0, h.dctx, clusterCore (handleHome handle) 0, true, [], false, some (h.src, (proxy, h.sctx))⟩

end Sys2Proof.Claims

/-- R429-R432, R250, R269: a granted message in order has its effect once, and the ACK of its header takes off what is kept for it: RESOLVE
gives a PENDING note of this package its state, and tells a sender that asked that it won; for a handle that names no note it is answered with
STATUS 0x0A; RESOLVE_REPLY answers the thread that waits; TOUCH goes to its note's cluster, where a terminal note answers with its state, cause and value and a
PENDING one takes a proxy waiter, one for each touching thread; TOUCH_REPLY answers the touching thread; TAIL posts a tail write; a message
with a BODY, reserved byte, VER or DST (these two the model's choice, log 133) that is not its type's, or without a grant, is dropped with its event, and a
duplicate changes nothing. -/
def Obligations.FabricNotes : Prop :=
  (∀ (h : FabHdr) (handle value token : Word) (want : Bool) (p : Peer) (n : Note) (s : State), Delivers s h 40 p →
    s.noteOf h.dctx handle = some n → n.state = .pending → n.waiters = [] → n.relq = false →
    ∃ s', exec (.resolve h handle value 0 0 want token) s = .next s' ∧ Taken p h s'
      ∧ s'.noteOf h.dctx handle = some { n with state := .resolved, cause := 0#8, value := value, blocks := [], termAt := s.now }
      ∧ (want = true → Sends p h (.resolveReply handle token true 0) s s'))
  ∧ (∀ (h : FabHdr) (handle value token : Word) (p : Peer) (s : State), Delivers s h 40 p → s.noteOf h.dctx handle = none →
    ∃ s', exec (.resolve h handle value 0 0 true token) s = .next s' ∧ Taken p h s' ∧ s'.clusters = s.clusters
      ∧ Sends p h (.resolveReply handle token false 0x0A) s s')
  ∧ (∀ (h : FabHdr) (handle : Word) (won : Bool) (pd : BitVec 2) (p : Peer) (t : Thread) (w : Wake) (token : Word) (s : State),
    Delivers s h 24 p → s.thread? token.toNat = some t → t.run = .out w (.note handle pd none) →
    ∃ s' u, exec (.resolveReply h handle token won 0) s = .next s' ∧ Taken p h s' ∧ s'.thread? token.toNat = some u
      ∧ u.run.pending = some (.note handle pd (some (.won won))))
  ∧ (∀ (h : FabHdr) (handle proxy : Word) (p : Peer) (s : State), Delivers s h 16 p →
    (s.isHere handle = true → ∃ s', exec (.fabricTouch h handle proxy) s = .next s' ∧ Taken p h s' ∧ s'.clusters = s.clusters
      ∧ s'.noteOps = s.noteOps ++ [proxyTouch h handle proxy])
    ∧ (s.isHere handle = false → ∃ s', exec (.fabricTouch h handle proxy) s = .next s' ∧ Taken p h s' ∧ s'.clusters = s.clusters
      ∧ s'.noteOps = s.noteOps ∧ Sends p h (.touchReply handle proxy 0 0 0#64) s s'))
  ∧ (∀ (h : FabHdr) (handle proxy : Word) (p : Peer) (rest : List NoteOp) (s : State),
    s.noteOps = proxyTouch h handle proxy :: rest → s.isHere handle = true → s.peer? h.src = some p → p.up = true →
    (s.noteOf h.dctx handle = none → ∃ s', exec (.noteOpArrive 0) s = .next s' ∧ s'.noteOps = rest ∧ s'.clusters = s.clusters
      ∧ SentTo p h.dctx h.sctx (.touchReply handle proxy 0 0 0#64) s s')
    ∧ ∀ n : Note, s.noteOf h.dctx handle = some n →
      (n.state ≠ .pending → ∃ s' code, exec (.noteOpArrive 0) s = .next s' ∧ s'.noteOps = rest ∧ s'.clusters = s.clusters
        ∧ code = (match n.state with
          | .pending => 1
          | .resolved => 2
          | .poisoned => 3
          | .cancelled => 4)
        ∧ SentTo p h.dctx h.sctx (.touchReply handle proxy code n.cause.toNat n.value) s s')
      ∧ (n.state = .pending → n.waiters.length < 4 → .proxy h.src proxy h.sctx ∉ n.waiters →
        ∃ s', exec (.noteOpArrive 0) s = .next s' ∧ s'.noteOps = rest
          ∧ s'.noteOf h.dctx handle = some { n with waiters := n.waiters ++ [.proxy h.src proxy h.sctx] })
      ∧ (n.state = .pending → .proxy h.src proxy h.sctx ∈ n.waiters →
        ∃ s', exec (.noteOpArrive 0) s = .next s' ∧ s'.noteOps = rest ∧ s'.noteOf h.dctx handle = some n))
  ∧ (∀ (h : FabHdr) (handle value : Word) (b : Bool) (pd : BitVec 2) (d : Reg) (p : Peer) (t : Thread) (w : Wake) (proxy : Word) (s : State),
    Delivers s h 32 p → s.heldAt proxy.toNat = none → s.thread? proxy.toNat = some t → t.run = .out w (.touch b pd d handle none) →
    t.evicted = false →
    ∃ s' u, exec (.touchReply h handle proxy 2 0 value) s = .next s' ∧ Taken p h s' ∧ s'.thread? proxy.toNat = some u
      ∧ u.run.pending = some (.touch b pd d handle (some (.resolved value))))
  ∧ (∀ (h : FabHdr) (desc value : Word) (p : Peer) (s : State), Delivers s h 16 p →
    ∃ s', exec (.tail h desc value) s = .next s' ∧ Taken p h s'
      ∧ s'.tails = s.tails ++ [⟨h.dctx, desc.toNat, value, none, 0, 0, []⟩])
  ∧ (∀ (h : FabHdr) (desc value : Word) (p : Peer) (s : State), s.peer? h.src = some p → p.up = true → h.sctx < 65536 → h.dctx < 65536 →
    (∀ reason, h.seq = (p.recvSeq + 1) % 2 ^ 32 → s.job? h.dctx = none →
      (if s.headerOk h 16 = true then (h.dctx, h.src, h.sctx) ∉ s.grants ∧ reason = 1 else reason = 2) →
      ∃ s' p', exec (.tail h desc value) s = .next s' ∧ s'.peer? h.src = some p' ∧ p'.recvSeq = p.recvSeq + 1 ∧ s'.tails = s.tails
        ∧ Tells s s' 0 0x0A 0xFFFF
          (h.src + 2 ^ 16 * h.sctx + 2 ^ 32 * h.dctx + 2 ^ 48 * 5 + 2 ^ 56 * reason + 2 ^ 64 * h.seq + 2 ^ 128 * s.now))
    ∧ (h.seq = p.recvSeq % 2 ^ 32 → exec (.tail h desc value) s = .next s))

/-- R429, R431, R433: `fab.put` traps MISALIGNED with its operand where the descriptor is misaligned, ACCESS where it leaves the scratchpad or
breaks its sets, NOT_A_HANDLE where its NOTE fails the local check; with a good one and room it puts a transfer of its bytes into the queue,
counts its tag and clears the tag's DONE bit; with none it waits with kind MEMORY and SRC; a
piece that arrives is written to its job's memory and acknowledged, and after the last one the NOTE is resolved with the length; one that is
denied is answered with ACCESS and its address; an acknowledgement counts toward its put, and ACK takes what it covers
off the messages kept; a message not acknowledged within 20 µs is sent again, and after 64 times its peer is down and the threads that touch
a note there issue again; the streams of a failed port go to the lowest one that works. -/
def Obligations.FabricPuts : Prop :=
  (∀ (o : OpR) (s : State) (t : Thread), Clear (.fabPut o) s t → Readable t s o.w [o.a] [] →
    let a := srcVal t s o.w o.a
    let traps : Cause → Word → Prop := fun c v =>
      exec (.fabPut o) s = .next (takeTrap (chargedThread (.fabPut o) t s) c v t.pc (chargedState (.fabPut o) t s))
    (a.toNat % 64 ≠ 0 → traps .misaligned a)
    ∧ (a.toNat % 64 = 0 → (s.near t).size < a.toNat + 64 → traps .access a)
    ∧ (GoodBytes t s a.toNat → ¬ PutFields t s a.toNat → traps .access a)
    ∧ (GoodBytes t s a.toNat → PutFields t s a.toNat → ¬ PutNote t s a.toNat →
      traps .notAHandle (dn (fieldAt t s a.toNat 32 8))))
  ∧ (∀ (o : OpR) (s : State) (t : Thread), Clear (.fabPut o) s t → Readable t s o.w [o.a] [] →
    GoodBytes t s (srcVal t s o.w o.a).toNat → PutFields t s (srcVal t s o.w o.a).toNat → PutNote t s (srcVal t s o.w o.a).toNat →
    let a := (srcVal t s o.w o.a).toNat
    let tag := fieldAt t s a 24 1
    (Unrivalled .xfer t.coreId t s → (s.core t.coreId).xq.length < 32 →
      ∃ s' u x, exec (.fabPut o) s = .next s' ∧ GoesOn t u s' ∧ u.c = t.c ∧ (s'.core t.coreId).xq = (s.core t.coreId).xq ++ [x]
        ∧ x.tid = t.tid ∧ x.tag = tag ∧ x.len = fieldAt t s a 16 4 ∧ (x.pieces.map (·.len)).sum = fieldAt t s a 16 4
        ∧ (x.pieces.head?.map (·.va)) = some (fieldAt t s a 0 8) ∧ (∀ p ∈ x.pieces, p.len ≤ 4096)
        ∧ x.kind = .remote (fieldAt t s a 20 2) (fieldAt t s a 22 2) (fieldAt t s a 8 8) (fieldAt t s a 16 4) (dn (fieldAt t s a 32 8)) x.id
        ∧ lookupD u.tagCount tag 0 = lookupD t.tagCount tag 0 + 1 ∧ u.csr.done.getLsbD tag = false)
    ∧ (Stays t s → t.handler = none → 32 ≤ (s.core t.coreId).xq.length →
      ∃ s' u w, exec (.fabPut o) s = .next s' ∧ s'.thread? t.tid = some u ∧ u.pc = t.pc ∧ u.c = t.c ∧ u.run.pending.isSome = true
        ∧ u.run.wake? = some w ∧ w.kind = .memory ∧ w.operand = dn (fieldAt t s a 0 8)
        ∧ (s'.core t.coreId).xq = (s.core t.coreId).xq))
  ∧ (∀ (h : FabHdr) (dst number plen data pa : Nat) (note leaf : Word) (p : Peer) (s : State), Delivers s h (32 + plen) p → NotFramed s 0 →
    1 ≤ plen → plen ≤ 4096 → data < 256 ^ plen → piecesOf dst plen 0 = [⟨dst, plen, 0⟩] → dst < 2 ^ 64 → s.putsIn = [] →
    (s.xlate h.dctx none .write dst = .ok pa leaf → s.bufferRoom pa = true → s.roomFor [pa] = true →
      ∃ s', exec (.put h dst number plen plen note data) s = .next s' ∧ Taken p h s' ∧ Memory.read s'.mem pa plen = data
        ∧ (∀ a, a < pa ∨ pa + plen ≤ a → Memory.get s'.mem a = Memory.get s.mem a) ∧ Sends p h (.putAck number plen 0 0) s s'
        ∧ s'.putsIn = []
        ∧ s'.noteOps = s.noteOps
          ++ if note = 0#64 then [] else [⟨.resolve, note, dn plen, 0#8, 0, h.dctx, 0, false, [], false, none⟩])
    ∧ (s.xlate h.dctx none .write dst = .access →
      ∃ s', exec (.put h dst number plen plen note data) s = .next s' ∧ Taken p h s' ∧ s'.mem = s.mem
        ∧ Sends p h (.putAck number 0 3 dst) s s'
        ∧ s'.noteOps = s.noteOps
          ++ if note = 0#64 then [] else [⟨.poison, note, dn dst, 3#8, 0, h.dctx, 0, false, [], false, none⟩]))
  ∧ (∀ (h : FabHdr) (number bytes core : Nat) (x : Xfer) (p : Peer) (s : State), Delivers s h 24 p → s.putOf h number = some x →
    x.core = core → s.xfer? core x.id = some x → bytes < 2 ^ 32 →
    ∃ s' y, exec (.putAck h number bytes 0 0) s = .next s' ∧ Taken p h s' ∧ s'.xfer? core x.id = some y ∧ y.acked = x.acked + bytes)
  ∧ (∀ (src seq : Nat) (p : Peer) (m : SentMsg) (s : State), s.peer? src = some p → p.unacked = [m] → m.seq < 2 ^ 31 → seq < 2 ^ 31 →
    ∃ s' p', exec (.ack src seq) s = .next s' ∧ s'.peer? src = some p' ∧ p'.unacked = if m.seq ≤ seq then [] else [m])
  ∧ (∀ (chip : Nat) (p : Peer) (m : SentMsg) (s : State), s.peer? chip = some p → p.unacked = [m] → m.at_ + 20000 ≤ s.now →
    (m.resent < 64 → ∃ s' p', exec (.fabricRetransmit chip m.seq) s = .next s' ∧ s'.peer? chip = some p'
      ∧ p'.unacked = [{ m with resent := m.resent + 1, at_ := s.now }])
    ∧ (64 ≤ m.resent → ∃ s' p', exec (.fabricRetransmit chip m.seq) s = .next s' ∧ s'.peer? chip = some p' ∧ p'.up = false
      ∧ p'.unacked = [] ∧ Tells s s' 0 9 0xFFFF (p.chip + 2 ^ 128 * s.now)
      ∧ ∀ (t : Thread) (w : Wake) (b : Bool) (pd : BitVec 2) (d : Reg) (hd : Word), t ∈ s.threads → t.run = .out w (.touch b pd d hd none) →
        handleChip hd = p.chip → ∃ u ∈ s'.threads, u.tid = t.tid ∧ u.pc = t.pc ∧ u.run = .parked w true))
  ∧ (∀ (port k : Nat) (s : State), port < 4 → k < 4 → k ≠ port → k ∉ s.portsDown → (∀ n, n < k → n = port ∨ n ∈ s.portsDown) →
    ∃ s', exec (.portFail port) s = .next s' ∧ port ∈ s'.portsDown ∧ (∀ p ∈ s'.peers, p.port ≠ port)
      ∧ s'.peers = s.peers.map fun p => if p.port = port ∨ p.port ∈ s.portsDown then { p with port := k } else p)

/-- R427, R449: a package reset leaves no job, core or byte of HBM and one thread, firmware core 0 of die 0 at the ROM entry, and keeps the
fuses and host memory; with a first image that verifies stage 1 begins with stack 0 in training, else the package stays in stage 0 and knows
its boot failure; the stack in training goes online or stays absent, which is kept for INFO, and the next is trained, after the last stage 2 begins; a cluster
passes its self-test or never works; when the die-to-die link cannot deliver, every job ends and function 0 is told; a flit that is sent
again changes nothing. -/
def Obligations.Lifecycle : Prop :=
  (∀ (s : State), ∃ s' t, exec .packageReset s = .next s' ∧ s'.booted = true ∧ s'.jobs = [] ∧ s'.cores = [] ∧ s'.clusters = []
    ∧ s'.mem = [] ∧ s'.threads = [t] ∧ t.loc = .fw 0 0 0 ∧ t.pc = Config.romEntry ∧ t.run = .runnable ∧ t.lev = 0#2
    ∧ (s'.stage = 1 ∧ s'.bootFail = false ∧ (s'.stack 0).state = 1 ∨ s'.stage = 0 ∧ s'.bootFail = true)
    ∧ s'.hostMem = s.hostMem ∧ s'.keydig = s.keydig ∧ s'.minsvn = s.minsvn)
  ∧ (∀ (n localsa : Nat) (s : State), s.stage = 1 → (s.stack n).state = 1 → n < 12 → localsa ≤ 32 →
    (∃ s', exec (.stackTrained n true localsa) s = .next s' ∧ (s'.stack n).state = 2 ∧ (s'.stack n).dies = 0xFFFF#16
      ∧ (s'.stack n).igran = 2 * (32 - localsa) ∧ (n = 11 → s'.stage = 2) 
      ∧ (n < 11 → s'.stage = 1 ∧ (s'.stack (n + 1)).state = 1))
    ∧ (∃ s', exec (.stackTrained n false localsa) s = .next s' ∧ (s'.stack n).state = 0 ∧ n ∈ s'.stacksFailed
      ∧ (n = 11 → s'.stage = 2) ∧ (n < 11 → s'.stage = 1 ∧ (s'.stack (n + 1)).state = 1)))
  ∧ (∀ (cl : Nat) (ok : Bool) (s : State), s.stage = 2 → cl < 128 → (s.cluster cl).released = false → (s.cluster cl).failed = false →
    ∃ s', exec (.clusterRelease cl ok) s = .next s' ∧ s'.cluster cl = { s.cluster cl with released := ok, failed := !ok })
  ∧ (∀ (s : State), ∃ s', exec .linkDown s = .next s' ∧ s'.jobs = []
    ∧ (s.jobs = [] → Tells s s' 0 8 0xFFFF (2 ^ 128 * s.now)))
  ∧ (∀ (s : State), exec .flitRetry s = .next s)

namespace Sys2Proof.Claims

/-- The slot that the next step takes is the thread's, in the state `s0`: the agenda names it and the slot may be taken and no other slot comes
before it; or nothing is on the agenda, no event is under way and its slot is the next (log 3). -/
def SlotTaken (s s0 : State) (t : Thread) : Prop :=
  (∃ rest, s.agenda = .issue t.tid :: rest ∧ s0 = { s with agenda := rest } ∧ s0.thread? t.tid = some t ∧ s0.maySlot t = true
    ∧ s0.soonest t = true)
  ∨ (s.agenda = [] ∧ s0 = s ∧ s.booted = true ∧ s.nextSlot = some t
    ∧ firstEvent (s.threadEvents ++ s.placeEvents ++ s.jobEvents ++ s.placingEvents ++ s.tellerEvents ++ s.timedEvents) s = none)

/-- An outcome with what follows from it at once. -/
def followed (r : Host.Outcome State Fault Refusal) : Host.Outcome State Fault Refusal :=
  match r with
  | .next s' => .next s'.follow
  | .fault f => .fault f
  | .refused x => .refused x

end Sys2Proof.Claims

/-- R113, R48, R49, R116, R442: a step in which a thread's slot comes runs the instruction that the word fetched at its PC decodes to, in the
state at that slot (a thread at a blocking point whose condition has fired takes that instruction up again), and nothing else but what follows
from it at once; a word that decodes to no instruction is run as an illegal one; a fetch that is refused or uncorrectable raises its fault, one
that misses takes the thread out of the rotation; and the word fetched is the four bytes at the physical address of PC, the lowest address least significant, where its translation and its line are cached
(log 45). The choice of the slot is the agenda's (log 3). -/
def Obligations.StepRunsDecoded : Prop :=
  (∀ (s s0 : State) (t : Thread), Claims.SlotTaken s s0 t → (s0.atSlot t).overrun t.resume = false → t.resume.due = none →
    (∀ (w : W32) (i : Instr), (s0.atSlot t).fetch t.resume = .word w → decode w = .ok i →
      step s = Claims.followed (exec i (s0.atSlot t)))
    ∧ (∀ (w : W32) (e : DecodeError), (s0.atSlot t).fetch t.resume = .word w → decode w = .error e →
      step s = Claims.followed (exec (.illegal w) (s0.atSlot t)))
    ∧ ((s0.atSlot t).fetch t.resume = .access → step s = Claims.followed (exec (.fetchFault false t.resume.pc) (s0.atSlot t)))
    ∧ ((s0.atSlot t).fetch t.resume = .ue → step s = Claims.followed (exec (.fetchFault true t.resume.pc) (s0.atSlot t)))
    ∧ (∀ p : Pending, Claims.Uncancelled t → (s0.atSlot t).fetch t.resume = .miss p →
      ∃ s1 u, step s = Claims.followed (.next s1) ∧ Claims.Leaves t p u s1 ∧ s1.mem = s0.mem))
  ∧ (∀ (s : State) (t : Thread) (pa : Nat) (leaf : Word), s.access t .fetch t.pc.toNat 4 = .ok pa leaf → s.present pa = true →
    s.translated t .fetch t.pc.toNat = true → s.cached t.unit pa = true → s.poisonAt pa 4 = none → (t.unit, pa / 4 * 4) ∉ s.icacheUE →
    s.fetch t = .word (Memory.get s.mem (pa + 3) ++ Memory.get s.mem (pa + 2) ++ Memory.get s.mem (pa + 1) ++ Memory.get s.mem pa))

/-- R43, R48, R49: words written out field by field from their formats decode to the instructions they stand for, with every field in its
place; a major opcode and a function code that are not assigned name no instruction. -/
def Obligations.DecodeWords : Prop :=
  decode (0b000001#6 ++ 5#6 ++ 1#6 ++ 2#6 ++ 0#2 ++ 0b000000#6) = .ok (.add ⟨5, 1, 2, 0⟩)
  ∧ decode (0b000010#6 ++ 6#6 ++ 7#6 ++ 0b000#3 ++ 0x7FF#11) = .ok (.addi ⟨6, 7, 0x7FF⟩)
  ∧ decode (0b000100#6 ++ 9#6 ++ 0x12345#20) = .ok (.shlim ⟨9, 0x12345⟩)
  ∧ decode (0b000110#6 ++ 3#6 ++ 4#6 ++ 46#6 ++ 2#2 ++ 0b000011#6) = .ok (.div ⟨3, 4, 46, 2⟩)
  ∧ decode (0b000111#6 ++ 8#6 ++ 9#6 ++ 0b10#2 ++ 0x004#12) = .ok (.csrs ⟨8, 9, 0x004⟩)
  ∧ decode (0b001001#6 ++ 48#6 ++ 49#6 ++ 50#6 ++ 3#3 ++ 0b00011#5) = .ok (.vfma ⟨48, 49, 50, 3⟩)
  ∧ decode (0b001100#6 ++ 1#6 ++ 2#6 ++ 0x3FFE#14) = .ok (.beq ⟨1, 2, 0x3FFE⟩)
  ∧ decode (0b010001#6 ++ 0#3 ++ 1#1 ++ 2#2 ++ 0#6 ++ 5#14) = .ok (.bnp ⟨0, 2, 0, 5⟩)
  ∧ decode (0b010010#6 ++ 1#6 ++ 0xFFFFF#20) = .ok (.jal ⟨1, 0xFFFFF⟩)
  ∧ decode (0b010101#6 ++ 4#6 ++ 5#6 ++ 0b011#3 ++ 8#11) = .ok (.ldlD ⟨4, 5, 8⟩)
  ∧ decode (0b011110#6 ++ 4#6 ++ 5#6 ++ 0b010#3 ++ 12#11) = .ok (.stgW ⟨4, 5, 12⟩)
  ∧ decode (0b011011#6 ++ 0b10#2 ++ 1#6 ++ 2#6 ++ 3#6 ++ 17#6) = .ok (.xgath ⟨1, 2, 3, 17⟩)
  ∧ decode (0b011111#6 ++ 4#6 ++ 5#6 ++ 6#6 ++ 0#2 ++ 0b0100#4 ++ 0b01#2) = .ok (.amoAdd ⟨4, 5, 6, 0, 1⟩)
  ∧ decode (0b100001#6 ++ 7#6 ++ 8#6 ++ 0#6 ++ 0b00010#5 ++ 3#2 ++ 0#1) = .ok (.touchP ⟨7, 8, 0, 3, false⟩)
  ∧ decode (0b100011#6 ++ 0b0001#4 ++ 2#3 ++ 3#3 ++ 1#1 ++ 33#6 ++ 10#6 ++ 0b011#3) = .ok (.mmac ⟨2, 3, 1, 33, 10, 3⟩)
  ∧ decode (0b101001#6 ++ 1#6 ++ 2#6 ++ 3#6 ++ 0#2 ++ 0b000010#6) = .ok (.pinv ⟨1, 2, 3, 0⟩)
  ∧ decode (0b101010#6 ++ 1#4 ++ 2#4 ++ 3#4 ++ 1#2 ++ 1#1 ++ 0#11) = .ok (.fmt ⟨1, 2, 3, 1, 1, 0⟩)
  ∧ decode 0x00000000#32 = .error .reservedOpcode
  ∧ decode 0xFFFFFFFF#32 = .error .reservedOpcode
  ∧ decode (0b101011#6 ++ 0#26) = .error .unassignedOpcode
  ∧ decode (0b000001#6 ++ 0#20 ++ 0b011111#6) = .error .undefinedFunction

/-- R43, R47, R48: the bytes of every instruction's word, with anything after them, decode to that instruction with every field as it was,
and to the rest; and a word that decodes is the word of the instruction it decodes to: no bit of an encoding is dropped. -/
def Obligations.RoundTrip : Prop :=
  (∀ (i : Instr) (rest : List Byte), i.isWord = true → decodeBytes (wordBytes i.encode ++ rest) = .ok (i, rest))
  ∧ (∀ (w : W32) (i : Instr), decode w = .ok i → i.isWord = true ∧ i.encode = w)

/-- What stands at reset (R6, R94, R318, R385, R391, R388, R428, R443, R449): CYCLE 0, chip number 0, the fabric's port 47,000, every issue slot
passed, every stack absent with an activate limit of 49,152, no thread, no job, no core owned and no event known; and HBM and host memory in
their canonical form. The values that the manual does not give are the model's choice and not named here (log 2, 4-7). -/
def Obligations.ResetState : Prop :=
  State.reset.cycle = 0#64 ∧ State.reset.chip = 0#12 ∧ State.reset.udpPort = 47000#16 ∧ State.reset.duty = 16
  ∧ State.reset.ceThresh = 4096 ∧ State.reset.critTemp = 105 ∧ State.reset.exitTemp = 95 ∧ State.reset.actsvn = 0#32
  ∧ State.reset.attbusy = false ∧ State.reset.attaddr = 0#64 ∧ State.reset.stage = 0 ∧ State.reset.booted = false
  ∧ State.reset.threads = [] ∧ State.reset.jobs = [] ∧ State.reset.peers = [] ∧ State.reset.grants = []
  ∧ (∀ n, n < 12 → (State.reset.stack n).state = 0 ∧ (State.reset.stack n).alim = 49152)
  ∧ (∀ n, n < 2048 → (State.reset.core n).owner = none)
  ∧ memoryOk State.reset

/-- R7 (log 1): every step keeps HBM and host memory in their canonical form, from every state that has them so: addresses strictly rise and
no zero byte is listed, so that equal memories are equal data. -/
def Obligations.StepKeepsMemory : Prop :=
  ∀ (s s' : State), memoryOk s → step s = .next s' → memoryOk s'

/-- R99, R101, R102, R103, R19: `ScalarRowsGive`; and `ScalarCountsGive`; and `ImmediateRowsGive`; and `MultiplyDivideGive` together. -/
def Obligations.ScalarResults : Prop := Claims.ScalarRowsGive ∧ Claims.ScalarCountsGive ∧ Claims.ImmediateRowsGive ∧ Claims.MultiplyDivideGive

/-- R119, R121, R122: `BranchesGo`; and `JumpsGo` together. -/
def Obligations.BranchesAndJumps : Prop := Claims.BranchesGo ∧ Claims.JumpsGo

/-- R104, R9, R94, R3: `CsrReads`; and `CsrWrites`; and `PlaceCsrs` together. -/
def Obligations.CsrAccess : Prop := Claims.CsrReads ∧ Claims.CsrWrites ∧ Claims.PlaceCsrs

/-- R130, R128: `TrapEntry`; and `EretReturns` together. -/
def Obligations.TrapAndReturn : Prop := Claims.TrapEntry ∧ Claims.EretReturns

/-- R133, R124, R125: `CauseCodes`; and `BreakAndEcallTrap` together. -/
def Obligations.CausesAndTraps : Prop := Claims.CauseCodes ∧ Claims.BreakAndEcallTrap

/-- R126, R127: `YieldParks`; and `ExitEnds` together. -/
def Obligations.YieldAndExit : Prop := Claims.YieldParks ∧ Claims.ExitEnds

/-- R105, R112, R106, R107: `VectorLanes`; and `VectorInt32` together. -/
def Obligations.VectorResults : Prop := Claims.VectorLanes ∧ Claims.VectorInt32

/-- R107, R108, R109, R110: `VectorMasks`; and `VectorReductions` together. -/
def Obligations.VectorMasksAndReductions : Prop := Claims.VectorMasks ∧ Claims.VectorReductions

/-- R151, R155, R186, R156, R158: `ScratchpadLoads`; and `TileStoreLoads` together. -/
def Obligations.LocalLoads : Prop := Claims.ScratchpadLoads ∧ Claims.TileStoreLoads

/-- R151, R155, R158, R160: `ScratchpadStores`; and `TileStoreStores` together. -/
def Obligations.LocalStores : Prop := Claims.ScratchpadStores ∧ Claims.TileStoreStores

/-- R162, R163, R135: `TaggedWords`; and `TaggedWordsTrap`; and `TaggedWordsPark` together. -/
def Obligations.TaggedWordOperations : Prop := Claims.TaggedWords ∧ Claims.TaggedWordsTrap ∧ Claims.TaggedWordsPark

/-- R165, R167, R166-R168: `Messages`; and `MessageEvents` together. -/
def Obligations.ActiveMessages : Prop := Claims.Messages ∧ Claims.MessageEvents

/-- R209, R210, R208, R209-R212, R220: `GlobalLoads`; and `GlobalStores` together. -/
def Obligations.GlobalAccesses : Prop := Claims.GlobalLoads ∧ Claims.GlobalStores

/-- R218, R219, R228, R200: `Fences`; and `FenceTlbRemoves` together. -/
def Obligations.FencesOrder : Prop := Claims.Fences ∧ Claims.FenceTlbRemoves

/-- R215-R217, R220, R228: `AtomicsPerform`; and `OrderedAccesses` together. -/
def Obligations.AtomicsAndOrderedAccesses : Prop := Claims.AtomicsPerform ∧ Claims.OrderedAccesses

/-- R266, R249, R258, R254, R79, R253: `FnewAllocates`; and `SpawnStarts`; and `RecordDispatch` together. -/
def Obligations.TasksStart : Prop := Claims.FnewAllocates ∧ Claims.SpawnStarts ∧ Claims.RecordDispatch

/-- R285, R287, R288: `QueuePush`; and `QueuePop` together. -/
def Obligations.QueueRecords : Prop := Claims.QueuePush ∧ Claims.QueuePop

/-- R260-R265, R260, R263, R264, R267: `NoteOperations`; and `NoteAnswers` together. -/
def Obligations.NotesOfFutures : Prop := Claims.NoteOperations ∧ Claims.NoteAnswers

/-- R325-R327, R346, R334-R336: `EngineOperations`; and `EngineContexts` together. -/
def Obligations.EngineUse : Prop := Claims.EngineOperations ∧ Claims.EngineContexts

/-- R379-R381, R237, R383, R408: `RowOperations`; and `OwnTimelines` together. -/
def Obligations.RowsAndTimelines : Prop := Claims.RowOperations ∧ Claims.OwnTimelines

/-- R399, R405-R407, R401-R404, R408-R410, R415: `AttentionOperations`; and `AttentionScans` together. -/
def Obligations.AttentionQueries : Prop := Claims.AttentionOperations ∧ Claims.AttentionScans

/-- R345, R348-R350, R352, R355, R356, R362, R363, R339, R346: `DrainPrograms`; and `Drains` together. -/
def Obligations.DrainProgramsRun : Prop := Claims.DrainPrograms ∧ Claims.Drains
end

