-- ==== Sys2Proof/Laws/State.lean ====
section
/-! SUPPORT. One lemma per field of State per update, true by rfl, so that no proof unfolds a record update. -/

namespace Sys2Proof.Machine

variable (s : State)

/-! `setThread` -/

@[simp] theorem State.setThread_cycle (t : Thread) : (s.setThread t).cycle = s.cycle := rfl
@[simp] theorem State.setThread_cur (t : Thread) : (s.setThread t).cur = s.cur := rfl
@[simp] theorem State.setThread_agenda (t : Thread) : (s.setThread t).agenda = s.agenda := rfl
@[simp] theorem State.setThread_freeCtr (t : Thread) : (s.setThread t).freeCtr = s.freeCtr := rfl
@[simp] theorem State.setThread_nextTid (t : Thread) : (s.setThread t).nextTid = s.nextTid := rfl
@[simp] theorem State.setThread_nextId (t : Thread) : (s.setThread t).nextId = s.nextId := rfl
@[simp] theorem State.setThread_lastNum (t : Thread) : (s.setThread t).lastNum = s.lastNum := rfl
@[simp] theorem State.setThread_jobs (t : Thread) : (s.setThread t).jobs = s.jobs := rfl
@[simp] theorem State.setThread_cores (t : Thread) : (s.setThread t).cores = s.cores := rfl
@[simp] theorem State.setThread_clusters (t : Thread) : (s.setThread t).clusters = s.clusters := rfl
@[simp] theorem State.setThread_fwcores (t : Thread) : (s.setThread t).fwcores = s.fwcores := rfl
@[simp] theorem State.setThread_hbm (t : Thread) : (s.setThread t).hbm = s.hbm := rfl
@[simp] theorem State.setThread_mem (t : Thread) : (s.setThread t).mem = s.mem := rfl
@[simp] theorem State.setThread_poison (t : Thread) : (s.setThread t).poison = s.poison := rfl
@[simp] theorem State.setThread_tlb (t : Thread) : (s.setThread t).tlb = s.tlb := rfl
@[simp] theorem State.setThread_icache (t : Thread) : (s.setThread t).icache = s.icache := rfl
@[simp] theorem State.setThread_icacheUE (t : Thread) : (s.setThread t).icacheUE = s.icacheUE := rfl
@[simp] theorem State.setThread_stores (t : Thread) : (s.setThread t).stores = s.stores := rfl
@[simp] theorem State.setThread_race (t : Thread) : (s.setThread t).race = s.race := rfl
@[simp] theorem State.setThread_spillTold (t : Thread) : (s.setThread t).spillTold = s.spillTold := rfl
@[simp] theorem State.setThread_cleared (t : Thread) : (s.setThread t).cleared = s.cleared := rfl
@[simp] theorem State.setThread_noteOps (t : Thread) : (s.setThread t).noteOps = s.noteOps := rfl
@[simp] theorem State.setThread_tails (t : Thread) : (s.setThread t).tails = s.tails := rfl
@[simp] theorem State.setThread_faults (t : Thread) : (s.setThread t).faults = s.faults := rfl
@[simp] theorem State.setThread_qwaits (t : Thread) : (s.setThread t).qwaits = s.qwaits := rfl
@[simp] theorem State.setThread_pipelines (t : Thread) : (s.setThread t).pipelines = s.pipelines := rfl
@[simp] theorem State.setThread_queries (t : Thread) : (s.setThread t).queries = s.queries := rfl
@[simp] theorem State.setThread_streams (t : Thread) : (s.setThread t).streams = s.streams := rfl
@[simp] theorem State.setThread_funcs (t : Thread) : (s.setThread t).funcs = s.funcs := rfl
@[simp] theorem State.setThread_hostMem (t : Thread) : (s.setThread t).hostMem = s.hostMem := rfl
@[simp] theorem State.setThread_chip (t : Thread) : (s.setThread t).chip = s.chip := rfl
@[simp] theorem State.setThread_udpPort (t : Thread) : (s.setThread t).udpPort = s.udpPort := rfl
@[simp] theorem State.setThread_peers (t : Thread) : (s.setThread t).peers = s.peers := rfl
@[simp] theorem State.setThread_grants (t : Thread) : (s.setThread t).grants = s.grants := rfl
@[simp] theorem State.setThread_portsDown (t : Thread) : (s.setThread t).portsDown = s.portsDown := rfl
@[simp] theorem State.setThread_putsIn (t : Thread) : (s.setThread t).putsIn = s.putsIn := rfl
@[simp] theorem State.setThread_powerLimit (t : Thread) : (s.setThread t).powerLimit = s.powerLimit := rfl
@[simp] theorem State.setThread_duty (t : Thread) : (s.setThread t).duty = s.duty := rfl
@[simp] theorem State.setThread_powerSteps (t : Thread) : (s.setThread t).powerSteps = s.powerSteps := rfl
@[simp] theorem State.setThread_stage (t : Thread) : (s.setThread t).stage = s.stage := rfl
@[simp] theorem State.setThread_booted (t : Thread) : (s.setThread t).booted = s.booted := rfl
@[simp] theorem State.setThread_image (t : Thread) : (s.setThread t).image = s.image := rfl
@[simp] theorem State.setThread_staged (t : Thread) : (s.setThread t).staged = s.staged := rfl
@[simp] theorem State.setThread_stagedLen (t : Thread) : (s.setThread t).stagedLen = s.stagedLen := rfl
@[simp] theorem State.setThread_quiesce (t : Thread) : (s.setThread t).quiesce = s.quiesce := rfl
@[simp] theorem State.setThread_mboxSeq (t : Thread) : (s.setThread t).mboxSeq = s.mboxSeq := rfl
@[simp] theorem State.setThread_mboxStatus (t : Thread) : (s.setThread t).mboxStatus = s.mboxStatus := rfl
@[simp] theorem State.setThread_mboxStage (t : Thread) : (s.setThread t).mboxStage = s.mboxStage := rfl
@[simp] theorem State.setThread_mboxBody (t : Thread) : (s.setThread t).mboxBody = s.mboxBody := rfl
@[simp] theorem State.setThread_mboxBuf (t : Thread) : (s.setThread t).mboxBuf = s.mboxBuf := rfl
@[simp] theorem State.setThread_bootFail (t : Thread) : (s.setThread t).bootFail = s.bootFail := rfl
@[simp] theorem State.setThread_stacksFailed (t : Thread) : (s.setThread t).stacksFailed = s.stacksFailed := rfl
@[simp] theorem State.setThread_migrations (t : Thread) : (s.setThread t).migrations = s.migrations := rfl
@[simp] theorem State.setThread_ceCores (t : Thread) : (s.setThread t).ceCores = s.ceCores := rfl
@[simp] theorem State.setThread_ceTiles (t : Thread) : (s.setThread t).ceTiles = s.ceTiles := rfl
@[simp] theorem State.setThread_keydig (t : Thread) : (s.setThread t).keydig = s.keydig := rfl
@[simp] theorem State.setThread_minsvn (t : Thread) : (s.setThread t).minsvn = s.minsvn := rfl
@[simp] theorem State.setThread_actsvn (t : Thread) : (s.setThread t).actsvn = s.actsvn := rfl
@[simp] theorem State.setThread_attaddr (t : Thread) : (s.setThread t).attaddr = s.attaddr := rfl
@[simp] theorem State.setThread_attbusy (t : Thread) : (s.setThread t).attbusy = s.attbusy := rfl
@[simp] theorem State.setThread_ceThresh (t : Thread) : (s.setThread t).ceThresh = s.ceThresh := rfl
@[simp] theorem State.setThread_critTemp (t : Thread) : (s.setThread t).critTemp = s.critTemp := rfl
@[simp] theorem State.setThread_exitTemp (t : Thread) : (s.setThread t).exitTemp = s.exitTemp := rfl

/-! `modThread` -/

@[simp] theorem State.modThread_cycle (i : Nat) (f : Thread → Thread) : (s.modThread i f).cycle = s.cycle := rfl
@[simp] theorem State.modThread_cur (i : Nat) (f : Thread → Thread) : (s.modThread i f).cur = s.cur := rfl
@[simp] theorem State.modThread_agenda (i : Nat) (f : Thread → Thread) : (s.modThread i f).agenda = s.agenda := rfl
@[simp] theorem State.modThread_freeCtr (i : Nat) (f : Thread → Thread) : (s.modThread i f).freeCtr = s.freeCtr := rfl
@[simp] theorem State.modThread_nextTid (i : Nat) (f : Thread → Thread) : (s.modThread i f).nextTid = s.nextTid := rfl
@[simp] theorem State.modThread_nextId (i : Nat) (f : Thread → Thread) : (s.modThread i f).nextId = s.nextId := rfl
@[simp] theorem State.modThread_lastNum (i : Nat) (f : Thread → Thread) : (s.modThread i f).lastNum = s.lastNum := rfl
@[simp] theorem State.modThread_jobs (i : Nat) (f : Thread → Thread) : (s.modThread i f).jobs = s.jobs := rfl
@[simp] theorem State.modThread_cores (i : Nat) (f : Thread → Thread) : (s.modThread i f).cores = s.cores := rfl
@[simp] theorem State.modThread_clusters (i : Nat) (f : Thread → Thread) : (s.modThread i f).clusters = s.clusters := rfl
@[simp] theorem State.modThread_fwcores (i : Nat) (f : Thread → Thread) : (s.modThread i f).fwcores = s.fwcores := rfl
@[simp] theorem State.modThread_hbm (i : Nat) (f : Thread → Thread) : (s.modThread i f).hbm = s.hbm := rfl
@[simp] theorem State.modThread_mem (i : Nat) (f : Thread → Thread) : (s.modThread i f).mem = s.mem := rfl
@[simp] theorem State.modThread_poison (i : Nat) (f : Thread → Thread) : (s.modThread i f).poison = s.poison := rfl
@[simp] theorem State.modThread_tlb (i : Nat) (f : Thread → Thread) : (s.modThread i f).tlb = s.tlb := rfl
@[simp] theorem State.modThread_icache (i : Nat) (f : Thread → Thread) : (s.modThread i f).icache = s.icache := rfl
@[simp] theorem State.modThread_icacheUE (i : Nat) (f : Thread → Thread) : (s.modThread i f).icacheUE = s.icacheUE := rfl
@[simp] theorem State.modThread_stores (i : Nat) (f : Thread → Thread) : (s.modThread i f).stores = s.stores := rfl
@[simp] theorem State.modThread_race (i : Nat) (f : Thread → Thread) : (s.modThread i f).race = s.race := rfl
@[simp] theorem State.modThread_spillTold (i : Nat) (f : Thread → Thread) : (s.modThread i f).spillTold = s.spillTold := rfl
@[simp] theorem State.modThread_cleared (i : Nat) (f : Thread → Thread) : (s.modThread i f).cleared = s.cleared := rfl
@[simp] theorem State.modThread_noteOps (i : Nat) (f : Thread → Thread) : (s.modThread i f).noteOps = s.noteOps := rfl
@[simp] theorem State.modThread_tails (i : Nat) (f : Thread → Thread) : (s.modThread i f).tails = s.tails := rfl
@[simp] theorem State.modThread_faults (i : Nat) (f : Thread → Thread) : (s.modThread i f).faults = s.faults := rfl
@[simp] theorem State.modThread_qwaits (i : Nat) (f : Thread → Thread) : (s.modThread i f).qwaits = s.qwaits := rfl
@[simp] theorem State.modThread_pipelines (i : Nat) (f : Thread → Thread) : (s.modThread i f).pipelines = s.pipelines := rfl
@[simp] theorem State.modThread_queries (i : Nat) (f : Thread → Thread) : (s.modThread i f).queries = s.queries := rfl
@[simp] theorem State.modThread_streams (i : Nat) (f : Thread → Thread) : (s.modThread i f).streams = s.streams := rfl
@[simp] theorem State.modThread_funcs (i : Nat) (f : Thread → Thread) : (s.modThread i f).funcs = s.funcs := rfl
@[simp] theorem State.modThread_hostMem (i : Nat) (f : Thread → Thread) : (s.modThread i f).hostMem = s.hostMem := rfl
@[simp] theorem State.modThread_chip (i : Nat) (f : Thread → Thread) : (s.modThread i f).chip = s.chip := rfl
@[simp] theorem State.modThread_udpPort (i : Nat) (f : Thread → Thread) : (s.modThread i f).udpPort = s.udpPort := rfl
@[simp] theorem State.modThread_peers (i : Nat) (f : Thread → Thread) : (s.modThread i f).peers = s.peers := rfl
@[simp] theorem State.modThread_grants (i : Nat) (f : Thread → Thread) : (s.modThread i f).grants = s.grants := rfl
@[simp] theorem State.modThread_portsDown (i : Nat) (f : Thread → Thread) : (s.modThread i f).portsDown = s.portsDown := rfl
@[simp] theorem State.modThread_putsIn (i : Nat) (f : Thread → Thread) : (s.modThread i f).putsIn = s.putsIn := rfl
@[simp] theorem State.modThread_powerLimit (i : Nat) (f : Thread → Thread) : (s.modThread i f).powerLimit = s.powerLimit := rfl
@[simp] theorem State.modThread_duty (i : Nat) (f : Thread → Thread) : (s.modThread i f).duty = s.duty := rfl
@[simp] theorem State.modThread_powerSteps (i : Nat) (f : Thread → Thread) : (s.modThread i f).powerSteps = s.powerSteps := rfl
@[simp] theorem State.modThread_stage (i : Nat) (f : Thread → Thread) : (s.modThread i f).stage = s.stage := rfl
@[simp] theorem State.modThread_booted (i : Nat) (f : Thread → Thread) : (s.modThread i f).booted = s.booted := rfl
@[simp] theorem State.modThread_image (i : Nat) (f : Thread → Thread) : (s.modThread i f).image = s.image := rfl
@[simp] theorem State.modThread_staged (i : Nat) (f : Thread → Thread) : (s.modThread i f).staged = s.staged := rfl
@[simp] theorem State.modThread_stagedLen (i : Nat) (f : Thread → Thread) : (s.modThread i f).stagedLen = s.stagedLen := rfl
@[simp] theorem State.modThread_quiesce (i : Nat) (f : Thread → Thread) : (s.modThread i f).quiesce = s.quiesce := rfl
@[simp] theorem State.modThread_mboxSeq (i : Nat) (f : Thread → Thread) : (s.modThread i f).mboxSeq = s.mboxSeq := rfl
@[simp] theorem State.modThread_mboxStatus (i : Nat) (f : Thread → Thread) : (s.modThread i f).mboxStatus = s.mboxStatus := rfl
@[simp] theorem State.modThread_mboxStage (i : Nat) (f : Thread → Thread) : (s.modThread i f).mboxStage = s.mboxStage := rfl
@[simp] theorem State.modThread_mboxBody (i : Nat) (f : Thread → Thread) : (s.modThread i f).mboxBody = s.mboxBody := rfl
@[simp] theorem State.modThread_mboxBuf (i : Nat) (f : Thread → Thread) : (s.modThread i f).mboxBuf = s.mboxBuf := rfl
@[simp] theorem State.modThread_bootFail (i : Nat) (f : Thread → Thread) : (s.modThread i f).bootFail = s.bootFail := rfl
@[simp] theorem State.modThread_stacksFailed (i : Nat) (f : Thread → Thread) : (s.modThread i f).stacksFailed = s.stacksFailed := rfl
@[simp] theorem State.modThread_migrations (i : Nat) (f : Thread → Thread) : (s.modThread i f).migrations = s.migrations := rfl
@[simp] theorem State.modThread_ceCores (i : Nat) (f : Thread → Thread) : (s.modThread i f).ceCores = s.ceCores := rfl
@[simp] theorem State.modThread_ceTiles (i : Nat) (f : Thread → Thread) : (s.modThread i f).ceTiles = s.ceTiles := rfl
@[simp] theorem State.modThread_keydig (i : Nat) (f : Thread → Thread) : (s.modThread i f).keydig = s.keydig := rfl
@[simp] theorem State.modThread_minsvn (i : Nat) (f : Thread → Thread) : (s.modThread i f).minsvn = s.minsvn := rfl
@[simp] theorem State.modThread_actsvn (i : Nat) (f : Thread → Thread) : (s.modThread i f).actsvn = s.actsvn := rfl
@[simp] theorem State.modThread_attaddr (i : Nat) (f : Thread → Thread) : (s.modThread i f).attaddr = s.attaddr := rfl
@[simp] theorem State.modThread_attbusy (i : Nat) (f : Thread → Thread) : (s.modThread i f).attbusy = s.attbusy := rfl
@[simp] theorem State.modThread_ceThresh (i : Nat) (f : Thread → Thread) : (s.modThread i f).ceThresh = s.ceThresh := rfl
@[simp] theorem State.modThread_critTemp (i : Nat) (f : Thread → Thread) : (s.modThread i f).critTemp = s.critTemp := rfl
@[simp] theorem State.modThread_exitTemp (i : Nat) (f : Thread → Thread) : (s.modThread i f).exitTemp = s.exitTemp := rfl

/-! `dropThread` -/

@[simp] theorem State.dropThread_cycle (i : Nat) : (s.dropThread i).cycle = s.cycle := rfl
@[simp] theorem State.dropThread_cur (i : Nat) : (s.dropThread i).cur = s.cur := rfl
@[simp] theorem State.dropThread_agenda (i : Nat) : (s.dropThread i).agenda = s.agenda := rfl
@[simp] theorem State.dropThread_freeCtr (i : Nat) : (s.dropThread i).freeCtr = s.freeCtr := rfl
@[simp] theorem State.dropThread_nextTid (i : Nat) : (s.dropThread i).nextTid = s.nextTid := rfl
@[simp] theorem State.dropThread_nextId (i : Nat) : (s.dropThread i).nextId = s.nextId := rfl
@[simp] theorem State.dropThread_lastNum (i : Nat) : (s.dropThread i).lastNum = s.lastNum := rfl
@[simp] theorem State.dropThread_jobs (i : Nat) : (s.dropThread i).jobs = s.jobs := rfl
@[simp] theorem State.dropThread_cores (i : Nat) : (s.dropThread i).cores = s.cores := rfl
@[simp] theorem State.dropThread_clusters (i : Nat) : (s.dropThread i).clusters = s.clusters := rfl
@[simp] theorem State.dropThread_fwcores (i : Nat) : (s.dropThread i).fwcores = s.fwcores := rfl
@[simp] theorem State.dropThread_hbm (i : Nat) : (s.dropThread i).hbm = s.hbm := rfl
@[simp] theorem State.dropThread_mem (i : Nat) : (s.dropThread i).mem = s.mem := rfl
@[simp] theorem State.dropThread_poison (i : Nat) : (s.dropThread i).poison = s.poison := rfl
@[simp] theorem State.dropThread_tlb (i : Nat) : (s.dropThread i).tlb = s.tlb := rfl
@[simp] theorem State.dropThread_icache (i : Nat) : (s.dropThread i).icache = s.icache := rfl
@[simp] theorem State.dropThread_icacheUE (i : Nat) : (s.dropThread i).icacheUE = s.icacheUE := rfl
@[simp] theorem State.dropThread_stores (i : Nat) : (s.dropThread i).stores = s.stores := rfl
@[simp] theorem State.dropThread_race (i : Nat) : (s.dropThread i).race = s.race := rfl
@[simp] theorem State.dropThread_spillTold (i : Nat) : (s.dropThread i).spillTold = s.spillTold := rfl
@[simp] theorem State.dropThread_cleared (i : Nat) : (s.dropThread i).cleared = s.cleared := rfl
@[simp] theorem State.dropThread_noteOps (i : Nat) : (s.dropThread i).noteOps = s.noteOps := rfl
@[simp] theorem State.dropThread_tails (i : Nat) : (s.dropThread i).tails = s.tails := rfl
@[simp] theorem State.dropThread_faults (i : Nat) : (s.dropThread i).faults = s.faults := rfl
@[simp] theorem State.dropThread_qwaits (i : Nat) : (s.dropThread i).qwaits = s.qwaits := rfl
@[simp] theorem State.dropThread_pipelines (i : Nat) : (s.dropThread i).pipelines = s.pipelines := rfl
@[simp] theorem State.dropThread_queries (i : Nat) : (s.dropThread i).queries = s.queries := rfl
@[simp] theorem State.dropThread_streams (i : Nat) : (s.dropThread i).streams = s.streams := rfl
@[simp] theorem State.dropThread_funcs (i : Nat) : (s.dropThread i).funcs = s.funcs := rfl
@[simp] theorem State.dropThread_hostMem (i : Nat) : (s.dropThread i).hostMem = s.hostMem := rfl
@[simp] theorem State.dropThread_chip (i : Nat) : (s.dropThread i).chip = s.chip := rfl
@[simp] theorem State.dropThread_udpPort (i : Nat) : (s.dropThread i).udpPort = s.udpPort := rfl
@[simp] theorem State.dropThread_peers (i : Nat) : (s.dropThread i).peers = s.peers := rfl
@[simp] theorem State.dropThread_grants (i : Nat) : (s.dropThread i).grants = s.grants := rfl
@[simp] theorem State.dropThread_portsDown (i : Nat) : (s.dropThread i).portsDown = s.portsDown := rfl
@[simp] theorem State.dropThread_putsIn (i : Nat) : (s.dropThread i).putsIn = s.putsIn := rfl
@[simp] theorem State.dropThread_powerLimit (i : Nat) : (s.dropThread i).powerLimit = s.powerLimit := rfl
@[simp] theorem State.dropThread_duty (i : Nat) : (s.dropThread i).duty = s.duty := rfl
@[simp] theorem State.dropThread_powerSteps (i : Nat) : (s.dropThread i).powerSteps = s.powerSteps := rfl
@[simp] theorem State.dropThread_stage (i : Nat) : (s.dropThread i).stage = s.stage := rfl
@[simp] theorem State.dropThread_booted (i : Nat) : (s.dropThread i).booted = s.booted := rfl
@[simp] theorem State.dropThread_image (i : Nat) : (s.dropThread i).image = s.image := rfl
@[simp] theorem State.dropThread_staged (i : Nat) : (s.dropThread i).staged = s.staged := rfl
@[simp] theorem State.dropThread_stagedLen (i : Nat) : (s.dropThread i).stagedLen = s.stagedLen := rfl
@[simp] theorem State.dropThread_quiesce (i : Nat) : (s.dropThread i).quiesce = s.quiesce := rfl
@[simp] theorem State.dropThread_mboxSeq (i : Nat) : (s.dropThread i).mboxSeq = s.mboxSeq := rfl
@[simp] theorem State.dropThread_mboxStatus (i : Nat) : (s.dropThread i).mboxStatus = s.mboxStatus := rfl
@[simp] theorem State.dropThread_mboxStage (i : Nat) : (s.dropThread i).mboxStage = s.mboxStage := rfl
@[simp] theorem State.dropThread_mboxBody (i : Nat) : (s.dropThread i).mboxBody = s.mboxBody := rfl
@[simp] theorem State.dropThread_mboxBuf (i : Nat) : (s.dropThread i).mboxBuf = s.mboxBuf := rfl
@[simp] theorem State.dropThread_bootFail (i : Nat) : (s.dropThread i).bootFail = s.bootFail := rfl
@[simp] theorem State.dropThread_stacksFailed (i : Nat) : (s.dropThread i).stacksFailed = s.stacksFailed := rfl
@[simp] theorem State.dropThread_migrations (i : Nat) : (s.dropThread i).migrations = s.migrations := rfl
@[simp] theorem State.dropThread_ceCores (i : Nat) : (s.dropThread i).ceCores = s.ceCores := rfl
@[simp] theorem State.dropThread_ceTiles (i : Nat) : (s.dropThread i).ceTiles = s.ceTiles := rfl
@[simp] theorem State.dropThread_keydig (i : Nat) : (s.dropThread i).keydig = s.keydig := rfl
@[simp] theorem State.dropThread_minsvn (i : Nat) : (s.dropThread i).minsvn = s.minsvn := rfl
@[simp] theorem State.dropThread_actsvn (i : Nat) : (s.dropThread i).actsvn = s.actsvn := rfl
@[simp] theorem State.dropThread_attaddr (i : Nat) : (s.dropThread i).attaddr = s.attaddr := rfl
@[simp] theorem State.dropThread_attbusy (i : Nat) : (s.dropThread i).attbusy = s.attbusy := rfl
@[simp] theorem State.dropThread_ceThresh (i : Nat) : (s.dropThread i).ceThresh = s.ceThresh := rfl
@[simp] theorem State.dropThread_critTemp (i : Nat) : (s.dropThread i).critTemp = s.critTemp := rfl
@[simp] theorem State.dropThread_exitTemp (i : Nat) : (s.dropThread i).exitTemp = s.exitTemp := rfl

/-! `modJob` -/

@[simp] theorem State.modJob_cycle (i : Nat) (f : Job → Job) : (s.modJob i f).cycle = s.cycle := rfl
@[simp] theorem State.modJob_cur (i : Nat) (f : Job → Job) : (s.modJob i f).cur = s.cur := rfl
@[simp] theorem State.modJob_agenda (i : Nat) (f : Job → Job) : (s.modJob i f).agenda = s.agenda := rfl
@[simp] theorem State.modJob_freeCtr (i : Nat) (f : Job → Job) : (s.modJob i f).freeCtr = s.freeCtr := rfl
@[simp] theorem State.modJob_nextTid (i : Nat) (f : Job → Job) : (s.modJob i f).nextTid = s.nextTid := rfl
@[simp] theorem State.modJob_nextId (i : Nat) (f : Job → Job) : (s.modJob i f).nextId = s.nextId := rfl
@[simp] theorem State.modJob_lastNum (i : Nat) (f : Job → Job) : (s.modJob i f).lastNum = s.lastNum := rfl
@[simp] theorem State.modJob_threads (i : Nat) (f : Job → Job) : (s.modJob i f).threads = s.threads := rfl
@[simp] theorem State.modJob_cores (i : Nat) (f : Job → Job) : (s.modJob i f).cores = s.cores := rfl
@[simp] theorem State.modJob_clusters (i : Nat) (f : Job → Job) : (s.modJob i f).clusters = s.clusters := rfl
@[simp] theorem State.modJob_fwcores (i : Nat) (f : Job → Job) : (s.modJob i f).fwcores = s.fwcores := rfl
@[simp] theorem State.modJob_hbm (i : Nat) (f : Job → Job) : (s.modJob i f).hbm = s.hbm := rfl
@[simp] theorem State.modJob_mem (i : Nat) (f : Job → Job) : (s.modJob i f).mem = s.mem := rfl
@[simp] theorem State.modJob_poison (i : Nat) (f : Job → Job) : (s.modJob i f).poison = s.poison := rfl
@[simp] theorem State.modJob_tlb (i : Nat) (f : Job → Job) : (s.modJob i f).tlb = s.tlb := rfl
@[simp] theorem State.modJob_icache (i : Nat) (f : Job → Job) : (s.modJob i f).icache = s.icache := rfl
@[simp] theorem State.modJob_icacheUE (i : Nat) (f : Job → Job) : (s.modJob i f).icacheUE = s.icacheUE := rfl
@[simp] theorem State.modJob_stores (i : Nat) (f : Job → Job) : (s.modJob i f).stores = s.stores := rfl
@[simp] theorem State.modJob_race (i : Nat) (f : Job → Job) : (s.modJob i f).race = s.race := rfl
@[simp] theorem State.modJob_spillTold (i : Nat) (f : Job → Job) : (s.modJob i f).spillTold = s.spillTold := rfl
@[simp] theorem State.modJob_cleared (i : Nat) (f : Job → Job) : (s.modJob i f).cleared = s.cleared := rfl
@[simp] theorem State.modJob_noteOps (i : Nat) (f : Job → Job) : (s.modJob i f).noteOps = s.noteOps := rfl
@[simp] theorem State.modJob_tails (i : Nat) (f : Job → Job) : (s.modJob i f).tails = s.tails := rfl
@[simp] theorem State.modJob_faults (i : Nat) (f : Job → Job) : (s.modJob i f).faults = s.faults := rfl
@[simp] theorem State.modJob_qwaits (i : Nat) (f : Job → Job) : (s.modJob i f).qwaits = s.qwaits := rfl
@[simp] theorem State.modJob_pipelines (i : Nat) (f : Job → Job) : (s.modJob i f).pipelines = s.pipelines := rfl
@[simp] theorem State.modJob_queries (i : Nat) (f : Job → Job) : (s.modJob i f).queries = s.queries := rfl
@[simp] theorem State.modJob_streams (i : Nat) (f : Job → Job) : (s.modJob i f).streams = s.streams := rfl
@[simp] theorem State.modJob_funcs (i : Nat) (f : Job → Job) : (s.modJob i f).funcs = s.funcs := rfl
@[simp] theorem State.modJob_hostMem (i : Nat) (f : Job → Job) : (s.modJob i f).hostMem = s.hostMem := rfl
@[simp] theorem State.modJob_chip (i : Nat) (f : Job → Job) : (s.modJob i f).chip = s.chip := rfl
@[simp] theorem State.modJob_udpPort (i : Nat) (f : Job → Job) : (s.modJob i f).udpPort = s.udpPort := rfl
@[simp] theorem State.modJob_peers (i : Nat) (f : Job → Job) : (s.modJob i f).peers = s.peers := rfl
@[simp] theorem State.modJob_grants (i : Nat) (f : Job → Job) : (s.modJob i f).grants = s.grants := rfl
@[simp] theorem State.modJob_portsDown (i : Nat) (f : Job → Job) : (s.modJob i f).portsDown = s.portsDown := rfl
@[simp] theorem State.modJob_putsIn (i : Nat) (f : Job → Job) : (s.modJob i f).putsIn = s.putsIn := rfl
@[simp] theorem State.modJob_powerLimit (i : Nat) (f : Job → Job) : (s.modJob i f).powerLimit = s.powerLimit := rfl
@[simp] theorem State.modJob_duty (i : Nat) (f : Job → Job) : (s.modJob i f).duty = s.duty := rfl
@[simp] theorem State.modJob_powerSteps (i : Nat) (f : Job → Job) : (s.modJob i f).powerSteps = s.powerSteps := rfl
@[simp] theorem State.modJob_stage (i : Nat) (f : Job → Job) : (s.modJob i f).stage = s.stage := rfl
@[simp] theorem State.modJob_booted (i : Nat) (f : Job → Job) : (s.modJob i f).booted = s.booted := rfl
@[simp] theorem State.modJob_image (i : Nat) (f : Job → Job) : (s.modJob i f).image = s.image := rfl
@[simp] theorem State.modJob_staged (i : Nat) (f : Job → Job) : (s.modJob i f).staged = s.staged := rfl
@[simp] theorem State.modJob_stagedLen (i : Nat) (f : Job → Job) : (s.modJob i f).stagedLen = s.stagedLen := rfl
@[simp] theorem State.modJob_quiesce (i : Nat) (f : Job → Job) : (s.modJob i f).quiesce = s.quiesce := rfl
@[simp] theorem State.modJob_mboxSeq (i : Nat) (f : Job → Job) : (s.modJob i f).mboxSeq = s.mboxSeq := rfl
@[simp] theorem State.modJob_mboxStatus (i : Nat) (f : Job → Job) : (s.modJob i f).mboxStatus = s.mboxStatus := rfl
@[simp] theorem State.modJob_mboxStage (i : Nat) (f : Job → Job) : (s.modJob i f).mboxStage = s.mboxStage := rfl
@[simp] theorem State.modJob_mboxBody (i : Nat) (f : Job → Job) : (s.modJob i f).mboxBody = s.mboxBody := rfl
@[simp] theorem State.modJob_mboxBuf (i : Nat) (f : Job → Job) : (s.modJob i f).mboxBuf = s.mboxBuf := rfl
@[simp] theorem State.modJob_bootFail (i : Nat) (f : Job → Job) : (s.modJob i f).bootFail = s.bootFail := rfl
@[simp] theorem State.modJob_stacksFailed (i : Nat) (f : Job → Job) : (s.modJob i f).stacksFailed = s.stacksFailed := rfl
@[simp] theorem State.modJob_migrations (i : Nat) (f : Job → Job) : (s.modJob i f).migrations = s.migrations := rfl
@[simp] theorem State.modJob_ceCores (i : Nat) (f : Job → Job) : (s.modJob i f).ceCores = s.ceCores := rfl
@[simp] theorem State.modJob_ceTiles (i : Nat) (f : Job → Job) : (s.modJob i f).ceTiles = s.ceTiles := rfl
@[simp] theorem State.modJob_keydig (i : Nat) (f : Job → Job) : (s.modJob i f).keydig = s.keydig := rfl
@[simp] theorem State.modJob_minsvn (i : Nat) (f : Job → Job) : (s.modJob i f).minsvn = s.minsvn := rfl
@[simp] theorem State.modJob_actsvn (i : Nat) (f : Job → Job) : (s.modJob i f).actsvn = s.actsvn := rfl
@[simp] theorem State.modJob_attaddr (i : Nat) (f : Job → Job) : (s.modJob i f).attaddr = s.attaddr := rfl
@[simp] theorem State.modJob_attbusy (i : Nat) (f : Job → Job) : (s.modJob i f).attbusy = s.attbusy := rfl
@[simp] theorem State.modJob_ceThresh (i : Nat) (f : Job → Job) : (s.modJob i f).ceThresh = s.ceThresh := rfl
@[simp] theorem State.modJob_critTemp (i : Nat) (f : Job → Job) : (s.modJob i f).critTemp = s.critTemp := rfl
@[simp] theorem State.modJob_exitTemp (i : Nat) (f : Job → Job) : (s.modJob i f).exitTemp = s.exitTemp := rfl

/-! `setCore` -/

@[simp] theorem State.setCore_cycle (c : Core) : (s.setCore c).cycle = s.cycle := rfl
@[simp] theorem State.setCore_cur (c : Core) : (s.setCore c).cur = s.cur := rfl
@[simp] theorem State.setCore_agenda (c : Core) : (s.setCore c).agenda = s.agenda := rfl
@[simp] theorem State.setCore_freeCtr (c : Core) : (s.setCore c).freeCtr = s.freeCtr := rfl
@[simp] theorem State.setCore_nextTid (c : Core) : (s.setCore c).nextTid = s.nextTid := rfl
@[simp] theorem State.setCore_nextId (c : Core) : (s.setCore c).nextId = s.nextId := rfl
@[simp] theorem State.setCore_lastNum (c : Core) : (s.setCore c).lastNum = s.lastNum := rfl
@[simp] theorem State.setCore_threads (c : Core) : (s.setCore c).threads = s.threads := rfl
@[simp] theorem State.setCore_jobs (c : Core) : (s.setCore c).jobs = s.jobs := rfl
@[simp] theorem State.setCore_clusters (c : Core) : (s.setCore c).clusters = s.clusters := rfl
@[simp] theorem State.setCore_fwcores (c : Core) : (s.setCore c).fwcores = s.fwcores := rfl
@[simp] theorem State.setCore_hbm (c : Core) : (s.setCore c).hbm = s.hbm := rfl
@[simp] theorem State.setCore_mem (c : Core) : (s.setCore c).mem = s.mem := rfl
@[simp] theorem State.setCore_poison (c : Core) : (s.setCore c).poison = s.poison := rfl
@[simp] theorem State.setCore_tlb (c : Core) : (s.setCore c).tlb = s.tlb := rfl
@[simp] theorem State.setCore_icache (c : Core) : (s.setCore c).icache = s.icache := rfl
@[simp] theorem State.setCore_icacheUE (c : Core) : (s.setCore c).icacheUE = s.icacheUE := rfl
@[simp] theorem State.setCore_stores (c : Core) : (s.setCore c).stores = s.stores := rfl
@[simp] theorem State.setCore_race (c : Core) : (s.setCore c).race = s.race := rfl
@[simp] theorem State.setCore_spillTold (c : Core) : (s.setCore c).spillTold = s.spillTold := rfl
@[simp] theorem State.setCore_cleared (c : Core) : (s.setCore c).cleared = s.cleared := rfl
@[simp] theorem State.setCore_noteOps (c : Core) : (s.setCore c).noteOps = s.noteOps := rfl
@[simp] theorem State.setCore_tails (c : Core) : (s.setCore c).tails = s.tails := rfl
@[simp] theorem State.setCore_faults (c : Core) : (s.setCore c).faults = s.faults := rfl
@[simp] theorem State.setCore_qwaits (c : Core) : (s.setCore c).qwaits = s.qwaits := rfl
@[simp] theorem State.setCore_pipelines (c : Core) : (s.setCore c).pipelines = s.pipelines := rfl
@[simp] theorem State.setCore_queries (c : Core) : (s.setCore c).queries = s.queries := rfl
@[simp] theorem State.setCore_streams (c : Core) : (s.setCore c).streams = s.streams := rfl
@[simp] theorem State.setCore_funcs (c : Core) : (s.setCore c).funcs = s.funcs := rfl
@[simp] theorem State.setCore_hostMem (c : Core) : (s.setCore c).hostMem = s.hostMem := rfl
@[simp] theorem State.setCore_chip (c : Core) : (s.setCore c).chip = s.chip := rfl
@[simp] theorem State.setCore_udpPort (c : Core) : (s.setCore c).udpPort = s.udpPort := rfl
@[simp] theorem State.setCore_peers (c : Core) : (s.setCore c).peers = s.peers := rfl
@[simp] theorem State.setCore_grants (c : Core) : (s.setCore c).grants = s.grants := rfl
@[simp] theorem State.setCore_portsDown (c : Core) : (s.setCore c).portsDown = s.portsDown := rfl
@[simp] theorem State.setCore_putsIn (c : Core) : (s.setCore c).putsIn = s.putsIn := rfl
@[simp] theorem State.setCore_powerLimit (c : Core) : (s.setCore c).powerLimit = s.powerLimit := rfl
@[simp] theorem State.setCore_duty (c : Core) : (s.setCore c).duty = s.duty := rfl
@[simp] theorem State.setCore_powerSteps (c : Core) : (s.setCore c).powerSteps = s.powerSteps := rfl
@[simp] theorem State.setCore_stage (c : Core) : (s.setCore c).stage = s.stage := rfl
@[simp] theorem State.setCore_booted (c : Core) : (s.setCore c).booted = s.booted := rfl
@[simp] theorem State.setCore_image (c : Core) : (s.setCore c).image = s.image := rfl
@[simp] theorem State.setCore_staged (c : Core) : (s.setCore c).staged = s.staged := rfl
@[simp] theorem State.setCore_stagedLen (c : Core) : (s.setCore c).stagedLen = s.stagedLen := rfl
@[simp] theorem State.setCore_quiesce (c : Core) : (s.setCore c).quiesce = s.quiesce := rfl
@[simp] theorem State.setCore_mboxSeq (c : Core) : (s.setCore c).mboxSeq = s.mboxSeq := rfl
@[simp] theorem State.setCore_mboxStatus (c : Core) : (s.setCore c).mboxStatus = s.mboxStatus := rfl
@[simp] theorem State.setCore_mboxStage (c : Core) : (s.setCore c).mboxStage = s.mboxStage := rfl
@[simp] theorem State.setCore_mboxBody (c : Core) : (s.setCore c).mboxBody = s.mboxBody := rfl
@[simp] theorem State.setCore_mboxBuf (c : Core) : (s.setCore c).mboxBuf = s.mboxBuf := rfl
@[simp] theorem State.setCore_bootFail (c : Core) : (s.setCore c).bootFail = s.bootFail := rfl
@[simp] theorem State.setCore_stacksFailed (c : Core) : (s.setCore c).stacksFailed = s.stacksFailed := rfl
@[simp] theorem State.setCore_migrations (c : Core) : (s.setCore c).migrations = s.migrations := rfl
@[simp] theorem State.setCore_ceCores (c : Core) : (s.setCore c).ceCores = s.ceCores := rfl
@[simp] theorem State.setCore_ceTiles (c : Core) : (s.setCore c).ceTiles = s.ceTiles := rfl
@[simp] theorem State.setCore_keydig (c : Core) : (s.setCore c).keydig = s.keydig := rfl
@[simp] theorem State.setCore_minsvn (c : Core) : (s.setCore c).minsvn = s.minsvn := rfl
@[simp] theorem State.setCore_actsvn (c : Core) : (s.setCore c).actsvn = s.actsvn := rfl
@[simp] theorem State.setCore_attaddr (c : Core) : (s.setCore c).attaddr = s.attaddr := rfl
@[simp] theorem State.setCore_attbusy (c : Core) : (s.setCore c).attbusy = s.attbusy := rfl
@[simp] theorem State.setCore_ceThresh (c : Core) : (s.setCore c).ceThresh = s.ceThresh := rfl
@[simp] theorem State.setCore_critTemp (c : Core) : (s.setCore c).critTemp = s.critTemp := rfl
@[simp] theorem State.setCore_exitTemp (c : Core) : (s.setCore c).exitTemp = s.exitTemp := rfl

/-! `modCore` -/

@[simp] theorem State.modCore_cycle (i : Nat) (f : Core → Core) : (s.modCore i f).cycle = s.cycle := rfl
@[simp] theorem State.modCore_cur (i : Nat) (f : Core → Core) : (s.modCore i f).cur = s.cur := rfl
@[simp] theorem State.modCore_agenda (i : Nat) (f : Core → Core) : (s.modCore i f).agenda = s.agenda := rfl
@[simp] theorem State.modCore_freeCtr (i : Nat) (f : Core → Core) : (s.modCore i f).freeCtr = s.freeCtr := rfl
@[simp] theorem State.modCore_nextTid (i : Nat) (f : Core → Core) : (s.modCore i f).nextTid = s.nextTid := rfl
@[simp] theorem State.modCore_nextId (i : Nat) (f : Core → Core) : (s.modCore i f).nextId = s.nextId := rfl
@[simp] theorem State.modCore_lastNum (i : Nat) (f : Core → Core) : (s.modCore i f).lastNum = s.lastNum := rfl
@[simp] theorem State.modCore_threads (i : Nat) (f : Core → Core) : (s.modCore i f).threads = s.threads := rfl
@[simp] theorem State.modCore_jobs (i : Nat) (f : Core → Core) : (s.modCore i f).jobs = s.jobs := rfl
@[simp] theorem State.modCore_clusters (i : Nat) (f : Core → Core) : (s.modCore i f).clusters = s.clusters := rfl
@[simp] theorem State.modCore_fwcores (i : Nat) (f : Core → Core) : (s.modCore i f).fwcores = s.fwcores := rfl
@[simp] theorem State.modCore_hbm (i : Nat) (f : Core → Core) : (s.modCore i f).hbm = s.hbm := rfl
@[simp] theorem State.modCore_mem (i : Nat) (f : Core → Core) : (s.modCore i f).mem = s.mem := rfl
@[simp] theorem State.modCore_poison (i : Nat) (f : Core → Core) : (s.modCore i f).poison = s.poison := rfl
@[simp] theorem State.modCore_tlb (i : Nat) (f : Core → Core) : (s.modCore i f).tlb = s.tlb := rfl
@[simp] theorem State.modCore_icache (i : Nat) (f : Core → Core) : (s.modCore i f).icache = s.icache := rfl
@[simp] theorem State.modCore_icacheUE (i : Nat) (f : Core → Core) : (s.modCore i f).icacheUE = s.icacheUE := rfl
@[simp] theorem State.modCore_stores (i : Nat) (f : Core → Core) : (s.modCore i f).stores = s.stores := rfl
@[simp] theorem State.modCore_race (i : Nat) (f : Core → Core) : (s.modCore i f).race = s.race := rfl
@[simp] theorem State.modCore_spillTold (i : Nat) (f : Core → Core) : (s.modCore i f).spillTold = s.spillTold := rfl
@[simp] theorem State.modCore_cleared (i : Nat) (f : Core → Core) : (s.modCore i f).cleared = s.cleared := rfl
@[simp] theorem State.modCore_noteOps (i : Nat) (f : Core → Core) : (s.modCore i f).noteOps = s.noteOps := rfl
@[simp] theorem State.modCore_tails (i : Nat) (f : Core → Core) : (s.modCore i f).tails = s.tails := rfl
@[simp] theorem State.modCore_faults (i : Nat) (f : Core → Core) : (s.modCore i f).faults = s.faults := rfl
@[simp] theorem State.modCore_qwaits (i : Nat) (f : Core → Core) : (s.modCore i f).qwaits = s.qwaits := rfl
@[simp] theorem State.modCore_pipelines (i : Nat) (f : Core → Core) : (s.modCore i f).pipelines = s.pipelines := rfl
@[simp] theorem State.modCore_queries (i : Nat) (f : Core → Core) : (s.modCore i f).queries = s.queries := rfl
@[simp] theorem State.modCore_streams (i : Nat) (f : Core → Core) : (s.modCore i f).streams = s.streams := rfl
@[simp] theorem State.modCore_funcs (i : Nat) (f : Core → Core) : (s.modCore i f).funcs = s.funcs := rfl
@[simp] theorem State.modCore_hostMem (i : Nat) (f : Core → Core) : (s.modCore i f).hostMem = s.hostMem := rfl
@[simp] theorem State.modCore_chip (i : Nat) (f : Core → Core) : (s.modCore i f).chip = s.chip := rfl
@[simp] theorem State.modCore_udpPort (i : Nat) (f : Core → Core) : (s.modCore i f).udpPort = s.udpPort := rfl
@[simp] theorem State.modCore_peers (i : Nat) (f : Core → Core) : (s.modCore i f).peers = s.peers := rfl
@[simp] theorem State.modCore_grants (i : Nat) (f : Core → Core) : (s.modCore i f).grants = s.grants := rfl
@[simp] theorem State.modCore_portsDown (i : Nat) (f : Core → Core) : (s.modCore i f).portsDown = s.portsDown := rfl
@[simp] theorem State.modCore_putsIn (i : Nat) (f : Core → Core) : (s.modCore i f).putsIn = s.putsIn := rfl
@[simp] theorem State.modCore_powerLimit (i : Nat) (f : Core → Core) : (s.modCore i f).powerLimit = s.powerLimit := rfl
@[simp] theorem State.modCore_duty (i : Nat) (f : Core → Core) : (s.modCore i f).duty = s.duty := rfl
@[simp] theorem State.modCore_powerSteps (i : Nat) (f : Core → Core) : (s.modCore i f).powerSteps = s.powerSteps := rfl
@[simp] theorem State.modCore_stage (i : Nat) (f : Core → Core) : (s.modCore i f).stage = s.stage := rfl
@[simp] theorem State.modCore_booted (i : Nat) (f : Core → Core) : (s.modCore i f).booted = s.booted := rfl
@[simp] theorem State.modCore_image (i : Nat) (f : Core → Core) : (s.modCore i f).image = s.image := rfl
@[simp] theorem State.modCore_staged (i : Nat) (f : Core → Core) : (s.modCore i f).staged = s.staged := rfl
@[simp] theorem State.modCore_stagedLen (i : Nat) (f : Core → Core) : (s.modCore i f).stagedLen = s.stagedLen := rfl
@[simp] theorem State.modCore_quiesce (i : Nat) (f : Core → Core) : (s.modCore i f).quiesce = s.quiesce := rfl
@[simp] theorem State.modCore_mboxSeq (i : Nat) (f : Core → Core) : (s.modCore i f).mboxSeq = s.mboxSeq := rfl
@[simp] theorem State.modCore_mboxStatus (i : Nat) (f : Core → Core) : (s.modCore i f).mboxStatus = s.mboxStatus := rfl
@[simp] theorem State.modCore_mboxStage (i : Nat) (f : Core → Core) : (s.modCore i f).mboxStage = s.mboxStage := rfl
@[simp] theorem State.modCore_mboxBody (i : Nat) (f : Core → Core) : (s.modCore i f).mboxBody = s.mboxBody := rfl
@[simp] theorem State.modCore_mboxBuf (i : Nat) (f : Core → Core) : (s.modCore i f).mboxBuf = s.mboxBuf := rfl
@[simp] theorem State.modCore_bootFail (i : Nat) (f : Core → Core) : (s.modCore i f).bootFail = s.bootFail := rfl
@[simp] theorem State.modCore_stacksFailed (i : Nat) (f : Core → Core) : (s.modCore i f).stacksFailed = s.stacksFailed := rfl
@[simp] theorem State.modCore_migrations (i : Nat) (f : Core → Core) : (s.modCore i f).migrations = s.migrations := rfl
@[simp] theorem State.modCore_ceCores (i : Nat) (f : Core → Core) : (s.modCore i f).ceCores = s.ceCores := rfl
@[simp] theorem State.modCore_ceTiles (i : Nat) (f : Core → Core) : (s.modCore i f).ceTiles = s.ceTiles := rfl
@[simp] theorem State.modCore_keydig (i : Nat) (f : Core → Core) : (s.modCore i f).keydig = s.keydig := rfl
@[simp] theorem State.modCore_minsvn (i : Nat) (f : Core → Core) : (s.modCore i f).minsvn = s.minsvn := rfl
@[simp] theorem State.modCore_actsvn (i : Nat) (f : Core → Core) : (s.modCore i f).actsvn = s.actsvn := rfl
@[simp] theorem State.modCore_attaddr (i : Nat) (f : Core → Core) : (s.modCore i f).attaddr = s.attaddr := rfl
@[simp] theorem State.modCore_attbusy (i : Nat) (f : Core → Core) : (s.modCore i f).attbusy = s.attbusy := rfl
@[simp] theorem State.modCore_ceThresh (i : Nat) (f : Core → Core) : (s.modCore i f).ceThresh = s.ceThresh := rfl
@[simp] theorem State.modCore_critTemp (i : Nat) (f : Core → Core) : (s.modCore i f).critTemp = s.critTemp := rfl
@[simp] theorem State.modCore_exitTemp (i : Nat) (f : Core → Core) : (s.modCore i f).exitTemp = s.exitTemp := rfl

/-! `setCluster` -/

@[simp] theorem State.setCluster_cycle (c : Cluster) : (s.setCluster c).cycle = s.cycle := rfl
@[simp] theorem State.setCluster_cur (c : Cluster) : (s.setCluster c).cur = s.cur := rfl
@[simp] theorem State.setCluster_agenda (c : Cluster) : (s.setCluster c).agenda = s.agenda := rfl
@[simp] theorem State.setCluster_freeCtr (c : Cluster) : (s.setCluster c).freeCtr = s.freeCtr := rfl
@[simp] theorem State.setCluster_nextTid (c : Cluster) : (s.setCluster c).nextTid = s.nextTid := rfl
@[simp] theorem State.setCluster_nextId (c : Cluster) : (s.setCluster c).nextId = s.nextId := rfl
@[simp] theorem State.setCluster_lastNum (c : Cluster) : (s.setCluster c).lastNum = s.lastNum := rfl
@[simp] theorem State.setCluster_threads (c : Cluster) : (s.setCluster c).threads = s.threads := rfl
@[simp] theorem State.setCluster_jobs (c : Cluster) : (s.setCluster c).jobs = s.jobs := rfl
@[simp] theorem State.setCluster_cores (c : Cluster) : (s.setCluster c).cores = s.cores := rfl
@[simp] theorem State.setCluster_fwcores (c : Cluster) : (s.setCluster c).fwcores = s.fwcores := rfl
@[simp] theorem State.setCluster_hbm (c : Cluster) : (s.setCluster c).hbm = s.hbm := rfl
@[simp] theorem State.setCluster_mem (c : Cluster) : (s.setCluster c).mem = s.mem := rfl
@[simp] theorem State.setCluster_poison (c : Cluster) : (s.setCluster c).poison = s.poison := rfl
@[simp] theorem State.setCluster_tlb (c : Cluster) : (s.setCluster c).tlb = s.tlb := rfl
@[simp] theorem State.setCluster_icache (c : Cluster) : (s.setCluster c).icache = s.icache := rfl
@[simp] theorem State.setCluster_icacheUE (c : Cluster) : (s.setCluster c).icacheUE = s.icacheUE := rfl
@[simp] theorem State.setCluster_stores (c : Cluster) : (s.setCluster c).stores = s.stores := rfl
@[simp] theorem State.setCluster_race (c : Cluster) : (s.setCluster c).race = s.race := rfl
@[simp] theorem State.setCluster_spillTold (c : Cluster) : (s.setCluster c).spillTold = s.spillTold := rfl
@[simp] theorem State.setCluster_cleared (c : Cluster) : (s.setCluster c).cleared = s.cleared := rfl
@[simp] theorem State.setCluster_noteOps (c : Cluster) : (s.setCluster c).noteOps = s.noteOps := rfl
@[simp] theorem State.setCluster_tails (c : Cluster) : (s.setCluster c).tails = s.tails := rfl
@[simp] theorem State.setCluster_faults (c : Cluster) : (s.setCluster c).faults = s.faults := rfl
@[simp] theorem State.setCluster_qwaits (c : Cluster) : (s.setCluster c).qwaits = s.qwaits := rfl
@[simp] theorem State.setCluster_pipelines (c : Cluster) : (s.setCluster c).pipelines = s.pipelines := rfl
@[simp] theorem State.setCluster_queries (c : Cluster) : (s.setCluster c).queries = s.queries := rfl
@[simp] theorem State.setCluster_streams (c : Cluster) : (s.setCluster c).streams = s.streams := rfl
@[simp] theorem State.setCluster_funcs (c : Cluster) : (s.setCluster c).funcs = s.funcs := rfl
@[simp] theorem State.setCluster_hostMem (c : Cluster) : (s.setCluster c).hostMem = s.hostMem := rfl
@[simp] theorem State.setCluster_chip (c : Cluster) : (s.setCluster c).chip = s.chip := rfl
@[simp] theorem State.setCluster_udpPort (c : Cluster) : (s.setCluster c).udpPort = s.udpPort := rfl
@[simp] theorem State.setCluster_peers (c : Cluster) : (s.setCluster c).peers = s.peers := rfl
@[simp] theorem State.setCluster_grants (c : Cluster) : (s.setCluster c).grants = s.grants := rfl
@[simp] theorem State.setCluster_portsDown (c : Cluster) : (s.setCluster c).portsDown = s.portsDown := rfl
@[simp] theorem State.setCluster_putsIn (c : Cluster) : (s.setCluster c).putsIn = s.putsIn := rfl
@[simp] theorem State.setCluster_powerLimit (c : Cluster) : (s.setCluster c).powerLimit = s.powerLimit := rfl
@[simp] theorem State.setCluster_duty (c : Cluster) : (s.setCluster c).duty = s.duty := rfl
@[simp] theorem State.setCluster_powerSteps (c : Cluster) : (s.setCluster c).powerSteps = s.powerSteps := rfl
@[simp] theorem State.setCluster_stage (c : Cluster) : (s.setCluster c).stage = s.stage := rfl
@[simp] theorem State.setCluster_booted (c : Cluster) : (s.setCluster c).booted = s.booted := rfl
@[simp] theorem State.setCluster_image (c : Cluster) : (s.setCluster c).image = s.image := rfl
@[simp] theorem State.setCluster_staged (c : Cluster) : (s.setCluster c).staged = s.staged := rfl
@[simp] theorem State.setCluster_stagedLen (c : Cluster) : (s.setCluster c).stagedLen = s.stagedLen := rfl
@[simp] theorem State.setCluster_quiesce (c : Cluster) : (s.setCluster c).quiesce = s.quiesce := rfl
@[simp] theorem State.setCluster_mboxSeq (c : Cluster) : (s.setCluster c).mboxSeq = s.mboxSeq := rfl
@[simp] theorem State.setCluster_mboxStatus (c : Cluster) : (s.setCluster c).mboxStatus = s.mboxStatus := rfl
@[simp] theorem State.setCluster_mboxStage (c : Cluster) : (s.setCluster c).mboxStage = s.mboxStage := rfl
@[simp] theorem State.setCluster_mboxBody (c : Cluster) : (s.setCluster c).mboxBody = s.mboxBody := rfl
@[simp] theorem State.setCluster_mboxBuf (c : Cluster) : (s.setCluster c).mboxBuf = s.mboxBuf := rfl
@[simp] theorem State.setCluster_bootFail (c : Cluster) : (s.setCluster c).bootFail = s.bootFail := rfl
@[simp] theorem State.setCluster_stacksFailed (c : Cluster) : (s.setCluster c).stacksFailed = s.stacksFailed := rfl
@[simp] theorem State.setCluster_migrations (c : Cluster) : (s.setCluster c).migrations = s.migrations := rfl
@[simp] theorem State.setCluster_ceCores (c : Cluster) : (s.setCluster c).ceCores = s.ceCores := rfl
@[simp] theorem State.setCluster_ceTiles (c : Cluster) : (s.setCluster c).ceTiles = s.ceTiles := rfl
@[simp] theorem State.setCluster_keydig (c : Cluster) : (s.setCluster c).keydig = s.keydig := rfl
@[simp] theorem State.setCluster_minsvn (c : Cluster) : (s.setCluster c).minsvn = s.minsvn := rfl
@[simp] theorem State.setCluster_actsvn (c : Cluster) : (s.setCluster c).actsvn = s.actsvn := rfl
@[simp] theorem State.setCluster_attaddr (c : Cluster) : (s.setCluster c).attaddr = s.attaddr := rfl
@[simp] theorem State.setCluster_attbusy (c : Cluster) : (s.setCluster c).attbusy = s.attbusy := rfl
@[simp] theorem State.setCluster_ceThresh (c : Cluster) : (s.setCluster c).ceThresh = s.ceThresh := rfl
@[simp] theorem State.setCluster_critTemp (c : Cluster) : (s.setCluster c).critTemp = s.critTemp := rfl
@[simp] theorem State.setCluster_exitTemp (c : Cluster) : (s.setCluster c).exitTemp = s.exitTemp := rfl

/-! `modCluster` -/

@[simp] theorem State.modCluster_cycle (i : Nat) (f : Cluster → Cluster) : (s.modCluster i f).cycle = s.cycle := rfl
@[simp] theorem State.modCluster_cur (i : Nat) (f : Cluster → Cluster) : (s.modCluster i f).cur = s.cur := rfl
@[simp] theorem State.modCluster_agenda (i : Nat) (f : Cluster → Cluster) : (s.modCluster i f).agenda = s.agenda := rfl
@[simp] theorem State.modCluster_freeCtr (i : Nat) (f : Cluster → Cluster) : (s.modCluster i f).freeCtr = s.freeCtr := rfl
@[simp] theorem State.modCluster_nextTid (i : Nat) (f : Cluster → Cluster) : (s.modCluster i f).nextTid = s.nextTid := rfl
@[simp] theorem State.modCluster_nextId (i : Nat) (f : Cluster → Cluster) : (s.modCluster i f).nextId = s.nextId := rfl
@[simp] theorem State.modCluster_lastNum (i : Nat) (f : Cluster → Cluster) : (s.modCluster i f).lastNum = s.lastNum := rfl
@[simp] theorem State.modCluster_threads (i : Nat) (f : Cluster → Cluster) : (s.modCluster i f).threads = s.threads := rfl
@[simp] theorem State.modCluster_jobs (i : Nat) (f : Cluster → Cluster) : (s.modCluster i f).jobs = s.jobs := rfl
@[simp] theorem State.modCluster_cores (i : Nat) (f : Cluster → Cluster) : (s.modCluster i f).cores = s.cores := rfl
@[simp] theorem State.modCluster_fwcores (i : Nat) (f : Cluster → Cluster) : (s.modCluster i f).fwcores = s.fwcores := rfl
@[simp] theorem State.modCluster_hbm (i : Nat) (f : Cluster → Cluster) : (s.modCluster i f).hbm = s.hbm := rfl
@[simp] theorem State.modCluster_mem (i : Nat) (f : Cluster → Cluster) : (s.modCluster i f).mem = s.mem := rfl
@[simp] theorem State.modCluster_poison (i : Nat) (f : Cluster → Cluster) : (s.modCluster i f).poison = s.poison := rfl
@[simp] theorem State.modCluster_tlb (i : Nat) (f : Cluster → Cluster) : (s.modCluster i f).tlb = s.tlb := rfl
@[simp] theorem State.modCluster_icache (i : Nat) (f : Cluster → Cluster) : (s.modCluster i f).icache = s.icache := rfl
@[simp] theorem State.modCluster_icacheUE (i : Nat) (f : Cluster → Cluster) : (s.modCluster i f).icacheUE = s.icacheUE := rfl
@[simp] theorem State.modCluster_stores (i : Nat) (f : Cluster → Cluster) : (s.modCluster i f).stores = s.stores := rfl
@[simp] theorem State.modCluster_race (i : Nat) (f : Cluster → Cluster) : (s.modCluster i f).race = s.race := rfl
@[simp] theorem State.modCluster_spillTold (i : Nat) (f : Cluster → Cluster) : (s.modCluster i f).spillTold = s.spillTold := rfl
@[simp] theorem State.modCluster_cleared (i : Nat) (f : Cluster → Cluster) : (s.modCluster i f).cleared = s.cleared := rfl
@[simp] theorem State.modCluster_noteOps (i : Nat) (f : Cluster → Cluster) : (s.modCluster i f).noteOps = s.noteOps := rfl
@[simp] theorem State.modCluster_tails (i : Nat) (f : Cluster → Cluster) : (s.modCluster i f).tails = s.tails := rfl
@[simp] theorem State.modCluster_faults (i : Nat) (f : Cluster → Cluster) : (s.modCluster i f).faults = s.faults := rfl
@[simp] theorem State.modCluster_qwaits (i : Nat) (f : Cluster → Cluster) : (s.modCluster i f).qwaits = s.qwaits := rfl
@[simp] theorem State.modCluster_pipelines (i : Nat) (f : Cluster → Cluster) : (s.modCluster i f).pipelines = s.pipelines := rfl
@[simp] theorem State.modCluster_queries (i : Nat) (f : Cluster → Cluster) : (s.modCluster i f).queries = s.queries := rfl
@[simp] theorem State.modCluster_streams (i : Nat) (f : Cluster → Cluster) : (s.modCluster i f).streams = s.streams := rfl
@[simp] theorem State.modCluster_funcs (i : Nat) (f : Cluster → Cluster) : (s.modCluster i f).funcs = s.funcs := rfl
@[simp] theorem State.modCluster_hostMem (i : Nat) (f : Cluster → Cluster) : (s.modCluster i f).hostMem = s.hostMem := rfl
@[simp] theorem State.modCluster_chip (i : Nat) (f : Cluster → Cluster) : (s.modCluster i f).chip = s.chip := rfl
@[simp] theorem State.modCluster_udpPort (i : Nat) (f : Cluster → Cluster) : (s.modCluster i f).udpPort = s.udpPort := rfl
@[simp] theorem State.modCluster_peers (i : Nat) (f : Cluster → Cluster) : (s.modCluster i f).peers = s.peers := rfl
@[simp] theorem State.modCluster_grants (i : Nat) (f : Cluster → Cluster) : (s.modCluster i f).grants = s.grants := rfl
@[simp] theorem State.modCluster_portsDown (i : Nat) (f : Cluster → Cluster) : (s.modCluster i f).portsDown = s.portsDown := rfl
@[simp] theorem State.modCluster_putsIn (i : Nat) (f : Cluster → Cluster) : (s.modCluster i f).putsIn = s.putsIn := rfl
@[simp] theorem State.modCluster_powerLimit (i : Nat) (f : Cluster → Cluster) : (s.modCluster i f).powerLimit = s.powerLimit := rfl
@[simp] theorem State.modCluster_duty (i : Nat) (f : Cluster → Cluster) : (s.modCluster i f).duty = s.duty := rfl
@[simp] theorem State.modCluster_powerSteps (i : Nat) (f : Cluster → Cluster) : (s.modCluster i f).powerSteps = s.powerSteps := rfl
@[simp] theorem State.modCluster_stage (i : Nat) (f : Cluster → Cluster) : (s.modCluster i f).stage = s.stage := rfl
@[simp] theorem State.modCluster_booted (i : Nat) (f : Cluster → Cluster) : (s.modCluster i f).booted = s.booted := rfl
@[simp] theorem State.modCluster_image (i : Nat) (f : Cluster → Cluster) : (s.modCluster i f).image = s.image := rfl
@[simp] theorem State.modCluster_staged (i : Nat) (f : Cluster → Cluster) : (s.modCluster i f).staged = s.staged := rfl
@[simp] theorem State.modCluster_stagedLen (i : Nat) (f : Cluster → Cluster) : (s.modCluster i f).stagedLen = s.stagedLen := rfl
@[simp] theorem State.modCluster_quiesce (i : Nat) (f : Cluster → Cluster) : (s.modCluster i f).quiesce = s.quiesce := rfl
@[simp] theorem State.modCluster_mboxSeq (i : Nat) (f : Cluster → Cluster) : (s.modCluster i f).mboxSeq = s.mboxSeq := rfl
@[simp] theorem State.modCluster_mboxStatus (i : Nat) (f : Cluster → Cluster) : (s.modCluster i f).mboxStatus = s.mboxStatus := rfl
@[simp] theorem State.modCluster_mboxStage (i : Nat) (f : Cluster → Cluster) : (s.modCluster i f).mboxStage = s.mboxStage := rfl
@[simp] theorem State.modCluster_mboxBody (i : Nat) (f : Cluster → Cluster) : (s.modCluster i f).mboxBody = s.mboxBody := rfl
@[simp] theorem State.modCluster_mboxBuf (i : Nat) (f : Cluster → Cluster) : (s.modCluster i f).mboxBuf = s.mboxBuf := rfl
@[simp] theorem State.modCluster_bootFail (i : Nat) (f : Cluster → Cluster) : (s.modCluster i f).bootFail = s.bootFail := rfl
@[simp] theorem State.modCluster_stacksFailed (i : Nat) (f : Cluster → Cluster) : (s.modCluster i f).stacksFailed = s.stacksFailed := rfl
@[simp] theorem State.modCluster_migrations (i : Nat) (f : Cluster → Cluster) : (s.modCluster i f).migrations = s.migrations := rfl
@[simp] theorem State.modCluster_ceCores (i : Nat) (f : Cluster → Cluster) : (s.modCluster i f).ceCores = s.ceCores := rfl
@[simp] theorem State.modCluster_ceTiles (i : Nat) (f : Cluster → Cluster) : (s.modCluster i f).ceTiles = s.ceTiles := rfl
@[simp] theorem State.modCluster_keydig (i : Nat) (f : Cluster → Cluster) : (s.modCluster i f).keydig = s.keydig := rfl
@[simp] theorem State.modCluster_minsvn (i : Nat) (f : Cluster → Cluster) : (s.modCluster i f).minsvn = s.minsvn := rfl
@[simp] theorem State.modCluster_actsvn (i : Nat) (f : Cluster → Cluster) : (s.modCluster i f).actsvn = s.actsvn := rfl
@[simp] theorem State.modCluster_attaddr (i : Nat) (f : Cluster → Cluster) : (s.modCluster i f).attaddr = s.attaddr := rfl
@[simp] theorem State.modCluster_attbusy (i : Nat) (f : Cluster → Cluster) : (s.modCluster i f).attbusy = s.attbusy := rfl
@[simp] theorem State.modCluster_ceThresh (i : Nat) (f : Cluster → Cluster) : (s.modCluster i f).ceThresh = s.ceThresh := rfl
@[simp] theorem State.modCluster_critTemp (i : Nat) (f : Cluster → Cluster) : (s.modCluster i f).critTemp = s.critTemp := rfl
@[simp] theorem State.modCluster_exitTemp (i : Nat) (f : Cluster → Cluster) : (s.modCluster i f).exitTemp = s.exitTemp := rfl

/-! `setFw` -/

@[simp] theorem State.setFw_cycle (c : FwCore) : (s.setFw c).cycle = s.cycle := rfl
@[simp] theorem State.setFw_cur (c : FwCore) : (s.setFw c).cur = s.cur := rfl
@[simp] theorem State.setFw_agenda (c : FwCore) : (s.setFw c).agenda = s.agenda := rfl
@[simp] theorem State.setFw_freeCtr (c : FwCore) : (s.setFw c).freeCtr = s.freeCtr := rfl
@[simp] theorem State.setFw_nextTid (c : FwCore) : (s.setFw c).nextTid = s.nextTid := rfl
@[simp] theorem State.setFw_nextId (c : FwCore) : (s.setFw c).nextId = s.nextId := rfl
@[simp] theorem State.setFw_lastNum (c : FwCore) : (s.setFw c).lastNum = s.lastNum := rfl
@[simp] theorem State.setFw_threads (c : FwCore) : (s.setFw c).threads = s.threads := rfl
@[simp] theorem State.setFw_jobs (c : FwCore) : (s.setFw c).jobs = s.jobs := rfl
@[simp] theorem State.setFw_cores (c : FwCore) : (s.setFw c).cores = s.cores := rfl
@[simp] theorem State.setFw_clusters (c : FwCore) : (s.setFw c).clusters = s.clusters := rfl
@[simp] theorem State.setFw_hbm (c : FwCore) : (s.setFw c).hbm = s.hbm := rfl
@[simp] theorem State.setFw_mem (c : FwCore) : (s.setFw c).mem = s.mem := rfl
@[simp] theorem State.setFw_poison (c : FwCore) : (s.setFw c).poison = s.poison := rfl
@[simp] theorem State.setFw_tlb (c : FwCore) : (s.setFw c).tlb = s.tlb := rfl
@[simp] theorem State.setFw_icache (c : FwCore) : (s.setFw c).icache = s.icache := rfl
@[simp] theorem State.setFw_icacheUE (c : FwCore) : (s.setFw c).icacheUE = s.icacheUE := rfl
@[simp] theorem State.setFw_stores (c : FwCore) : (s.setFw c).stores = s.stores := rfl
@[simp] theorem State.setFw_race (c : FwCore) : (s.setFw c).race = s.race := rfl
@[simp] theorem State.setFw_spillTold (c : FwCore) : (s.setFw c).spillTold = s.spillTold := rfl
@[simp] theorem State.setFw_cleared (c : FwCore) : (s.setFw c).cleared = s.cleared := rfl
@[simp] theorem State.setFw_noteOps (c : FwCore) : (s.setFw c).noteOps = s.noteOps := rfl
@[simp] theorem State.setFw_tails (c : FwCore) : (s.setFw c).tails = s.tails := rfl
@[simp] theorem State.setFw_faults (c : FwCore) : (s.setFw c).faults = s.faults := rfl
@[simp] theorem State.setFw_qwaits (c : FwCore) : (s.setFw c).qwaits = s.qwaits := rfl
@[simp] theorem State.setFw_pipelines (c : FwCore) : (s.setFw c).pipelines = s.pipelines := rfl
@[simp] theorem State.setFw_queries (c : FwCore) : (s.setFw c).queries = s.queries := rfl
@[simp] theorem State.setFw_streams (c : FwCore) : (s.setFw c).streams = s.streams := rfl
@[simp] theorem State.setFw_funcs (c : FwCore) : (s.setFw c).funcs = s.funcs := rfl
@[simp] theorem State.setFw_hostMem (c : FwCore) : (s.setFw c).hostMem = s.hostMem := rfl
@[simp] theorem State.setFw_chip (c : FwCore) : (s.setFw c).chip = s.chip := rfl
@[simp] theorem State.setFw_udpPort (c : FwCore) : (s.setFw c).udpPort = s.udpPort := rfl
@[simp] theorem State.setFw_peers (c : FwCore) : (s.setFw c).peers = s.peers := rfl
@[simp] theorem State.setFw_grants (c : FwCore) : (s.setFw c).grants = s.grants := rfl
@[simp] theorem State.setFw_portsDown (c : FwCore) : (s.setFw c).portsDown = s.portsDown := rfl
@[simp] theorem State.setFw_putsIn (c : FwCore) : (s.setFw c).putsIn = s.putsIn := rfl
@[simp] theorem State.setFw_powerLimit (c : FwCore) : (s.setFw c).powerLimit = s.powerLimit := rfl
@[simp] theorem State.setFw_duty (c : FwCore) : (s.setFw c).duty = s.duty := rfl
@[simp] theorem State.setFw_powerSteps (c : FwCore) : (s.setFw c).powerSteps = s.powerSteps := rfl
@[simp] theorem State.setFw_stage (c : FwCore) : (s.setFw c).stage = s.stage := rfl
@[simp] theorem State.setFw_booted (c : FwCore) : (s.setFw c).booted = s.booted := rfl
@[simp] theorem State.setFw_image (c : FwCore) : (s.setFw c).image = s.image := rfl
@[simp] theorem State.setFw_staged (c : FwCore) : (s.setFw c).staged = s.staged := rfl
@[simp] theorem State.setFw_stagedLen (c : FwCore) : (s.setFw c).stagedLen = s.stagedLen := rfl
@[simp] theorem State.setFw_quiesce (c : FwCore) : (s.setFw c).quiesce = s.quiesce := rfl
@[simp] theorem State.setFw_mboxSeq (c : FwCore) : (s.setFw c).mboxSeq = s.mboxSeq := rfl
@[simp] theorem State.setFw_mboxStatus (c : FwCore) : (s.setFw c).mboxStatus = s.mboxStatus := rfl
@[simp] theorem State.setFw_mboxStage (c : FwCore) : (s.setFw c).mboxStage = s.mboxStage := rfl
@[simp] theorem State.setFw_mboxBody (c : FwCore) : (s.setFw c).mboxBody = s.mboxBody := rfl
@[simp] theorem State.setFw_mboxBuf (c : FwCore) : (s.setFw c).mboxBuf = s.mboxBuf := rfl
@[simp] theorem State.setFw_bootFail (c : FwCore) : (s.setFw c).bootFail = s.bootFail := rfl
@[simp] theorem State.setFw_stacksFailed (c : FwCore) : (s.setFw c).stacksFailed = s.stacksFailed := rfl
@[simp] theorem State.setFw_migrations (c : FwCore) : (s.setFw c).migrations = s.migrations := rfl
@[simp] theorem State.setFw_ceCores (c : FwCore) : (s.setFw c).ceCores = s.ceCores := rfl
@[simp] theorem State.setFw_ceTiles (c : FwCore) : (s.setFw c).ceTiles = s.ceTiles := rfl
@[simp] theorem State.setFw_keydig (c : FwCore) : (s.setFw c).keydig = s.keydig := rfl
@[simp] theorem State.setFw_minsvn (c : FwCore) : (s.setFw c).minsvn = s.minsvn := rfl
@[simp] theorem State.setFw_actsvn (c : FwCore) : (s.setFw c).actsvn = s.actsvn := rfl
@[simp] theorem State.setFw_attaddr (c : FwCore) : (s.setFw c).attaddr = s.attaddr := rfl
@[simp] theorem State.setFw_attbusy (c : FwCore) : (s.setFw c).attbusy = s.attbusy := rfl
@[simp] theorem State.setFw_ceThresh (c : FwCore) : (s.setFw c).ceThresh = s.ceThresh := rfl
@[simp] theorem State.setFw_critTemp (c : FwCore) : (s.setFw c).critTemp = s.critTemp := rfl
@[simp] theorem State.setFw_exitTemp (c : FwCore) : (s.setFw c).exitTemp = s.exitTemp := rfl

/-! `setStack` -/

@[simp] theorem State.setStack_cycle (k : Stack) : (s.setStack k).cycle = s.cycle := rfl
@[simp] theorem State.setStack_cur (k : Stack) : (s.setStack k).cur = s.cur := rfl
@[simp] theorem State.setStack_agenda (k : Stack) : (s.setStack k).agenda = s.agenda := rfl
@[simp] theorem State.setStack_freeCtr (k : Stack) : (s.setStack k).freeCtr = s.freeCtr := rfl
@[simp] theorem State.setStack_nextTid (k : Stack) : (s.setStack k).nextTid = s.nextTid := rfl
@[simp] theorem State.setStack_nextId (k : Stack) : (s.setStack k).nextId = s.nextId := rfl
@[simp] theorem State.setStack_lastNum (k : Stack) : (s.setStack k).lastNum = s.lastNum := rfl
@[simp] theorem State.setStack_threads (k : Stack) : (s.setStack k).threads = s.threads := rfl
@[simp] theorem State.setStack_jobs (k : Stack) : (s.setStack k).jobs = s.jobs := rfl
@[simp] theorem State.setStack_cores (k : Stack) : (s.setStack k).cores = s.cores := rfl
@[simp] theorem State.setStack_clusters (k : Stack) : (s.setStack k).clusters = s.clusters := rfl
@[simp] theorem State.setStack_fwcores (k : Stack) : (s.setStack k).fwcores = s.fwcores := rfl
@[simp] theorem State.setStack_mem (k : Stack) : (s.setStack k).mem = s.mem := rfl
@[simp] theorem State.setStack_poison (k : Stack) : (s.setStack k).poison = s.poison := rfl
@[simp] theorem State.setStack_tlb (k : Stack) : (s.setStack k).tlb = s.tlb := rfl
@[simp] theorem State.setStack_icache (k : Stack) : (s.setStack k).icache = s.icache := rfl
@[simp] theorem State.setStack_icacheUE (k : Stack) : (s.setStack k).icacheUE = s.icacheUE := rfl
@[simp] theorem State.setStack_stores (k : Stack) : (s.setStack k).stores = s.stores := rfl
@[simp] theorem State.setStack_race (k : Stack) : (s.setStack k).race = s.race := rfl
@[simp] theorem State.setStack_spillTold (k : Stack) : (s.setStack k).spillTold = s.spillTold := rfl
@[simp] theorem State.setStack_cleared (k : Stack) : (s.setStack k).cleared = s.cleared := rfl
@[simp] theorem State.setStack_noteOps (k : Stack) : (s.setStack k).noteOps = s.noteOps := rfl
@[simp] theorem State.setStack_tails (k : Stack) : (s.setStack k).tails = s.tails := rfl
@[simp] theorem State.setStack_faults (k : Stack) : (s.setStack k).faults = s.faults := rfl
@[simp] theorem State.setStack_qwaits (k : Stack) : (s.setStack k).qwaits = s.qwaits := rfl
@[simp] theorem State.setStack_pipelines (k : Stack) : (s.setStack k).pipelines = s.pipelines := rfl
@[simp] theorem State.setStack_queries (k : Stack) : (s.setStack k).queries = s.queries := rfl
@[simp] theorem State.setStack_streams (k : Stack) : (s.setStack k).streams = s.streams := rfl
@[simp] theorem State.setStack_funcs (k : Stack) : (s.setStack k).funcs = s.funcs := rfl
@[simp] theorem State.setStack_hostMem (k : Stack) : (s.setStack k).hostMem = s.hostMem := rfl
@[simp] theorem State.setStack_chip (k : Stack) : (s.setStack k).chip = s.chip := rfl
@[simp] theorem State.setStack_udpPort (k : Stack) : (s.setStack k).udpPort = s.udpPort := rfl
@[simp] theorem State.setStack_peers (k : Stack) : (s.setStack k).peers = s.peers := rfl
@[simp] theorem State.setStack_grants (k : Stack) : (s.setStack k).grants = s.grants := rfl
@[simp] theorem State.setStack_portsDown (k : Stack) : (s.setStack k).portsDown = s.portsDown := rfl
@[simp] theorem State.setStack_putsIn (k : Stack) : (s.setStack k).putsIn = s.putsIn := rfl
@[simp] theorem State.setStack_powerLimit (k : Stack) : (s.setStack k).powerLimit = s.powerLimit := rfl
@[simp] theorem State.setStack_duty (k : Stack) : (s.setStack k).duty = s.duty := rfl
@[simp] theorem State.setStack_powerSteps (k : Stack) : (s.setStack k).powerSteps = s.powerSteps := rfl
@[simp] theorem State.setStack_stage (k : Stack) : (s.setStack k).stage = s.stage := rfl
@[simp] theorem State.setStack_booted (k : Stack) : (s.setStack k).booted = s.booted := rfl
@[simp] theorem State.setStack_image (k : Stack) : (s.setStack k).image = s.image := rfl
@[simp] theorem State.setStack_staged (k : Stack) : (s.setStack k).staged = s.staged := rfl
@[simp] theorem State.setStack_stagedLen (k : Stack) : (s.setStack k).stagedLen = s.stagedLen := rfl
@[simp] theorem State.setStack_quiesce (k : Stack) : (s.setStack k).quiesce = s.quiesce := rfl
@[simp] theorem State.setStack_mboxSeq (k : Stack) : (s.setStack k).mboxSeq = s.mboxSeq := rfl
@[simp] theorem State.setStack_mboxStatus (k : Stack) : (s.setStack k).mboxStatus = s.mboxStatus := rfl
@[simp] theorem State.setStack_mboxStage (k : Stack) : (s.setStack k).mboxStage = s.mboxStage := rfl
@[simp] theorem State.setStack_mboxBody (k : Stack) : (s.setStack k).mboxBody = s.mboxBody := rfl
@[simp] theorem State.setStack_mboxBuf (k : Stack) : (s.setStack k).mboxBuf = s.mboxBuf := rfl
@[simp] theorem State.setStack_bootFail (k : Stack) : (s.setStack k).bootFail = s.bootFail := rfl
@[simp] theorem State.setStack_stacksFailed (k : Stack) : (s.setStack k).stacksFailed = s.stacksFailed := rfl
@[simp] theorem State.setStack_migrations (k : Stack) : (s.setStack k).migrations = s.migrations := rfl
@[simp] theorem State.setStack_ceCores (k : Stack) : (s.setStack k).ceCores = s.ceCores := rfl
@[simp] theorem State.setStack_ceTiles (k : Stack) : (s.setStack k).ceTiles = s.ceTiles := rfl
@[simp] theorem State.setStack_keydig (k : Stack) : (s.setStack k).keydig = s.keydig := rfl
@[simp] theorem State.setStack_minsvn (k : Stack) : (s.setStack k).minsvn = s.minsvn := rfl
@[simp] theorem State.setStack_actsvn (k : Stack) : (s.setStack k).actsvn = s.actsvn := rfl
@[simp] theorem State.setStack_attaddr (k : Stack) : (s.setStack k).attaddr = s.attaddr := rfl
@[simp] theorem State.setStack_attbusy (k : Stack) : (s.setStack k).attbusy = s.attbusy := rfl
@[simp] theorem State.setStack_ceThresh (k : Stack) : (s.setStack k).ceThresh = s.ceThresh := rfl
@[simp] theorem State.setStack_critTemp (k : Stack) : (s.setStack k).critTemp = s.critTemp := rfl
@[simp] theorem State.setStack_exitTemp (k : Stack) : (s.setStack k).exitTemp = s.exitTemp := rfl

/-! `setFunc` -/

@[simp] theorem State.setFunc_cycle (f : Func) : (s.setFunc f).cycle = s.cycle := rfl
@[simp] theorem State.setFunc_cur (f : Func) : (s.setFunc f).cur = s.cur := rfl
@[simp] theorem State.setFunc_agenda (f : Func) : (s.setFunc f).agenda = s.agenda := rfl
@[simp] theorem State.setFunc_freeCtr (f : Func) : (s.setFunc f).freeCtr = s.freeCtr := rfl
@[simp] theorem State.setFunc_nextTid (f : Func) : (s.setFunc f).nextTid = s.nextTid := rfl
@[simp] theorem State.setFunc_nextId (f : Func) : (s.setFunc f).nextId = s.nextId := rfl
@[simp] theorem State.setFunc_lastNum (f : Func) : (s.setFunc f).lastNum = s.lastNum := rfl
@[simp] theorem State.setFunc_threads (f : Func) : (s.setFunc f).threads = s.threads := rfl
@[simp] theorem State.setFunc_jobs (f : Func) : (s.setFunc f).jobs = s.jobs := rfl
@[simp] theorem State.setFunc_cores (f : Func) : (s.setFunc f).cores = s.cores := rfl
@[simp] theorem State.setFunc_clusters (f : Func) : (s.setFunc f).clusters = s.clusters := rfl
@[simp] theorem State.setFunc_fwcores (f : Func) : (s.setFunc f).fwcores = s.fwcores := rfl
@[simp] theorem State.setFunc_hbm (f : Func) : (s.setFunc f).hbm = s.hbm := rfl
@[simp] theorem State.setFunc_mem (f : Func) : (s.setFunc f).mem = s.mem := rfl
@[simp] theorem State.setFunc_poison (f : Func) : (s.setFunc f).poison = s.poison := rfl
@[simp] theorem State.setFunc_tlb (f : Func) : (s.setFunc f).tlb = s.tlb := rfl
@[simp] theorem State.setFunc_icache (f : Func) : (s.setFunc f).icache = s.icache := rfl
@[simp] theorem State.setFunc_icacheUE (f : Func) : (s.setFunc f).icacheUE = s.icacheUE := rfl
@[simp] theorem State.setFunc_stores (f : Func) : (s.setFunc f).stores = s.stores := rfl
@[simp] theorem State.setFunc_race (f : Func) : (s.setFunc f).race = s.race := rfl
@[simp] theorem State.setFunc_spillTold (f : Func) : (s.setFunc f).spillTold = s.spillTold := rfl
@[simp] theorem State.setFunc_cleared (f : Func) : (s.setFunc f).cleared = s.cleared := rfl
@[simp] theorem State.setFunc_noteOps (f : Func) : (s.setFunc f).noteOps = s.noteOps := rfl
@[simp] theorem State.setFunc_tails (f : Func) : (s.setFunc f).tails = s.tails := rfl
@[simp] theorem State.setFunc_faults (f : Func) : (s.setFunc f).faults = s.faults := rfl
@[simp] theorem State.setFunc_qwaits (f : Func) : (s.setFunc f).qwaits = s.qwaits := rfl
@[simp] theorem State.setFunc_pipelines (f : Func) : (s.setFunc f).pipelines = s.pipelines := rfl
@[simp] theorem State.setFunc_queries (f : Func) : (s.setFunc f).queries = s.queries := rfl
@[simp] theorem State.setFunc_streams (f : Func) : (s.setFunc f).streams = s.streams := rfl
@[simp] theorem State.setFunc_hostMem (f : Func) : (s.setFunc f).hostMem = s.hostMem := rfl
@[simp] theorem State.setFunc_chip (f : Func) : (s.setFunc f).chip = s.chip := rfl
@[simp] theorem State.setFunc_udpPort (f : Func) : (s.setFunc f).udpPort = s.udpPort := rfl
@[simp] theorem State.setFunc_peers (f : Func) : (s.setFunc f).peers = s.peers := rfl
@[simp] theorem State.setFunc_grants (f : Func) : (s.setFunc f).grants = s.grants := rfl
@[simp] theorem State.setFunc_portsDown (f : Func) : (s.setFunc f).portsDown = s.portsDown := rfl
@[simp] theorem State.setFunc_putsIn (f : Func) : (s.setFunc f).putsIn = s.putsIn := rfl
@[simp] theorem State.setFunc_powerLimit (f : Func) : (s.setFunc f).powerLimit = s.powerLimit := rfl
@[simp] theorem State.setFunc_duty (f : Func) : (s.setFunc f).duty = s.duty := rfl
@[simp] theorem State.setFunc_powerSteps (f : Func) : (s.setFunc f).powerSteps = s.powerSteps := rfl
@[simp] theorem State.setFunc_stage (f : Func) : (s.setFunc f).stage = s.stage := rfl
@[simp] theorem State.setFunc_booted (f : Func) : (s.setFunc f).booted = s.booted := rfl
@[simp] theorem State.setFunc_image (f : Func) : (s.setFunc f).image = s.image := rfl
@[simp] theorem State.setFunc_staged (f : Func) : (s.setFunc f).staged = s.staged := rfl
@[simp] theorem State.setFunc_stagedLen (f : Func) : (s.setFunc f).stagedLen = s.stagedLen := rfl
@[simp] theorem State.setFunc_quiesce (f : Func) : (s.setFunc f).quiesce = s.quiesce := rfl
@[simp] theorem State.setFunc_mboxSeq (f : Func) : (s.setFunc f).mboxSeq = s.mboxSeq := rfl
@[simp] theorem State.setFunc_mboxStatus (f : Func) : (s.setFunc f).mboxStatus = s.mboxStatus := rfl
@[simp] theorem State.setFunc_mboxStage (f : Func) : (s.setFunc f).mboxStage = s.mboxStage := rfl
@[simp] theorem State.setFunc_mboxBody (f : Func) : (s.setFunc f).mboxBody = s.mboxBody := rfl
@[simp] theorem State.setFunc_mboxBuf (f : Func) : (s.setFunc f).mboxBuf = s.mboxBuf := rfl
@[simp] theorem State.setFunc_bootFail (f : Func) : (s.setFunc f).bootFail = s.bootFail := rfl
@[simp] theorem State.setFunc_stacksFailed (f : Func) : (s.setFunc f).stacksFailed = s.stacksFailed := rfl
@[simp] theorem State.setFunc_migrations (f : Func) : (s.setFunc f).migrations = s.migrations := rfl
@[simp] theorem State.setFunc_ceCores (f : Func) : (s.setFunc f).ceCores = s.ceCores := rfl
@[simp] theorem State.setFunc_ceTiles (f : Func) : (s.setFunc f).ceTiles = s.ceTiles := rfl
@[simp] theorem State.setFunc_keydig (f : Func) : (s.setFunc f).keydig = s.keydig := rfl
@[simp] theorem State.setFunc_minsvn (f : Func) : (s.setFunc f).minsvn = s.minsvn := rfl
@[simp] theorem State.setFunc_actsvn (f : Func) : (s.setFunc f).actsvn = s.actsvn := rfl
@[simp] theorem State.setFunc_attaddr (f : Func) : (s.setFunc f).attaddr = s.attaddr := rfl
@[simp] theorem State.setFunc_attbusy (f : Func) : (s.setFunc f).attbusy = s.attbusy := rfl
@[simp] theorem State.setFunc_ceThresh (f : Func) : (s.setFunc f).ceThresh = s.ceThresh := rfl
@[simp] theorem State.setFunc_critTemp (f : Func) : (s.setFunc f).critTemp = s.critTemp := rfl
@[simp] theorem State.setFunc_exitTemp (f : Func) : (s.setFunc f).exitTemp = s.exitTemp := rfl

/-! `tickFree` -/

@[simp] theorem State.tickFree_cycle : (s.tickFree).cycle = s.cycle := rfl
@[simp] theorem State.tickFree_cur : (s.tickFree).cur = s.cur := rfl
@[simp] theorem State.tickFree_agenda : (s.tickFree).agenda = s.agenda := rfl
@[simp] theorem State.tickFree_nextTid : (s.tickFree).nextTid = s.nextTid := rfl
@[simp] theorem State.tickFree_nextId : (s.tickFree).nextId = s.nextId := rfl
@[simp] theorem State.tickFree_lastNum : (s.tickFree).lastNum = s.lastNum := rfl
@[simp] theorem State.tickFree_threads : (s.tickFree).threads = s.threads := rfl
@[simp] theorem State.tickFree_jobs : (s.tickFree).jobs = s.jobs := rfl
@[simp] theorem State.tickFree_cores : (s.tickFree).cores = s.cores := rfl
@[simp] theorem State.tickFree_clusters : (s.tickFree).clusters = s.clusters := rfl
@[simp] theorem State.tickFree_fwcores : (s.tickFree).fwcores = s.fwcores := rfl
@[simp] theorem State.tickFree_hbm : (s.tickFree).hbm = s.hbm := rfl
@[simp] theorem State.tickFree_mem : (s.tickFree).mem = s.mem := rfl
@[simp] theorem State.tickFree_poison : (s.tickFree).poison = s.poison := rfl
@[simp] theorem State.tickFree_tlb : (s.tickFree).tlb = s.tlb := rfl
@[simp] theorem State.tickFree_icache : (s.tickFree).icache = s.icache := rfl
@[simp] theorem State.tickFree_icacheUE : (s.tickFree).icacheUE = s.icacheUE := rfl
@[simp] theorem State.tickFree_stores : (s.tickFree).stores = s.stores := rfl
@[simp] theorem State.tickFree_race : (s.tickFree).race = s.race := rfl
@[simp] theorem State.tickFree_spillTold : (s.tickFree).spillTold = s.spillTold := rfl
@[simp] theorem State.tickFree_cleared : (s.tickFree).cleared = s.cleared := rfl
@[simp] theorem State.tickFree_noteOps : (s.tickFree).noteOps = s.noteOps := rfl
@[simp] theorem State.tickFree_tails : (s.tickFree).tails = s.tails := rfl
@[simp] theorem State.tickFree_faults : (s.tickFree).faults = s.faults := rfl
@[simp] theorem State.tickFree_qwaits : (s.tickFree).qwaits = s.qwaits := rfl
@[simp] theorem State.tickFree_pipelines : (s.tickFree).pipelines = s.pipelines := rfl
@[simp] theorem State.tickFree_queries : (s.tickFree).queries = s.queries := rfl
@[simp] theorem State.tickFree_streams : (s.tickFree).streams = s.streams := rfl
@[simp] theorem State.tickFree_funcs : (s.tickFree).funcs = s.funcs := rfl
@[simp] theorem State.tickFree_hostMem : (s.tickFree).hostMem = s.hostMem := rfl
@[simp] theorem State.tickFree_chip : (s.tickFree).chip = s.chip := rfl
@[simp] theorem State.tickFree_udpPort : (s.tickFree).udpPort = s.udpPort := rfl
@[simp] theorem State.tickFree_peers : (s.tickFree).peers = s.peers := rfl
@[simp] theorem State.tickFree_grants : (s.tickFree).grants = s.grants := rfl
@[simp] theorem State.tickFree_portsDown : (s.tickFree).portsDown = s.portsDown := rfl
@[simp] theorem State.tickFree_putsIn : (s.tickFree).putsIn = s.putsIn := rfl
@[simp] theorem State.tickFree_powerLimit : (s.tickFree).powerLimit = s.powerLimit := rfl
@[simp] theorem State.tickFree_duty : (s.tickFree).duty = s.duty := rfl
@[simp] theorem State.tickFree_powerSteps : (s.tickFree).powerSteps = s.powerSteps := rfl
@[simp] theorem State.tickFree_stage : (s.tickFree).stage = s.stage := rfl
@[simp] theorem State.tickFree_booted : (s.tickFree).booted = s.booted := rfl
@[simp] theorem State.tickFree_image : (s.tickFree).image = s.image := rfl
@[simp] theorem State.tickFree_staged : (s.tickFree).staged = s.staged := rfl
@[simp] theorem State.tickFree_stagedLen : (s.tickFree).stagedLen = s.stagedLen := rfl
@[simp] theorem State.tickFree_quiesce : (s.tickFree).quiesce = s.quiesce := rfl
@[simp] theorem State.tickFree_mboxSeq : (s.tickFree).mboxSeq = s.mboxSeq := rfl
@[simp] theorem State.tickFree_mboxStatus : (s.tickFree).mboxStatus = s.mboxStatus := rfl
@[simp] theorem State.tickFree_mboxStage : (s.tickFree).mboxStage = s.mboxStage := rfl
@[simp] theorem State.tickFree_mboxBody : (s.tickFree).mboxBody = s.mboxBody := rfl
@[simp] theorem State.tickFree_mboxBuf : (s.tickFree).mboxBuf = s.mboxBuf := rfl
@[simp] theorem State.tickFree_bootFail : (s.tickFree).bootFail = s.bootFail := rfl
@[simp] theorem State.tickFree_stacksFailed : (s.tickFree).stacksFailed = s.stacksFailed := rfl
@[simp] theorem State.tickFree_migrations : (s.tickFree).migrations = s.migrations := rfl
@[simp] theorem State.tickFree_ceCores : (s.tickFree).ceCores = s.ceCores := rfl
@[simp] theorem State.tickFree_ceTiles : (s.tickFree).ceTiles = s.ceTiles := rfl
@[simp] theorem State.tickFree_keydig : (s.tickFree).keydig = s.keydig := rfl
@[simp] theorem State.tickFree_minsvn : (s.tickFree).minsvn = s.minsvn := rfl
@[simp] theorem State.tickFree_actsvn : (s.tickFree).actsvn = s.actsvn := rfl
@[simp] theorem State.tickFree_attaddr : (s.tickFree).attaddr = s.attaddr := rfl
@[simp] theorem State.tickFree_attbusy : (s.tickFree).attbusy = s.attbusy := rfl
@[simp] theorem State.tickFree_ceThresh : (s.tickFree).ceThresh = s.ceThresh := rfl
@[simp] theorem State.tickFree_critTemp : (s.tickFree).critTemp = s.critTemp := rfl
@[simp] theorem State.tickFree_exitTemp : (s.tickFree).exitTemp = s.exitTemp := rfl

/-! `freeEngines` -/

@[simp] theorem State.freeEngines_cycle (i : Nat) : (s.freeEngines i).cycle = s.cycle := rfl
@[simp] theorem State.freeEngines_cur (i : Nat) : (s.freeEngines i).cur = s.cur := rfl
@[simp] theorem State.freeEngines_agenda (i : Nat) : (s.freeEngines i).agenda = s.agenda := rfl
@[simp] theorem State.freeEngines_freeCtr (i : Nat) : (s.freeEngines i).freeCtr = s.freeCtr := rfl
@[simp] theorem State.freeEngines_nextTid (i : Nat) : (s.freeEngines i).nextTid = s.nextTid := rfl
@[simp] theorem State.freeEngines_nextId (i : Nat) : (s.freeEngines i).nextId = s.nextId := rfl
@[simp] theorem State.freeEngines_lastNum (i : Nat) : (s.freeEngines i).lastNum = s.lastNum := rfl
@[simp] theorem State.freeEngines_threads (i : Nat) : (s.freeEngines i).threads = s.threads := rfl
@[simp] theorem State.freeEngines_jobs (i : Nat) : (s.freeEngines i).jobs = s.jobs := rfl
@[simp] theorem State.freeEngines_cores (i : Nat) : (s.freeEngines i).cores = s.cores := rfl
@[simp] theorem State.freeEngines_fwcores (i : Nat) : (s.freeEngines i).fwcores = s.fwcores := rfl
@[simp] theorem State.freeEngines_hbm (i : Nat) : (s.freeEngines i).hbm = s.hbm := rfl
@[simp] theorem State.freeEngines_mem (i : Nat) : (s.freeEngines i).mem = s.mem := rfl
@[simp] theorem State.freeEngines_poison (i : Nat) : (s.freeEngines i).poison = s.poison := rfl
@[simp] theorem State.freeEngines_tlb (i : Nat) : (s.freeEngines i).tlb = s.tlb := rfl
@[simp] theorem State.freeEngines_icache (i : Nat) : (s.freeEngines i).icache = s.icache := rfl
@[simp] theorem State.freeEngines_icacheUE (i : Nat) : (s.freeEngines i).icacheUE = s.icacheUE := rfl
@[simp] theorem State.freeEngines_stores (i : Nat) : (s.freeEngines i).stores = s.stores := rfl
@[simp] theorem State.freeEngines_race (i : Nat) : (s.freeEngines i).race = s.race := rfl
@[simp] theorem State.freeEngines_spillTold (i : Nat) : (s.freeEngines i).spillTold = s.spillTold := rfl
@[simp] theorem State.freeEngines_cleared (i : Nat) : (s.freeEngines i).cleared = s.cleared := rfl
@[simp] theorem State.freeEngines_noteOps (i : Nat) : (s.freeEngines i).noteOps = s.noteOps := rfl
@[simp] theorem State.freeEngines_tails (i : Nat) : (s.freeEngines i).tails = s.tails := rfl
@[simp] theorem State.freeEngines_faults (i : Nat) : (s.freeEngines i).faults = s.faults := rfl
@[simp] theorem State.freeEngines_qwaits (i : Nat) : (s.freeEngines i).qwaits = s.qwaits := rfl
@[simp] theorem State.freeEngines_pipelines (i : Nat) : (s.freeEngines i).pipelines = s.pipelines := rfl
@[simp] theorem State.freeEngines_queries (i : Nat) : (s.freeEngines i).queries = s.queries := rfl
@[simp] theorem State.freeEngines_streams (i : Nat) : (s.freeEngines i).streams = s.streams := rfl
@[simp] theorem State.freeEngines_funcs (i : Nat) : (s.freeEngines i).funcs = s.funcs := rfl
@[simp] theorem State.freeEngines_hostMem (i : Nat) : (s.freeEngines i).hostMem = s.hostMem := rfl
@[simp] theorem State.freeEngines_chip (i : Nat) : (s.freeEngines i).chip = s.chip := rfl
@[simp] theorem State.freeEngines_udpPort (i : Nat) : (s.freeEngines i).udpPort = s.udpPort := rfl
@[simp] theorem State.freeEngines_peers (i : Nat) : (s.freeEngines i).peers = s.peers := rfl
@[simp] theorem State.freeEngines_grants (i : Nat) : (s.freeEngines i).grants = s.grants := rfl
@[simp] theorem State.freeEngines_portsDown (i : Nat) : (s.freeEngines i).portsDown = s.portsDown := rfl
@[simp] theorem State.freeEngines_putsIn (i : Nat) : (s.freeEngines i).putsIn = s.putsIn := rfl
@[simp] theorem State.freeEngines_powerLimit (i : Nat) : (s.freeEngines i).powerLimit = s.powerLimit := rfl
@[simp] theorem State.freeEngines_duty (i : Nat) : (s.freeEngines i).duty = s.duty := rfl
@[simp] theorem State.freeEngines_powerSteps (i : Nat) : (s.freeEngines i).powerSteps = s.powerSteps := rfl
@[simp] theorem State.freeEngines_stage (i : Nat) : (s.freeEngines i).stage = s.stage := rfl
@[simp] theorem State.freeEngines_booted (i : Nat) : (s.freeEngines i).booted = s.booted := rfl
@[simp] theorem State.freeEngines_image (i : Nat) : (s.freeEngines i).image = s.image := rfl
@[simp] theorem State.freeEngines_staged (i : Nat) : (s.freeEngines i).staged = s.staged := rfl
@[simp] theorem State.freeEngines_stagedLen (i : Nat) : (s.freeEngines i).stagedLen = s.stagedLen := rfl
@[simp] theorem State.freeEngines_quiesce (i : Nat) : (s.freeEngines i).quiesce = s.quiesce := rfl
@[simp] theorem State.freeEngines_mboxSeq (i : Nat) : (s.freeEngines i).mboxSeq = s.mboxSeq := rfl
@[simp] theorem State.freeEngines_mboxStatus (i : Nat) : (s.freeEngines i).mboxStatus = s.mboxStatus := rfl
@[simp] theorem State.freeEngines_mboxStage (i : Nat) : (s.freeEngines i).mboxStage = s.mboxStage := rfl
@[simp] theorem State.freeEngines_mboxBody (i : Nat) : (s.freeEngines i).mboxBody = s.mboxBody := rfl
@[simp] theorem State.freeEngines_mboxBuf (i : Nat) : (s.freeEngines i).mboxBuf = s.mboxBuf := rfl
@[simp] theorem State.freeEngines_bootFail (i : Nat) : (s.freeEngines i).bootFail = s.bootFail := rfl
@[simp] theorem State.freeEngines_stacksFailed (i : Nat) : (s.freeEngines i).stacksFailed = s.stacksFailed := rfl
@[simp] theorem State.freeEngines_migrations (i : Nat) : (s.freeEngines i).migrations = s.migrations := rfl
@[simp] theorem State.freeEngines_ceCores (i : Nat) : (s.freeEngines i).ceCores = s.ceCores := rfl
@[simp] theorem State.freeEngines_ceTiles (i : Nat) : (s.freeEngines i).ceTiles = s.ceTiles := rfl
@[simp] theorem State.freeEngines_keydig (i : Nat) : (s.freeEngines i).keydig = s.keydig := rfl
@[simp] theorem State.freeEngines_minsvn (i : Nat) : (s.freeEngines i).minsvn = s.minsvn := rfl
@[simp] theorem State.freeEngines_actsvn (i : Nat) : (s.freeEngines i).actsvn = s.actsvn := rfl
@[simp] theorem State.freeEngines_attaddr (i : Nat) : (s.freeEngines i).attaddr = s.attaddr := rfl
@[simp] theorem State.freeEngines_attbusy (i : Nat) : (s.freeEngines i).attbusy = s.attbusy := rfl
@[simp] theorem State.freeEngines_ceThresh (i : Nat) : (s.freeEngines i).ceThresh = s.ceThresh := rfl
@[simp] theorem State.freeEngines_critTemp (i : Nat) : (s.freeEngines i).critTemp = s.critTemp := rfl
@[simp] theorem State.freeEngines_exitTemp (i : Nat) : (s.freeEngines i).exitTemp = s.exitTemp := rfl

/-! `flushClosings` -/

@[simp] theorem State.flushClosings_cycle : (s.flushClosings).cycle = s.cycle := rfl
@[simp] theorem State.flushClosings_cur : (s.flushClosings).cur = s.cur := rfl
@[simp] theorem State.flushClosings_agenda : (s.flushClosings).agenda = s.agenda := rfl
@[simp] theorem State.flushClosings_freeCtr : (s.flushClosings).freeCtr = s.freeCtr := rfl
@[simp] theorem State.flushClosings_nextTid : (s.flushClosings).nextTid = s.nextTid := rfl
@[simp] theorem State.flushClosings_nextId : (s.flushClosings).nextId = s.nextId := rfl
@[simp] theorem State.flushClosings_lastNum : (s.flushClosings).lastNum = s.lastNum := rfl
@[simp] theorem State.flushClosings_threads : (s.flushClosings).threads = s.threads := rfl
@[simp] theorem State.flushClosings_jobs : (s.flushClosings).jobs = s.jobs := rfl
@[simp] theorem State.flushClosings_cores : (s.flushClosings).cores = s.cores := rfl
@[simp] theorem State.flushClosings_clusters : (s.flushClosings).clusters = s.clusters := rfl
@[simp] theorem State.flushClosings_fwcores : (s.flushClosings).fwcores = s.fwcores := rfl
@[simp] theorem State.flushClosings_hbm : (s.flushClosings).hbm = s.hbm := rfl
@[simp] theorem State.flushClosings_mem : (s.flushClosings).mem = s.mem := rfl
@[simp] theorem State.flushClosings_poison : (s.flushClosings).poison = s.poison := rfl
@[simp] theorem State.flushClosings_tlb : (s.flushClosings).tlb = s.tlb := rfl
@[simp] theorem State.flushClosings_icache : (s.flushClosings).icache = s.icache := rfl
@[simp] theorem State.flushClosings_icacheUE : (s.flushClosings).icacheUE = s.icacheUE := rfl
@[simp] theorem State.flushClosings_stores : (s.flushClosings).stores = s.stores := rfl
@[simp] theorem State.flushClosings_race : (s.flushClosings).race = s.race := rfl
@[simp] theorem State.flushClosings_spillTold : (s.flushClosings).spillTold = s.spillTold := rfl
@[simp] theorem State.flushClosings_cleared : (s.flushClosings).cleared = s.cleared := rfl
@[simp] theorem State.flushClosings_noteOps : (s.flushClosings).noteOps = s.noteOps := rfl
@[simp] theorem State.flushClosings_tails : (s.flushClosings).tails = s.tails := rfl
@[simp] theorem State.flushClosings_faults : (s.flushClosings).faults = s.faults := rfl
@[simp] theorem State.flushClosings_qwaits : (s.flushClosings).qwaits = s.qwaits := rfl
@[simp] theorem State.flushClosings_queries : (s.flushClosings).queries = s.queries := rfl
@[simp] theorem State.flushClosings_streams : (s.flushClosings).streams = s.streams := rfl
@[simp] theorem State.flushClosings_funcs : (s.flushClosings).funcs = s.funcs := rfl
@[simp] theorem State.flushClosings_hostMem : (s.flushClosings).hostMem = s.hostMem := rfl
@[simp] theorem State.flushClosings_chip : (s.flushClosings).chip = s.chip := rfl
@[simp] theorem State.flushClosings_udpPort : (s.flushClosings).udpPort = s.udpPort := rfl
@[simp] theorem State.flushClosings_peers : (s.flushClosings).peers = s.peers := rfl
@[simp] theorem State.flushClosings_grants : (s.flushClosings).grants = s.grants := rfl
@[simp] theorem State.flushClosings_portsDown : (s.flushClosings).portsDown = s.portsDown := rfl
@[simp] theorem State.flushClosings_putsIn : (s.flushClosings).putsIn = s.putsIn := rfl
@[simp] theorem State.flushClosings_powerLimit : (s.flushClosings).powerLimit = s.powerLimit := rfl
@[simp] theorem State.flushClosings_duty : (s.flushClosings).duty = s.duty := rfl
@[simp] theorem State.flushClosings_powerSteps : (s.flushClosings).powerSteps = s.powerSteps := rfl
@[simp] theorem State.flushClosings_stage : (s.flushClosings).stage = s.stage := rfl
@[simp] theorem State.flushClosings_booted : (s.flushClosings).booted = s.booted := rfl
@[simp] theorem State.flushClosings_image : (s.flushClosings).image = s.image := rfl
@[simp] theorem State.flushClosings_staged : (s.flushClosings).staged = s.staged := rfl
@[simp] theorem State.flushClosings_stagedLen : (s.flushClosings).stagedLen = s.stagedLen := rfl
@[simp] theorem State.flushClosings_quiesce : (s.flushClosings).quiesce = s.quiesce := rfl
@[simp] theorem State.flushClosings_mboxSeq : (s.flushClosings).mboxSeq = s.mboxSeq := rfl
@[simp] theorem State.flushClosings_mboxStatus : (s.flushClosings).mboxStatus = s.mboxStatus := rfl
@[simp] theorem State.flushClosings_mboxStage : (s.flushClosings).mboxStage = s.mboxStage := rfl
@[simp] theorem State.flushClosings_mboxBody : (s.flushClosings).mboxBody = s.mboxBody := rfl
@[simp] theorem State.flushClosings_mboxBuf : (s.flushClosings).mboxBuf = s.mboxBuf := rfl
@[simp] theorem State.flushClosings_bootFail : (s.flushClosings).bootFail = s.bootFail := rfl
@[simp] theorem State.flushClosings_stacksFailed : (s.flushClosings).stacksFailed = s.stacksFailed := rfl
@[simp] theorem State.flushClosings_migrations : (s.flushClosings).migrations = s.migrations := rfl
@[simp] theorem State.flushClosings_ceCores : (s.flushClosings).ceCores = s.ceCores := rfl
@[simp] theorem State.flushClosings_ceTiles : (s.flushClosings).ceTiles = s.ceTiles := rfl
@[simp] theorem State.flushClosings_keydig : (s.flushClosings).keydig = s.keydig := rfl
@[simp] theorem State.flushClosings_minsvn : (s.flushClosings).minsvn = s.minsvn := rfl
@[simp] theorem State.flushClosings_actsvn : (s.flushClosings).actsvn = s.actsvn := rfl
@[simp] theorem State.flushClosings_attaddr : (s.flushClosings).attaddr = s.attaddr := rfl
@[simp] theorem State.flushClosings_attbusy : (s.flushClosings).attbusy = s.attbusy := rfl
@[simp] theorem State.flushClosings_ceThresh : (s.flushClosings).ceThresh = s.ceThresh := rfl
@[simp] theorem State.flushClosings_critTemp : (s.flushClosings).critTemp = s.critTemp := rfl
@[simp] theorem State.flushClosings_exitTemp : (s.flushClosings).exitTemp = s.exitTemp := rfl

/-! `leaveGroups` -/

@[simp] theorem State.leaveGroups_cycle (t : Thread) (k : Bool) : (s.leaveGroups t k).cycle = s.cycle := rfl
@[simp] theorem State.leaveGroups_cur (t : Thread) (k : Bool) : (s.leaveGroups t k).cur = s.cur := rfl
@[simp] theorem State.leaveGroups_agenda (t : Thread) (k : Bool) : (s.leaveGroups t k).agenda = s.agenda := rfl
@[simp] theorem State.leaveGroups_freeCtr (t : Thread) (k : Bool) : (s.leaveGroups t k).freeCtr = s.freeCtr := rfl
@[simp] theorem State.leaveGroups_nextTid (t : Thread) (k : Bool) : (s.leaveGroups t k).nextTid = s.nextTid := rfl
@[simp] theorem State.leaveGroups_nextId (t : Thread) (k : Bool) : (s.leaveGroups t k).nextId = s.nextId := rfl
@[simp] theorem State.leaveGroups_lastNum (t : Thread) (k : Bool) : (s.leaveGroups t k).lastNum = s.lastNum := rfl
@[simp] theorem State.leaveGroups_threads (t : Thread) (k : Bool) : (s.leaveGroups t k).threads = s.threads := rfl
@[simp] theorem State.leaveGroups_jobs (t : Thread) (k : Bool) : (s.leaveGroups t k).jobs = s.jobs := rfl
@[simp] theorem State.leaveGroups_cores (t : Thread) (k : Bool) : (s.leaveGroups t k).cores = s.cores := rfl
@[simp] theorem State.leaveGroups_fwcores (t : Thread) (k : Bool) : (s.leaveGroups t k).fwcores = s.fwcores := rfl
@[simp] theorem State.leaveGroups_hbm (t : Thread) (k : Bool) : (s.leaveGroups t k).hbm = s.hbm := rfl
@[simp] theorem State.leaveGroups_mem (t : Thread) (k : Bool) : (s.leaveGroups t k).mem = s.mem := rfl
@[simp] theorem State.leaveGroups_poison (t : Thread) (k : Bool) : (s.leaveGroups t k).poison = s.poison := rfl
@[simp] theorem State.leaveGroups_tlb (t : Thread) (k : Bool) : (s.leaveGroups t k).tlb = s.tlb := rfl
@[simp] theorem State.leaveGroups_icache (t : Thread) (k : Bool) : (s.leaveGroups t k).icache = s.icache := rfl
@[simp] theorem State.leaveGroups_icacheUE (t : Thread) (k : Bool) : (s.leaveGroups t k).icacheUE = s.icacheUE := rfl
@[simp] theorem State.leaveGroups_stores (t : Thread) (k : Bool) : (s.leaveGroups t k).stores = s.stores := rfl
@[simp] theorem State.leaveGroups_race (t : Thread) (k : Bool) : (s.leaveGroups t k).race = s.race := rfl
@[simp] theorem State.leaveGroups_spillTold (t : Thread) (k : Bool) : (s.leaveGroups t k).spillTold = s.spillTold := rfl
@[simp] theorem State.leaveGroups_cleared (t : Thread) (k : Bool) : (s.leaveGroups t k).cleared = s.cleared := rfl
@[simp] theorem State.leaveGroups_noteOps (t : Thread) (k : Bool) : (s.leaveGroups t k).noteOps = s.noteOps := rfl
@[simp] theorem State.leaveGroups_tails (t : Thread) (k : Bool) : (s.leaveGroups t k).tails = s.tails := rfl
@[simp] theorem State.leaveGroups_faults (t : Thread) (k : Bool) : (s.leaveGroups t k).faults = s.faults := rfl
@[simp] theorem State.leaveGroups_qwaits (t : Thread) (k : Bool) : (s.leaveGroups t k).qwaits = s.qwaits := rfl
@[simp] theorem State.leaveGroups_queries (t : Thread) (k : Bool) : (s.leaveGroups t k).queries = s.queries := rfl
@[simp] theorem State.leaveGroups_streams (t : Thread) (k : Bool) : (s.leaveGroups t k).streams = s.streams := rfl
@[simp] theorem State.leaveGroups_funcs (t : Thread) (k : Bool) : (s.leaveGroups t k).funcs = s.funcs := rfl
@[simp] theorem State.leaveGroups_hostMem (t : Thread) (k : Bool) : (s.leaveGroups t k).hostMem = s.hostMem := rfl
@[simp] theorem State.leaveGroups_chip (t : Thread) (k : Bool) : (s.leaveGroups t k).chip = s.chip := rfl
@[simp] theorem State.leaveGroups_udpPort (t : Thread) (k : Bool) : (s.leaveGroups t k).udpPort = s.udpPort := rfl
@[simp] theorem State.leaveGroups_peers (t : Thread) (k : Bool) : (s.leaveGroups t k).peers = s.peers := rfl
@[simp] theorem State.leaveGroups_grants (t : Thread) (k : Bool) : (s.leaveGroups t k).grants = s.grants := rfl
@[simp] theorem State.leaveGroups_portsDown (t : Thread) (k : Bool) : (s.leaveGroups t k).portsDown = s.portsDown := rfl
@[simp] theorem State.leaveGroups_putsIn (t : Thread) (k : Bool) : (s.leaveGroups t k).putsIn = s.putsIn := rfl
@[simp] theorem State.leaveGroups_powerLimit (t : Thread) (k : Bool) : (s.leaveGroups t k).powerLimit = s.powerLimit := rfl
@[simp] theorem State.leaveGroups_duty (t : Thread) (k : Bool) : (s.leaveGroups t k).duty = s.duty := rfl
@[simp] theorem State.leaveGroups_powerSteps (t : Thread) (k : Bool) : (s.leaveGroups t k).powerSteps = s.powerSteps := rfl
@[simp] theorem State.leaveGroups_stage (t : Thread) (k : Bool) : (s.leaveGroups t k).stage = s.stage := rfl
@[simp] theorem State.leaveGroups_booted (t : Thread) (k : Bool) : (s.leaveGroups t k).booted = s.booted := rfl
@[simp] theorem State.leaveGroups_image (t : Thread) (k : Bool) : (s.leaveGroups t k).image = s.image := rfl
@[simp] theorem State.leaveGroups_staged (t : Thread) (k : Bool) : (s.leaveGroups t k).staged = s.staged := rfl
@[simp] theorem State.leaveGroups_stagedLen (t : Thread) (k : Bool) : (s.leaveGroups t k).stagedLen = s.stagedLen := rfl
@[simp] theorem State.leaveGroups_quiesce (t : Thread) (k : Bool) : (s.leaveGroups t k).quiesce = s.quiesce := rfl
@[simp] theorem State.leaveGroups_mboxSeq (t : Thread) (k : Bool) : (s.leaveGroups t k).mboxSeq = s.mboxSeq := rfl
@[simp] theorem State.leaveGroups_mboxStatus (t : Thread) (k : Bool) : (s.leaveGroups t k).mboxStatus = s.mboxStatus := rfl
@[simp] theorem State.leaveGroups_mboxStage (t : Thread) (k : Bool) : (s.leaveGroups t k).mboxStage = s.mboxStage := rfl
@[simp] theorem State.leaveGroups_mboxBody (t : Thread) (k : Bool) : (s.leaveGroups t k).mboxBody = s.mboxBody := rfl
@[simp] theorem State.leaveGroups_mboxBuf (t : Thread) (k : Bool) : (s.leaveGroups t k).mboxBuf = s.mboxBuf := rfl
@[simp] theorem State.leaveGroups_bootFail (t : Thread) (k : Bool) : (s.leaveGroups t k).bootFail = s.bootFail := rfl
@[simp] theorem State.leaveGroups_stacksFailed (t : Thread) (k : Bool) : (s.leaveGroups t k).stacksFailed = s.stacksFailed := rfl
@[simp] theorem State.leaveGroups_migrations (t : Thread) (k : Bool) : (s.leaveGroups t k).migrations = s.migrations := rfl
@[simp] theorem State.leaveGroups_ceCores (t : Thread) (k : Bool) : (s.leaveGroups t k).ceCores = s.ceCores := rfl
@[simp] theorem State.leaveGroups_ceTiles (t : Thread) (k : Bool) : (s.leaveGroups t k).ceTiles = s.ceTiles := rfl
@[simp] theorem State.leaveGroups_keydig (t : Thread) (k : Bool) : (s.leaveGroups t k).keydig = s.keydig := rfl
@[simp] theorem State.leaveGroups_minsvn (t : Thread) (k : Bool) : (s.leaveGroups t k).minsvn = s.minsvn := rfl
@[simp] theorem State.leaveGroups_actsvn (t : Thread) (k : Bool) : (s.leaveGroups t k).actsvn = s.actsvn := rfl
@[simp] theorem State.leaveGroups_attaddr (t : Thread) (k : Bool) : (s.leaveGroups t k).attaddr = s.attaddr := rfl
@[simp] theorem State.leaveGroups_attbusy (t : Thread) (k : Bool) : (s.leaveGroups t k).attbusy = s.attbusy := rfl
@[simp] theorem State.leaveGroups_ceThresh (t : Thread) (k : Bool) : (s.leaveGroups t k).ceThresh = s.ceThresh := rfl
@[simp] theorem State.leaveGroups_critTemp (t : Thread) (k : Bool) : (s.leaveGroups t k).critTemp = s.critTemp := rfl
@[simp] theorem State.leaveGroups_exitTemp (t : Thread) (k : Bool) : (s.leaveGroups t k).exitTemp = s.exitTemp := rfl

/-! `spillEased` -/

@[simp] theorem State.spillEased_cycle : (s.spillEased).cycle = s.cycle := rfl
@[simp] theorem State.spillEased_cur : (s.spillEased).cur = s.cur := rfl
@[simp] theorem State.spillEased_agenda : (s.spillEased).agenda = s.agenda := rfl
@[simp] theorem State.spillEased_freeCtr : (s.spillEased).freeCtr = s.freeCtr := rfl
@[simp] theorem State.spillEased_nextTid : (s.spillEased).nextTid = s.nextTid := rfl
@[simp] theorem State.spillEased_nextId : (s.spillEased).nextId = s.nextId := rfl
@[simp] theorem State.spillEased_lastNum : (s.spillEased).lastNum = s.lastNum := rfl
@[simp] theorem State.spillEased_threads : (s.spillEased).threads = s.threads := rfl
@[simp] theorem State.spillEased_jobs : (s.spillEased).jobs = s.jobs := rfl
@[simp] theorem State.spillEased_cores : (s.spillEased).cores = s.cores := rfl
@[simp] theorem State.spillEased_clusters : (s.spillEased).clusters = s.clusters := rfl
@[simp] theorem State.spillEased_fwcores : (s.spillEased).fwcores = s.fwcores := rfl
@[simp] theorem State.spillEased_hbm : (s.spillEased).hbm = s.hbm := rfl
@[simp] theorem State.spillEased_mem : (s.spillEased).mem = s.mem := rfl
@[simp] theorem State.spillEased_poison : (s.spillEased).poison = s.poison := rfl
@[simp] theorem State.spillEased_tlb : (s.spillEased).tlb = s.tlb := rfl
@[simp] theorem State.spillEased_icache : (s.spillEased).icache = s.icache := rfl
@[simp] theorem State.spillEased_icacheUE : (s.spillEased).icacheUE = s.icacheUE := rfl
@[simp] theorem State.spillEased_stores : (s.spillEased).stores = s.stores := rfl
@[simp] theorem State.spillEased_race : (s.spillEased).race = s.race := rfl
@[simp] theorem State.spillEased_cleared : (s.spillEased).cleared = s.cleared := rfl
@[simp] theorem State.spillEased_noteOps : (s.spillEased).noteOps = s.noteOps := rfl
@[simp] theorem State.spillEased_tails : (s.spillEased).tails = s.tails := rfl
@[simp] theorem State.spillEased_faults : (s.spillEased).faults = s.faults := rfl
@[simp] theorem State.spillEased_qwaits : (s.spillEased).qwaits = s.qwaits := rfl
@[simp] theorem State.spillEased_pipelines : (s.spillEased).pipelines = s.pipelines := rfl
@[simp] theorem State.spillEased_queries : (s.spillEased).queries = s.queries := rfl
@[simp] theorem State.spillEased_streams : (s.spillEased).streams = s.streams := rfl
@[simp] theorem State.spillEased_funcs : (s.spillEased).funcs = s.funcs := rfl
@[simp] theorem State.spillEased_hostMem : (s.spillEased).hostMem = s.hostMem := rfl
@[simp] theorem State.spillEased_chip : (s.spillEased).chip = s.chip := rfl
@[simp] theorem State.spillEased_udpPort : (s.spillEased).udpPort = s.udpPort := rfl
@[simp] theorem State.spillEased_peers : (s.spillEased).peers = s.peers := rfl
@[simp] theorem State.spillEased_grants : (s.spillEased).grants = s.grants := rfl
@[simp] theorem State.spillEased_portsDown : (s.spillEased).portsDown = s.portsDown := rfl
@[simp] theorem State.spillEased_putsIn : (s.spillEased).putsIn = s.putsIn := rfl
@[simp] theorem State.spillEased_powerLimit : (s.spillEased).powerLimit = s.powerLimit := rfl
@[simp] theorem State.spillEased_duty : (s.spillEased).duty = s.duty := rfl
@[simp] theorem State.spillEased_powerSteps : (s.spillEased).powerSteps = s.powerSteps := rfl
@[simp] theorem State.spillEased_stage : (s.spillEased).stage = s.stage := rfl
@[simp] theorem State.spillEased_booted : (s.spillEased).booted = s.booted := rfl
@[simp] theorem State.spillEased_image : (s.spillEased).image = s.image := rfl
@[simp] theorem State.spillEased_staged : (s.spillEased).staged = s.staged := rfl
@[simp] theorem State.spillEased_stagedLen : (s.spillEased).stagedLen = s.stagedLen := rfl
@[simp] theorem State.spillEased_quiesce : (s.spillEased).quiesce = s.quiesce := rfl
@[simp] theorem State.spillEased_mboxSeq : (s.spillEased).mboxSeq = s.mboxSeq := rfl
@[simp] theorem State.spillEased_mboxStatus : (s.spillEased).mboxStatus = s.mboxStatus := rfl
@[simp] theorem State.spillEased_mboxStage : (s.spillEased).mboxStage = s.mboxStage := rfl
@[simp] theorem State.spillEased_mboxBody : (s.spillEased).mboxBody = s.mboxBody := rfl
@[simp] theorem State.spillEased_mboxBuf : (s.spillEased).mboxBuf = s.mboxBuf := rfl
@[simp] theorem State.spillEased_bootFail : (s.spillEased).bootFail = s.bootFail := rfl
@[simp] theorem State.spillEased_stacksFailed : (s.spillEased).stacksFailed = s.stacksFailed := rfl
@[simp] theorem State.spillEased_migrations : (s.spillEased).migrations = s.migrations := rfl
@[simp] theorem State.spillEased_ceCores : (s.spillEased).ceCores = s.ceCores := rfl
@[simp] theorem State.spillEased_ceTiles : (s.spillEased).ceTiles = s.ceTiles := rfl
@[simp] theorem State.spillEased_keydig : (s.spillEased).keydig = s.keydig := rfl
@[simp] theorem State.spillEased_minsvn : (s.spillEased).minsvn = s.minsvn := rfl
@[simp] theorem State.spillEased_actsvn : (s.spillEased).actsvn = s.actsvn := rfl
@[simp] theorem State.spillEased_attaddr : (s.spillEased).attaddr = s.attaddr := rfl
@[simp] theorem State.spillEased_attbusy : (s.spillEased).attbusy = s.attbusy := rfl
@[simp] theorem State.spillEased_ceThresh : (s.spillEased).ceThresh = s.ceThresh := rfl
@[simp] theorem State.spillEased_critTemp : (s.spillEased).critTemp = s.critTemp := rfl
@[simp] theorem State.spillEased_exitTemp : (s.spillEased).exitTemp = s.exitTemp := rfl

/-! `forgetRaces` -/

@[simp] theorem State.forgetRaces_cycle (i : Nat) : (s.forgetRaces i).cycle = s.cycle := rfl
@[simp] theorem State.forgetRaces_cur (i : Nat) : (s.forgetRaces i).cur = s.cur := rfl
@[simp] theorem State.forgetRaces_agenda (i : Nat) : (s.forgetRaces i).agenda = s.agenda := rfl
@[simp] theorem State.forgetRaces_freeCtr (i : Nat) : (s.forgetRaces i).freeCtr = s.freeCtr := rfl
@[simp] theorem State.forgetRaces_nextTid (i : Nat) : (s.forgetRaces i).nextTid = s.nextTid := rfl
@[simp] theorem State.forgetRaces_nextId (i : Nat) : (s.forgetRaces i).nextId = s.nextId := rfl
@[simp] theorem State.forgetRaces_lastNum (i : Nat) : (s.forgetRaces i).lastNum = s.lastNum := rfl
@[simp] theorem State.forgetRaces_threads (i : Nat) : (s.forgetRaces i).threads = s.threads := rfl
@[simp] theorem State.forgetRaces_jobs (i : Nat) : (s.forgetRaces i).jobs = s.jobs := rfl
@[simp] theorem State.forgetRaces_cores (i : Nat) : (s.forgetRaces i).cores = s.cores := rfl
@[simp] theorem State.forgetRaces_clusters (i : Nat) : (s.forgetRaces i).clusters = s.clusters := rfl
@[simp] theorem State.forgetRaces_fwcores (i : Nat) : (s.forgetRaces i).fwcores = s.fwcores := rfl
@[simp] theorem State.forgetRaces_hbm (i : Nat) : (s.forgetRaces i).hbm = s.hbm := rfl
@[simp] theorem State.forgetRaces_mem (i : Nat) : (s.forgetRaces i).mem = s.mem := rfl
@[simp] theorem State.forgetRaces_poison (i : Nat) : (s.forgetRaces i).poison = s.poison := rfl
@[simp] theorem State.forgetRaces_tlb (i : Nat) : (s.forgetRaces i).tlb = s.tlb := rfl
@[simp] theorem State.forgetRaces_icache (i : Nat) : (s.forgetRaces i).icache = s.icache := rfl
@[simp] theorem State.forgetRaces_icacheUE (i : Nat) : (s.forgetRaces i).icacheUE = s.icacheUE := rfl
@[simp] theorem State.forgetRaces_stores (i : Nat) : (s.forgetRaces i).stores = s.stores := rfl
@[simp] theorem State.forgetRaces_cleared (i : Nat) : (s.forgetRaces i).cleared = s.cleared := rfl
@[simp] theorem State.forgetRaces_noteOps (i : Nat) : (s.forgetRaces i).noteOps = s.noteOps := rfl
@[simp] theorem State.forgetRaces_tails (i : Nat) : (s.forgetRaces i).tails = s.tails := rfl
@[simp] theorem State.forgetRaces_faults (i : Nat) : (s.forgetRaces i).faults = s.faults := rfl
@[simp] theorem State.forgetRaces_qwaits (i : Nat) : (s.forgetRaces i).qwaits = s.qwaits := rfl
@[simp] theorem State.forgetRaces_pipelines (i : Nat) : (s.forgetRaces i).pipelines = s.pipelines := rfl
@[simp] theorem State.forgetRaces_queries (i : Nat) : (s.forgetRaces i).queries = s.queries := rfl
@[simp] theorem State.forgetRaces_streams (i : Nat) : (s.forgetRaces i).streams = s.streams := rfl
@[simp] theorem State.forgetRaces_funcs (i : Nat) : (s.forgetRaces i).funcs = s.funcs := rfl
@[simp] theorem State.forgetRaces_hostMem (i : Nat) : (s.forgetRaces i).hostMem = s.hostMem := rfl
@[simp] theorem State.forgetRaces_chip (i : Nat) : (s.forgetRaces i).chip = s.chip := rfl
@[simp] theorem State.forgetRaces_udpPort (i : Nat) : (s.forgetRaces i).udpPort = s.udpPort := rfl
@[simp] theorem State.forgetRaces_peers (i : Nat) : (s.forgetRaces i).peers = s.peers := rfl
@[simp] theorem State.forgetRaces_grants (i : Nat) : (s.forgetRaces i).grants = s.grants := rfl
@[simp] theorem State.forgetRaces_portsDown (i : Nat) : (s.forgetRaces i).portsDown = s.portsDown := rfl
@[simp] theorem State.forgetRaces_putsIn (i : Nat) : (s.forgetRaces i).putsIn = s.putsIn := rfl
@[simp] theorem State.forgetRaces_powerLimit (i : Nat) : (s.forgetRaces i).powerLimit = s.powerLimit := rfl
@[simp] theorem State.forgetRaces_duty (i : Nat) : (s.forgetRaces i).duty = s.duty := rfl
@[simp] theorem State.forgetRaces_powerSteps (i : Nat) : (s.forgetRaces i).powerSteps = s.powerSteps := rfl
@[simp] theorem State.forgetRaces_stage (i : Nat) : (s.forgetRaces i).stage = s.stage := rfl
@[simp] theorem State.forgetRaces_booted (i : Nat) : (s.forgetRaces i).booted = s.booted := rfl
@[simp] theorem State.forgetRaces_image (i : Nat) : (s.forgetRaces i).image = s.image := rfl
@[simp] theorem State.forgetRaces_staged (i : Nat) : (s.forgetRaces i).staged = s.staged := rfl
@[simp] theorem State.forgetRaces_stagedLen (i : Nat) : (s.forgetRaces i).stagedLen = s.stagedLen := rfl
@[simp] theorem State.forgetRaces_quiesce (i : Nat) : (s.forgetRaces i).quiesce = s.quiesce := rfl
@[simp] theorem State.forgetRaces_mboxSeq (i : Nat) : (s.forgetRaces i).mboxSeq = s.mboxSeq := rfl
@[simp] theorem State.forgetRaces_mboxStatus (i : Nat) : (s.forgetRaces i).mboxStatus = s.mboxStatus := rfl
@[simp] theorem State.forgetRaces_mboxStage (i : Nat) : (s.forgetRaces i).mboxStage = s.mboxStage := rfl
@[simp] theorem State.forgetRaces_mboxBody (i : Nat) : (s.forgetRaces i).mboxBody = s.mboxBody := rfl
@[simp] theorem State.forgetRaces_mboxBuf (i : Nat) : (s.forgetRaces i).mboxBuf = s.mboxBuf := rfl
@[simp] theorem State.forgetRaces_bootFail (i : Nat) : (s.forgetRaces i).bootFail = s.bootFail := rfl
@[simp] theorem State.forgetRaces_stacksFailed (i : Nat) : (s.forgetRaces i).stacksFailed = s.stacksFailed := rfl
@[simp] theorem State.forgetRaces_migrations (i : Nat) : (s.forgetRaces i).migrations = s.migrations := rfl
@[simp] theorem State.forgetRaces_ceCores (i : Nat) : (s.forgetRaces i).ceCores = s.ceCores := rfl
@[simp] theorem State.forgetRaces_ceTiles (i : Nat) : (s.forgetRaces i).ceTiles = s.ceTiles := rfl
@[simp] theorem State.forgetRaces_keydig (i : Nat) : (s.forgetRaces i).keydig = s.keydig := rfl
@[simp] theorem State.forgetRaces_minsvn (i : Nat) : (s.forgetRaces i).minsvn = s.minsvn := rfl
@[simp] theorem State.forgetRaces_actsvn (i : Nat) : (s.forgetRaces i).actsvn = s.actsvn := rfl
@[simp] theorem State.forgetRaces_attaddr (i : Nat) : (s.forgetRaces i).attaddr = s.attaddr := rfl
@[simp] theorem State.forgetRaces_attbusy (i : Nat) : (s.forgetRaces i).attbusy = s.attbusy := rfl
@[simp] theorem State.forgetRaces_ceThresh (i : Nat) : (s.forgetRaces i).ceThresh = s.ceThresh := rfl
@[simp] theorem State.forgetRaces_critTemp (i : Nat) : (s.forgetRaces i).critTemp = s.critTemp := rfl
@[simp] theorem State.forgetRaces_exitTemp (i : Nat) : (s.forgetRaces i).exitTemp = s.exitTemp := rfl

/-! `sendNote` -/

@[simp] theorem State.sendNote_cycle (o : NoteOp) : (s.sendNote o).cycle = s.cycle := rfl
@[simp] theorem State.sendNote_cur (o : NoteOp) : (s.sendNote o).cur = s.cur := rfl
@[simp] theorem State.sendNote_agenda (o : NoteOp) : (s.sendNote o).agenda = s.agenda := rfl
@[simp] theorem State.sendNote_freeCtr (o : NoteOp) : (s.sendNote o).freeCtr = s.freeCtr := rfl
@[simp] theorem State.sendNote_nextTid (o : NoteOp) : (s.sendNote o).nextTid = s.nextTid := rfl
@[simp] theorem State.sendNote_nextId (o : NoteOp) : (s.sendNote o).nextId = s.nextId := rfl
@[simp] theorem State.sendNote_lastNum (o : NoteOp) : (s.sendNote o).lastNum = s.lastNum := rfl
@[simp] theorem State.sendNote_threads (o : NoteOp) : (s.sendNote o).threads = s.threads := rfl
@[simp] theorem State.sendNote_jobs (o : NoteOp) : (s.sendNote o).jobs = s.jobs := rfl
@[simp] theorem State.sendNote_cores (o : NoteOp) : (s.sendNote o).cores = s.cores := rfl
@[simp] theorem State.sendNote_clusters (o : NoteOp) : (s.sendNote o).clusters = s.clusters := rfl
@[simp] theorem State.sendNote_fwcores (o : NoteOp) : (s.sendNote o).fwcores = s.fwcores := rfl
@[simp] theorem State.sendNote_hbm (o : NoteOp) : (s.sendNote o).hbm = s.hbm := rfl
@[simp] theorem State.sendNote_mem (o : NoteOp) : (s.sendNote o).mem = s.mem := rfl
@[simp] theorem State.sendNote_poison (o : NoteOp) : (s.sendNote o).poison = s.poison := rfl
@[simp] theorem State.sendNote_tlb (o : NoteOp) : (s.sendNote o).tlb = s.tlb := rfl
@[simp] theorem State.sendNote_icache (o : NoteOp) : (s.sendNote o).icache = s.icache := rfl
@[simp] theorem State.sendNote_icacheUE (o : NoteOp) : (s.sendNote o).icacheUE = s.icacheUE := rfl
@[simp] theorem State.sendNote_stores (o : NoteOp) : (s.sendNote o).stores = s.stores := rfl
@[simp] theorem State.sendNote_race (o : NoteOp) : (s.sendNote o).race = s.race := rfl
@[simp] theorem State.sendNote_spillTold (o : NoteOp) : (s.sendNote o).spillTold = s.spillTold := rfl
@[simp] theorem State.sendNote_cleared (o : NoteOp) : (s.sendNote o).cleared = s.cleared := rfl
@[simp] theorem State.sendNote_tails (o : NoteOp) : (s.sendNote o).tails = s.tails := rfl
@[simp] theorem State.sendNote_faults (o : NoteOp) : (s.sendNote o).faults = s.faults := rfl
@[simp] theorem State.sendNote_qwaits (o : NoteOp) : (s.sendNote o).qwaits = s.qwaits := rfl
@[simp] theorem State.sendNote_pipelines (o : NoteOp) : (s.sendNote o).pipelines = s.pipelines := rfl
@[simp] theorem State.sendNote_queries (o : NoteOp) : (s.sendNote o).queries = s.queries := rfl
@[simp] theorem State.sendNote_streams (o : NoteOp) : (s.sendNote o).streams = s.streams := rfl
@[simp] theorem State.sendNote_funcs (o : NoteOp) : (s.sendNote o).funcs = s.funcs := rfl
@[simp] theorem State.sendNote_hostMem (o : NoteOp) : (s.sendNote o).hostMem = s.hostMem := rfl
@[simp] theorem State.sendNote_chip (o : NoteOp) : (s.sendNote o).chip = s.chip := rfl
@[simp] theorem State.sendNote_udpPort (o : NoteOp) : (s.sendNote o).udpPort = s.udpPort := rfl
@[simp] theorem State.sendNote_peers (o : NoteOp) : (s.sendNote o).peers = s.peers := rfl
@[simp] theorem State.sendNote_grants (o : NoteOp) : (s.sendNote o).grants = s.grants := rfl
@[simp] theorem State.sendNote_portsDown (o : NoteOp) : (s.sendNote o).portsDown = s.portsDown := rfl
@[simp] theorem State.sendNote_putsIn (o : NoteOp) : (s.sendNote o).putsIn = s.putsIn := rfl
@[simp] theorem State.sendNote_powerLimit (o : NoteOp) : (s.sendNote o).powerLimit = s.powerLimit := rfl
@[simp] theorem State.sendNote_duty (o : NoteOp) : (s.sendNote o).duty = s.duty := rfl
@[simp] theorem State.sendNote_powerSteps (o : NoteOp) : (s.sendNote o).powerSteps = s.powerSteps := rfl
@[simp] theorem State.sendNote_stage (o : NoteOp) : (s.sendNote o).stage = s.stage := rfl
@[simp] theorem State.sendNote_booted (o : NoteOp) : (s.sendNote o).booted = s.booted := rfl
@[simp] theorem State.sendNote_image (o : NoteOp) : (s.sendNote o).image = s.image := rfl
@[simp] theorem State.sendNote_staged (o : NoteOp) : (s.sendNote o).staged = s.staged := rfl
@[simp] theorem State.sendNote_stagedLen (o : NoteOp) : (s.sendNote o).stagedLen = s.stagedLen := rfl
@[simp] theorem State.sendNote_quiesce (o : NoteOp) : (s.sendNote o).quiesce = s.quiesce := rfl
@[simp] theorem State.sendNote_mboxSeq (o : NoteOp) : (s.sendNote o).mboxSeq = s.mboxSeq := rfl
@[simp] theorem State.sendNote_mboxStatus (o : NoteOp) : (s.sendNote o).mboxStatus = s.mboxStatus := rfl
@[simp] theorem State.sendNote_mboxStage (o : NoteOp) : (s.sendNote o).mboxStage = s.mboxStage := rfl
@[simp] theorem State.sendNote_mboxBody (o : NoteOp) : (s.sendNote o).mboxBody = s.mboxBody := rfl
@[simp] theorem State.sendNote_mboxBuf (o : NoteOp) : (s.sendNote o).mboxBuf = s.mboxBuf := rfl
@[simp] theorem State.sendNote_bootFail (o : NoteOp) : (s.sendNote o).bootFail = s.bootFail := rfl
@[simp] theorem State.sendNote_stacksFailed (o : NoteOp) : (s.sendNote o).stacksFailed = s.stacksFailed := rfl
@[simp] theorem State.sendNote_migrations (o : NoteOp) : (s.sendNote o).migrations = s.migrations := rfl
@[simp] theorem State.sendNote_ceCores (o : NoteOp) : (s.sendNote o).ceCores = s.ceCores := rfl
@[simp] theorem State.sendNote_ceTiles (o : NoteOp) : (s.sendNote o).ceTiles = s.ceTiles := rfl
@[simp] theorem State.sendNote_keydig (o : NoteOp) : (s.sendNote o).keydig = s.keydig := rfl
@[simp] theorem State.sendNote_minsvn (o : NoteOp) : (s.sendNote o).minsvn = s.minsvn := rfl
@[simp] theorem State.sendNote_actsvn (o : NoteOp) : (s.sendNote o).actsvn = s.actsvn := rfl
@[simp] theorem State.sendNote_attaddr (o : NoteOp) : (s.sendNote o).attaddr = s.attaddr := rfl
@[simp] theorem State.sendNote_attbusy (o : NoteOp) : (s.sendNote o).attbusy = s.attbusy := rfl
@[simp] theorem State.sendNote_ceThresh (o : NoteOp) : (s.sendNote o).ceThresh = s.ceThresh := rfl
@[simp] theorem State.sendNote_critTemp (o : NoteOp) : (s.sendNote o).critTemp = s.critTemp := rfl
@[simp] theorem State.sendNote_exitTemp (o : NoteOp) : (s.sendNote o).exitTemp = s.exitTemp := rfl

/-! `setRace` -/

@[simp] theorem State.setRace_cycle (e : RaceEnt) : (s.setRace e).cycle = s.cycle := rfl
@[simp] theorem State.setRace_cur (e : RaceEnt) : (s.setRace e).cur = s.cur := rfl
@[simp] theorem State.setRace_agenda (e : RaceEnt) : (s.setRace e).agenda = s.agenda := rfl
@[simp] theorem State.setRace_freeCtr (e : RaceEnt) : (s.setRace e).freeCtr = s.freeCtr := rfl
@[simp] theorem State.setRace_nextTid (e : RaceEnt) : (s.setRace e).nextTid = s.nextTid := rfl
@[simp] theorem State.setRace_nextId (e : RaceEnt) : (s.setRace e).nextId = s.nextId := rfl
@[simp] theorem State.setRace_lastNum (e : RaceEnt) : (s.setRace e).lastNum = s.lastNum := rfl
@[simp] theorem State.setRace_threads (e : RaceEnt) : (s.setRace e).threads = s.threads := rfl
@[simp] theorem State.setRace_jobs (e : RaceEnt) : (s.setRace e).jobs = s.jobs := rfl
@[simp] theorem State.setRace_cores (e : RaceEnt) : (s.setRace e).cores = s.cores := rfl
@[simp] theorem State.setRace_clusters (e : RaceEnt) : (s.setRace e).clusters = s.clusters := rfl
@[simp] theorem State.setRace_fwcores (e : RaceEnt) : (s.setRace e).fwcores = s.fwcores := rfl
@[simp] theorem State.setRace_hbm (e : RaceEnt) : (s.setRace e).hbm = s.hbm := rfl
@[simp] theorem State.setRace_mem (e : RaceEnt) : (s.setRace e).mem = s.mem := rfl
@[simp] theorem State.setRace_poison (e : RaceEnt) : (s.setRace e).poison = s.poison := rfl
@[simp] theorem State.setRace_tlb (e : RaceEnt) : (s.setRace e).tlb = s.tlb := rfl
@[simp] theorem State.setRace_icache (e : RaceEnt) : (s.setRace e).icache = s.icache := rfl
@[simp] theorem State.setRace_icacheUE (e : RaceEnt) : (s.setRace e).icacheUE = s.icacheUE := rfl
@[simp] theorem State.setRace_stores (e : RaceEnt) : (s.setRace e).stores = s.stores := rfl
@[simp] theorem State.setRace_spillTold (e : RaceEnt) : (s.setRace e).spillTold = s.spillTold := rfl
@[simp] theorem State.setRace_cleared (e : RaceEnt) : (s.setRace e).cleared = s.cleared := rfl
@[simp] theorem State.setRace_noteOps (e : RaceEnt) : (s.setRace e).noteOps = s.noteOps := rfl
@[simp] theorem State.setRace_tails (e : RaceEnt) : (s.setRace e).tails = s.tails := rfl
@[simp] theorem State.setRace_faults (e : RaceEnt) : (s.setRace e).faults = s.faults := rfl
@[simp] theorem State.setRace_qwaits (e : RaceEnt) : (s.setRace e).qwaits = s.qwaits := rfl
@[simp] theorem State.setRace_pipelines (e : RaceEnt) : (s.setRace e).pipelines = s.pipelines := rfl
@[simp] theorem State.setRace_queries (e : RaceEnt) : (s.setRace e).queries = s.queries := rfl
@[simp] theorem State.setRace_streams (e : RaceEnt) : (s.setRace e).streams = s.streams := rfl
@[simp] theorem State.setRace_funcs (e : RaceEnt) : (s.setRace e).funcs = s.funcs := rfl
@[simp] theorem State.setRace_hostMem (e : RaceEnt) : (s.setRace e).hostMem = s.hostMem := rfl
@[simp] theorem State.setRace_chip (e : RaceEnt) : (s.setRace e).chip = s.chip := rfl
@[simp] theorem State.setRace_udpPort (e : RaceEnt) : (s.setRace e).udpPort = s.udpPort := rfl
@[simp] theorem State.setRace_peers (e : RaceEnt) : (s.setRace e).peers = s.peers := rfl
@[simp] theorem State.setRace_grants (e : RaceEnt) : (s.setRace e).grants = s.grants := rfl
@[simp] theorem State.setRace_portsDown (e : RaceEnt) : (s.setRace e).portsDown = s.portsDown := rfl
@[simp] theorem State.setRace_putsIn (e : RaceEnt) : (s.setRace e).putsIn = s.putsIn := rfl
@[simp] theorem State.setRace_powerLimit (e : RaceEnt) : (s.setRace e).powerLimit = s.powerLimit := rfl
@[simp] theorem State.setRace_duty (e : RaceEnt) : (s.setRace e).duty = s.duty := rfl
@[simp] theorem State.setRace_powerSteps (e : RaceEnt) : (s.setRace e).powerSteps = s.powerSteps := rfl
@[simp] theorem State.setRace_stage (e : RaceEnt) : (s.setRace e).stage = s.stage := rfl
@[simp] theorem State.setRace_booted (e : RaceEnt) : (s.setRace e).booted = s.booted := rfl
@[simp] theorem State.setRace_image (e : RaceEnt) : (s.setRace e).image = s.image := rfl
@[simp] theorem State.setRace_staged (e : RaceEnt) : (s.setRace e).staged = s.staged := rfl
@[simp] theorem State.setRace_stagedLen (e : RaceEnt) : (s.setRace e).stagedLen = s.stagedLen := rfl
@[simp] theorem State.setRace_quiesce (e : RaceEnt) : (s.setRace e).quiesce = s.quiesce := rfl
@[simp] theorem State.setRace_mboxSeq (e : RaceEnt) : (s.setRace e).mboxSeq = s.mboxSeq := rfl
@[simp] theorem State.setRace_mboxStatus (e : RaceEnt) : (s.setRace e).mboxStatus = s.mboxStatus := rfl
@[simp] theorem State.setRace_mboxStage (e : RaceEnt) : (s.setRace e).mboxStage = s.mboxStage := rfl
@[simp] theorem State.setRace_mboxBody (e : RaceEnt) : (s.setRace e).mboxBody = s.mboxBody := rfl
@[simp] theorem State.setRace_mboxBuf (e : RaceEnt) : (s.setRace e).mboxBuf = s.mboxBuf := rfl
@[simp] theorem State.setRace_bootFail (e : RaceEnt) : (s.setRace e).bootFail = s.bootFail := rfl
@[simp] theorem State.setRace_stacksFailed (e : RaceEnt) : (s.setRace e).stacksFailed = s.stacksFailed := rfl
@[simp] theorem State.setRace_migrations (e : RaceEnt) : (s.setRace e).migrations = s.migrations := rfl
@[simp] theorem State.setRace_ceCores (e : RaceEnt) : (s.setRace e).ceCores = s.ceCores := rfl
@[simp] theorem State.setRace_ceTiles (e : RaceEnt) : (s.setRace e).ceTiles = s.ceTiles := rfl
@[simp] theorem State.setRace_keydig (e : RaceEnt) : (s.setRace e).keydig = s.keydig := rfl
@[simp] theorem State.setRace_minsvn (e : RaceEnt) : (s.setRace e).minsvn = s.minsvn := rfl
@[simp] theorem State.setRace_actsvn (e : RaceEnt) : (s.setRace e).actsvn = s.actsvn := rfl
@[simp] theorem State.setRace_attaddr (e : RaceEnt) : (s.setRace e).attaddr = s.attaddr := rfl
@[simp] theorem State.setRace_attbusy (e : RaceEnt) : (s.setRace e).attbusy = s.attbusy := rfl
@[simp] theorem State.setRace_ceThresh (e : RaceEnt) : (s.setRace e).ceThresh = s.ceThresh := rfl
@[simp] theorem State.setRace_critTemp (e : RaceEnt) : (s.setRace e).critTemp = s.critTemp := rfl
@[simp] theorem State.setRace_exitTemp (e : RaceEnt) : (s.setRace e).exitTemp = s.exitTemp := rfl

/-! `dropCopy` -/

@[simp] theorem State.dropCopy_cycle (i a : Nat) : (s.dropCopy i a).cycle = s.cycle := rfl
@[simp] theorem State.dropCopy_cur (i a : Nat) : (s.dropCopy i a).cur = s.cur := rfl
@[simp] theorem State.dropCopy_agenda (i a : Nat) : (s.dropCopy i a).agenda = s.agenda := rfl
@[simp] theorem State.dropCopy_freeCtr (i a : Nat) : (s.dropCopy i a).freeCtr = s.freeCtr := rfl
@[simp] theorem State.dropCopy_nextTid (i a : Nat) : (s.dropCopy i a).nextTid = s.nextTid := rfl
@[simp] theorem State.dropCopy_nextId (i a : Nat) : (s.dropCopy i a).nextId = s.nextId := rfl
@[simp] theorem State.dropCopy_lastNum (i a : Nat) : (s.dropCopy i a).lastNum = s.lastNum := rfl
@[simp] theorem State.dropCopy_threads (i a : Nat) : (s.dropCopy i a).threads = s.threads := rfl
@[simp] theorem State.dropCopy_jobs (i a : Nat) : (s.dropCopy i a).jobs = s.jobs := rfl
@[simp] theorem State.dropCopy_clusters (i a : Nat) : (s.dropCopy i a).clusters = s.clusters := rfl
@[simp] theorem State.dropCopy_fwcores (i a : Nat) : (s.dropCopy i a).fwcores = s.fwcores := rfl
@[simp] theorem State.dropCopy_hbm (i a : Nat) : (s.dropCopy i a).hbm = s.hbm := rfl
@[simp] theorem State.dropCopy_mem (i a : Nat) : (s.dropCopy i a).mem = s.mem := rfl
@[simp] theorem State.dropCopy_poison (i a : Nat) : (s.dropCopy i a).poison = s.poison := rfl
@[simp] theorem State.dropCopy_tlb (i a : Nat) : (s.dropCopy i a).tlb = s.tlb := rfl
@[simp] theorem State.dropCopy_icache (i a : Nat) : (s.dropCopy i a).icache = s.icache := rfl
@[simp] theorem State.dropCopy_icacheUE (i a : Nat) : (s.dropCopy i a).icacheUE = s.icacheUE := rfl
@[simp] theorem State.dropCopy_stores (i a : Nat) : (s.dropCopy i a).stores = s.stores := rfl
@[simp] theorem State.dropCopy_race (i a : Nat) : (s.dropCopy i a).race = s.race := rfl
@[simp] theorem State.dropCopy_spillTold (i a : Nat) : (s.dropCopy i a).spillTold = s.spillTold := rfl
@[simp] theorem State.dropCopy_cleared (i a : Nat) : (s.dropCopy i a).cleared = s.cleared := rfl
@[simp] theorem State.dropCopy_noteOps (i a : Nat) : (s.dropCopy i a).noteOps = s.noteOps := rfl
@[simp] theorem State.dropCopy_tails (i a : Nat) : (s.dropCopy i a).tails = s.tails := rfl
@[simp] theorem State.dropCopy_faults (i a : Nat) : (s.dropCopy i a).faults = s.faults := rfl
@[simp] theorem State.dropCopy_qwaits (i a : Nat) : (s.dropCopy i a).qwaits = s.qwaits := rfl
@[simp] theorem State.dropCopy_pipelines (i a : Nat) : (s.dropCopy i a).pipelines = s.pipelines := rfl
@[simp] theorem State.dropCopy_queries (i a : Nat) : (s.dropCopy i a).queries = s.queries := rfl
@[simp] theorem State.dropCopy_streams (i a : Nat) : (s.dropCopy i a).streams = s.streams := rfl
@[simp] theorem State.dropCopy_funcs (i a : Nat) : (s.dropCopy i a).funcs = s.funcs := rfl
@[simp] theorem State.dropCopy_hostMem (i a : Nat) : (s.dropCopy i a).hostMem = s.hostMem := rfl
@[simp] theorem State.dropCopy_chip (i a : Nat) : (s.dropCopy i a).chip = s.chip := rfl
@[simp] theorem State.dropCopy_udpPort (i a : Nat) : (s.dropCopy i a).udpPort = s.udpPort := rfl
@[simp] theorem State.dropCopy_peers (i a : Nat) : (s.dropCopy i a).peers = s.peers := rfl
@[simp] theorem State.dropCopy_grants (i a : Nat) : (s.dropCopy i a).grants = s.grants := rfl
@[simp] theorem State.dropCopy_portsDown (i a : Nat) : (s.dropCopy i a).portsDown = s.portsDown := rfl
@[simp] theorem State.dropCopy_putsIn (i a : Nat) : (s.dropCopy i a).putsIn = s.putsIn := rfl
@[simp] theorem State.dropCopy_powerLimit (i a : Nat) : (s.dropCopy i a).powerLimit = s.powerLimit := rfl
@[simp] theorem State.dropCopy_duty (i a : Nat) : (s.dropCopy i a).duty = s.duty := rfl
@[simp] theorem State.dropCopy_powerSteps (i a : Nat) : (s.dropCopy i a).powerSteps = s.powerSteps := rfl
@[simp] theorem State.dropCopy_stage (i a : Nat) : (s.dropCopy i a).stage = s.stage := rfl
@[simp] theorem State.dropCopy_booted (i a : Nat) : (s.dropCopy i a).booted = s.booted := rfl
@[simp] theorem State.dropCopy_image (i a : Nat) : (s.dropCopy i a).image = s.image := rfl
@[simp] theorem State.dropCopy_staged (i a : Nat) : (s.dropCopy i a).staged = s.staged := rfl
@[simp] theorem State.dropCopy_stagedLen (i a : Nat) : (s.dropCopy i a).stagedLen = s.stagedLen := rfl
@[simp] theorem State.dropCopy_quiesce (i a : Nat) : (s.dropCopy i a).quiesce = s.quiesce := rfl
@[simp] theorem State.dropCopy_mboxSeq (i a : Nat) : (s.dropCopy i a).mboxSeq = s.mboxSeq := rfl
@[simp] theorem State.dropCopy_mboxStatus (i a : Nat) : (s.dropCopy i a).mboxStatus = s.mboxStatus := rfl
@[simp] theorem State.dropCopy_mboxStage (i a : Nat) : (s.dropCopy i a).mboxStage = s.mboxStage := rfl
@[simp] theorem State.dropCopy_mboxBody (i a : Nat) : (s.dropCopy i a).mboxBody = s.mboxBody := rfl
@[simp] theorem State.dropCopy_mboxBuf (i a : Nat) : (s.dropCopy i a).mboxBuf = s.mboxBuf := rfl
@[simp] theorem State.dropCopy_bootFail (i a : Nat) : (s.dropCopy i a).bootFail = s.bootFail := rfl
@[simp] theorem State.dropCopy_stacksFailed (i a : Nat) : (s.dropCopy i a).stacksFailed = s.stacksFailed := rfl
@[simp] theorem State.dropCopy_migrations (i a : Nat) : (s.dropCopy i a).migrations = s.migrations := rfl
@[simp] theorem State.dropCopy_ceCores (i a : Nat) : (s.dropCopy i a).ceCores = s.ceCores := rfl
@[simp] theorem State.dropCopy_ceTiles (i a : Nat) : (s.dropCopy i a).ceTiles = s.ceTiles := rfl
@[simp] theorem State.dropCopy_keydig (i a : Nat) : (s.dropCopy i a).keydig = s.keydig := rfl
@[simp] theorem State.dropCopy_minsvn (i a : Nat) : (s.dropCopy i a).minsvn = s.minsvn := rfl
@[simp] theorem State.dropCopy_actsvn (i a : Nat) : (s.dropCopy i a).actsvn = s.actsvn := rfl
@[simp] theorem State.dropCopy_attaddr (i a : Nat) : (s.dropCopy i a).attaddr = s.attaddr := rfl
@[simp] theorem State.dropCopy_attbusy (i a : Nat) : (s.dropCopy i a).attbusy = s.attbusy := rfl
@[simp] theorem State.dropCopy_ceThresh (i a : Nat) : (s.dropCopy i a).ceThresh = s.ceThresh := rfl
@[simp] theorem State.dropCopy_critTemp (i a : Nat) : (s.dropCopy i a).critTemp = s.critTemp := rfl
@[simp] theorem State.dropCopy_exitTemp (i a : Nat) : (s.dropCopy i a).exitTemp = s.exitTemp := rfl

/-! `updateCopy` -/

@[simp] theorem State.updateCopy_cycle (i a : Nat) : (s.updateCopy i a).cycle = s.cycle := rfl
@[simp] theorem State.updateCopy_cur (i a : Nat) : (s.updateCopy i a).cur = s.cur := rfl
@[simp] theorem State.updateCopy_agenda (i a : Nat) : (s.updateCopy i a).agenda = s.agenda := rfl
@[simp] theorem State.updateCopy_freeCtr (i a : Nat) : (s.updateCopy i a).freeCtr = s.freeCtr := rfl
@[simp] theorem State.updateCopy_nextTid (i a : Nat) : (s.updateCopy i a).nextTid = s.nextTid := rfl
@[simp] theorem State.updateCopy_nextId (i a : Nat) : (s.updateCopy i a).nextId = s.nextId := rfl
@[simp] theorem State.updateCopy_lastNum (i a : Nat) : (s.updateCopy i a).lastNum = s.lastNum := rfl
@[simp] theorem State.updateCopy_threads (i a : Nat) : (s.updateCopy i a).threads = s.threads := rfl
@[simp] theorem State.updateCopy_jobs (i a : Nat) : (s.updateCopy i a).jobs = s.jobs := rfl
@[simp] theorem State.updateCopy_clusters (i a : Nat) : (s.updateCopy i a).clusters = s.clusters := rfl
@[simp] theorem State.updateCopy_fwcores (i a : Nat) : (s.updateCopy i a).fwcores = s.fwcores := rfl
@[simp] theorem State.updateCopy_hbm (i a : Nat) : (s.updateCopy i a).hbm = s.hbm := rfl
@[simp] theorem State.updateCopy_mem (i a : Nat) : (s.updateCopy i a).mem = s.mem := rfl
@[simp] theorem State.updateCopy_poison (i a : Nat) : (s.updateCopy i a).poison = s.poison := rfl
@[simp] theorem State.updateCopy_tlb (i a : Nat) : (s.updateCopy i a).tlb = s.tlb := rfl
@[simp] theorem State.updateCopy_icache (i a : Nat) : (s.updateCopy i a).icache = s.icache := rfl
@[simp] theorem State.updateCopy_icacheUE (i a : Nat) : (s.updateCopy i a).icacheUE = s.icacheUE := rfl
@[simp] theorem State.updateCopy_stores (i a : Nat) : (s.updateCopy i a).stores = s.stores := rfl
@[simp] theorem State.updateCopy_race (i a : Nat) : (s.updateCopy i a).race = s.race := rfl
@[simp] theorem State.updateCopy_spillTold (i a : Nat) : (s.updateCopy i a).spillTold = s.spillTold := rfl
@[simp] theorem State.updateCopy_cleared (i a : Nat) : (s.updateCopy i a).cleared = s.cleared := rfl
@[simp] theorem State.updateCopy_noteOps (i a : Nat) : (s.updateCopy i a).noteOps = s.noteOps := rfl
@[simp] theorem State.updateCopy_tails (i a : Nat) : (s.updateCopy i a).tails = s.tails := rfl
@[simp] theorem State.updateCopy_faults (i a : Nat) : (s.updateCopy i a).faults = s.faults := rfl
@[simp] theorem State.updateCopy_qwaits (i a : Nat) : (s.updateCopy i a).qwaits = s.qwaits := rfl
@[simp] theorem State.updateCopy_pipelines (i a : Nat) : (s.updateCopy i a).pipelines = s.pipelines := rfl
@[simp] theorem State.updateCopy_queries (i a : Nat) : (s.updateCopy i a).queries = s.queries := rfl
@[simp] theorem State.updateCopy_streams (i a : Nat) : (s.updateCopy i a).streams = s.streams := rfl
@[simp] theorem State.updateCopy_funcs (i a : Nat) : (s.updateCopy i a).funcs = s.funcs := rfl
@[simp] theorem State.updateCopy_hostMem (i a : Nat) : (s.updateCopy i a).hostMem = s.hostMem := rfl
@[simp] theorem State.updateCopy_chip (i a : Nat) : (s.updateCopy i a).chip = s.chip := rfl
@[simp] theorem State.updateCopy_udpPort (i a : Nat) : (s.updateCopy i a).udpPort = s.udpPort := rfl
@[simp] theorem State.updateCopy_peers (i a : Nat) : (s.updateCopy i a).peers = s.peers := rfl
@[simp] theorem State.updateCopy_grants (i a : Nat) : (s.updateCopy i a).grants = s.grants := rfl
@[simp] theorem State.updateCopy_portsDown (i a : Nat) : (s.updateCopy i a).portsDown = s.portsDown := rfl
@[simp] theorem State.updateCopy_putsIn (i a : Nat) : (s.updateCopy i a).putsIn = s.putsIn := rfl
@[simp] theorem State.updateCopy_powerLimit (i a : Nat) : (s.updateCopy i a).powerLimit = s.powerLimit := rfl
@[simp] theorem State.updateCopy_duty (i a : Nat) : (s.updateCopy i a).duty = s.duty := rfl
@[simp] theorem State.updateCopy_powerSteps (i a : Nat) : (s.updateCopy i a).powerSteps = s.powerSteps := rfl
@[simp] theorem State.updateCopy_stage (i a : Nat) : (s.updateCopy i a).stage = s.stage := rfl
@[simp] theorem State.updateCopy_booted (i a : Nat) : (s.updateCopy i a).booted = s.booted := rfl
@[simp] theorem State.updateCopy_image (i a : Nat) : (s.updateCopy i a).image = s.image := rfl
@[simp] theorem State.updateCopy_staged (i a : Nat) : (s.updateCopy i a).staged = s.staged := rfl
@[simp] theorem State.updateCopy_stagedLen (i a : Nat) : (s.updateCopy i a).stagedLen = s.stagedLen := rfl
@[simp] theorem State.updateCopy_quiesce (i a : Nat) : (s.updateCopy i a).quiesce = s.quiesce := rfl
@[simp] theorem State.updateCopy_mboxSeq (i a : Nat) : (s.updateCopy i a).mboxSeq = s.mboxSeq := rfl
@[simp] theorem State.updateCopy_mboxStatus (i a : Nat) : (s.updateCopy i a).mboxStatus = s.mboxStatus := rfl
@[simp] theorem State.updateCopy_mboxStage (i a : Nat) : (s.updateCopy i a).mboxStage = s.mboxStage := rfl
@[simp] theorem State.updateCopy_mboxBody (i a : Nat) : (s.updateCopy i a).mboxBody = s.mboxBody := rfl
@[simp] theorem State.updateCopy_mboxBuf (i a : Nat) : (s.updateCopy i a).mboxBuf = s.mboxBuf := rfl
@[simp] theorem State.updateCopy_bootFail (i a : Nat) : (s.updateCopy i a).bootFail = s.bootFail := rfl
@[simp] theorem State.updateCopy_stacksFailed (i a : Nat) : (s.updateCopy i a).stacksFailed = s.stacksFailed := rfl
@[simp] theorem State.updateCopy_migrations (i a : Nat) : (s.updateCopy i a).migrations = s.migrations := rfl
@[simp] theorem State.updateCopy_ceCores (i a : Nat) : (s.updateCopy i a).ceCores = s.ceCores := rfl
@[simp] theorem State.updateCopy_ceTiles (i a : Nat) : (s.updateCopy i a).ceTiles = s.ceTiles := rfl
@[simp] theorem State.updateCopy_keydig (i a : Nat) : (s.updateCopy i a).keydig = s.keydig := rfl
@[simp] theorem State.updateCopy_minsvn (i a : Nat) : (s.updateCopy i a).minsvn = s.minsvn := rfl
@[simp] theorem State.updateCopy_actsvn (i a : Nat) : (s.updateCopy i a).actsvn = s.actsvn := rfl
@[simp] theorem State.updateCopy_attaddr (i a : Nat) : (s.updateCopy i a).attaddr = s.attaddr := rfl
@[simp] theorem State.updateCopy_attbusy (i a : Nat) : (s.updateCopy i a).attbusy = s.attbusy := rfl
@[simp] theorem State.updateCopy_ceThresh (i a : Nat) : (s.updateCopy i a).ceThresh = s.ceThresh := rfl
@[simp] theorem State.updateCopy_critTemp (i a : Nat) : (s.updateCopy i a).critTemp = s.critTemp := rfl
@[simp] theorem State.updateCopy_exitTemp (i a : Nat) : (s.updateCopy i a).exitTemp = s.exitTemp := rfl

end Sys2Proof.Machine
end

