-- ==== Sys2Proof/Laws/Charge.lean ====
section
/-! SUPPORT. What a charge and a write of the HBM can change, once for each: every other field of State stands as it was. -/

namespace Sys2Proof.Machine

variable (s : State)

theorem State.buffered_eq (pa : Nat) :
    s.buffered pa = { s with hbm := (s.buffered pa).hbm } := by
  rfl

@[simp] theorem State.buffered_cycle (pa : Nat) : (s.buffered pa).cycle = s.cycle := (congrArg State.cycle (State.buffered_eq s pa)).trans rfl
@[simp] theorem State.buffered_cur (pa : Nat) : (s.buffered pa).cur = s.cur := (congrArg State.cur (State.buffered_eq s pa)).trans rfl
@[simp] theorem State.buffered_agenda (pa : Nat) : (s.buffered pa).agenda = s.agenda := (congrArg State.agenda (State.buffered_eq s pa)).trans rfl
@[simp] theorem State.buffered_freeCtr (pa : Nat) : (s.buffered pa).freeCtr = s.freeCtr := (congrArg State.freeCtr (State.buffered_eq s pa)).trans rfl
@[simp] theorem State.buffered_nextTid (pa : Nat) : (s.buffered pa).nextTid = s.nextTid := (congrArg State.nextTid (State.buffered_eq s pa)).trans rfl
@[simp] theorem State.buffered_nextId (pa : Nat) : (s.buffered pa).nextId = s.nextId := (congrArg State.nextId (State.buffered_eq s pa)).trans rfl
@[simp] theorem State.buffered_lastNum (pa : Nat) : (s.buffered pa).lastNum = s.lastNum := (congrArg State.lastNum (State.buffered_eq s pa)).trans rfl
@[simp] theorem State.buffered_threads (pa : Nat) : (s.buffered pa).threads = s.threads := (congrArg State.threads (State.buffered_eq s pa)).trans rfl
@[simp] theorem State.buffered_jobs (pa : Nat) : (s.buffered pa).jobs = s.jobs := (congrArg State.jobs (State.buffered_eq s pa)).trans rfl
@[simp] theorem State.buffered_cores (pa : Nat) : (s.buffered pa).cores = s.cores := (congrArg State.cores (State.buffered_eq s pa)).trans rfl
@[simp] theorem State.buffered_clusters (pa : Nat) : (s.buffered pa).clusters = s.clusters := (congrArg State.clusters (State.buffered_eq s pa)).trans rfl
@[simp] theorem State.buffered_fwcores (pa : Nat) : (s.buffered pa).fwcores = s.fwcores := (congrArg State.fwcores (State.buffered_eq s pa)).trans rfl
@[simp] theorem State.buffered_mem (pa : Nat) : (s.buffered pa).mem = s.mem := (congrArg State.mem (State.buffered_eq s pa)).trans rfl
@[simp] theorem State.buffered_poison (pa : Nat) : (s.buffered pa).poison = s.poison := (congrArg State.poison (State.buffered_eq s pa)).trans rfl
@[simp] theorem State.buffered_tlb (pa : Nat) : (s.buffered pa).tlb = s.tlb := (congrArg State.tlb (State.buffered_eq s pa)).trans rfl
@[simp] theorem State.buffered_icache (pa : Nat) : (s.buffered pa).icache = s.icache := (congrArg State.icache (State.buffered_eq s pa)).trans rfl
@[simp] theorem State.buffered_icacheUE (pa : Nat) : (s.buffered pa).icacheUE = s.icacheUE := (congrArg State.icacheUE (State.buffered_eq s pa)).trans rfl
@[simp] theorem State.buffered_stores (pa : Nat) : (s.buffered pa).stores = s.stores := (congrArg State.stores (State.buffered_eq s pa)).trans rfl
@[simp] theorem State.buffered_race (pa : Nat) : (s.buffered pa).race = s.race := (congrArg State.race (State.buffered_eq s pa)).trans rfl
@[simp] theorem State.buffered_spillTold (pa : Nat) : (s.buffered pa).spillTold = s.spillTold := (congrArg State.spillTold (State.buffered_eq s pa)).trans rfl
@[simp] theorem State.buffered_cleared (pa : Nat) : (s.buffered pa).cleared = s.cleared := (congrArg State.cleared (State.buffered_eq s pa)).trans rfl
@[simp] theorem State.buffered_noteOps (pa : Nat) : (s.buffered pa).noteOps = s.noteOps := (congrArg State.noteOps (State.buffered_eq s pa)).trans rfl
@[simp] theorem State.buffered_tails (pa : Nat) : (s.buffered pa).tails = s.tails := (congrArg State.tails (State.buffered_eq s pa)).trans rfl
@[simp] theorem State.buffered_faults (pa : Nat) : (s.buffered pa).faults = s.faults := (congrArg State.faults (State.buffered_eq s pa)).trans rfl
@[simp] theorem State.buffered_qwaits (pa : Nat) : (s.buffered pa).qwaits = s.qwaits := (congrArg State.qwaits (State.buffered_eq s pa)).trans rfl
@[simp] theorem State.buffered_pipelines (pa : Nat) : (s.buffered pa).pipelines = s.pipelines := (congrArg State.pipelines (State.buffered_eq s pa)).trans rfl
@[simp] theorem State.buffered_queries (pa : Nat) : (s.buffered pa).queries = s.queries := (congrArg State.queries (State.buffered_eq s pa)).trans rfl
@[simp] theorem State.buffered_streams (pa : Nat) : (s.buffered pa).streams = s.streams := (congrArg State.streams (State.buffered_eq s pa)).trans rfl
@[simp] theorem State.buffered_funcs (pa : Nat) : (s.buffered pa).funcs = s.funcs := (congrArg State.funcs (State.buffered_eq s pa)).trans rfl
@[simp] theorem State.buffered_hostMem (pa : Nat) : (s.buffered pa).hostMem = s.hostMem := (congrArg State.hostMem (State.buffered_eq s pa)).trans rfl
@[simp] theorem State.buffered_chip (pa : Nat) : (s.buffered pa).chip = s.chip := (congrArg State.chip (State.buffered_eq s pa)).trans rfl
@[simp] theorem State.buffered_udpPort (pa : Nat) : (s.buffered pa).udpPort = s.udpPort := (congrArg State.udpPort (State.buffered_eq s pa)).trans rfl
@[simp] theorem State.buffered_peers (pa : Nat) : (s.buffered pa).peers = s.peers := (congrArg State.peers (State.buffered_eq s pa)).trans rfl
@[simp] theorem State.buffered_grants (pa : Nat) : (s.buffered pa).grants = s.grants := (congrArg State.grants (State.buffered_eq s pa)).trans rfl
@[simp] theorem State.buffered_portsDown (pa : Nat) : (s.buffered pa).portsDown = s.portsDown := (congrArg State.portsDown (State.buffered_eq s pa)).trans rfl
@[simp] theorem State.buffered_putsIn (pa : Nat) : (s.buffered pa).putsIn = s.putsIn := (congrArg State.putsIn (State.buffered_eq s pa)).trans rfl
@[simp] theorem State.buffered_powerLimit (pa : Nat) : (s.buffered pa).powerLimit = s.powerLimit := (congrArg State.powerLimit (State.buffered_eq s pa)).trans rfl
@[simp] theorem State.buffered_duty (pa : Nat) : (s.buffered pa).duty = s.duty := (congrArg State.duty (State.buffered_eq s pa)).trans rfl
@[simp] theorem State.buffered_powerSteps (pa : Nat) : (s.buffered pa).powerSteps = s.powerSteps := (congrArg State.powerSteps (State.buffered_eq s pa)).trans rfl
@[simp] theorem State.buffered_stage (pa : Nat) : (s.buffered pa).stage = s.stage := (congrArg State.stage (State.buffered_eq s pa)).trans rfl
@[simp] theorem State.buffered_booted (pa : Nat) : (s.buffered pa).booted = s.booted := (congrArg State.booted (State.buffered_eq s pa)).trans rfl
@[simp] theorem State.buffered_image (pa : Nat) : (s.buffered pa).image = s.image := (congrArg State.image (State.buffered_eq s pa)).trans rfl
@[simp] theorem State.buffered_staged (pa : Nat) : (s.buffered pa).staged = s.staged := (congrArg State.staged (State.buffered_eq s pa)).trans rfl
@[simp] theorem State.buffered_stagedLen (pa : Nat) : (s.buffered pa).stagedLen = s.stagedLen := (congrArg State.stagedLen (State.buffered_eq s pa)).trans rfl
@[simp] theorem State.buffered_quiesce (pa : Nat) : (s.buffered pa).quiesce = s.quiesce := (congrArg State.quiesce (State.buffered_eq s pa)).trans rfl
@[simp] theorem State.buffered_mboxSeq (pa : Nat) : (s.buffered pa).mboxSeq = s.mboxSeq := (congrArg State.mboxSeq (State.buffered_eq s pa)).trans rfl
@[simp] theorem State.buffered_mboxStatus (pa : Nat) : (s.buffered pa).mboxStatus = s.mboxStatus := (congrArg State.mboxStatus (State.buffered_eq s pa)).trans rfl
@[simp] theorem State.buffered_mboxStage (pa : Nat) : (s.buffered pa).mboxStage = s.mboxStage := (congrArg State.mboxStage (State.buffered_eq s pa)).trans rfl
@[simp] theorem State.buffered_mboxBody (pa : Nat) : (s.buffered pa).mboxBody = s.mboxBody := (congrArg State.mboxBody (State.buffered_eq s pa)).trans rfl
@[simp] theorem State.buffered_mboxBuf (pa : Nat) : (s.buffered pa).mboxBuf = s.mboxBuf := (congrArg State.mboxBuf (State.buffered_eq s pa)).trans rfl
@[simp] theorem State.buffered_bootFail (pa : Nat) : (s.buffered pa).bootFail = s.bootFail := (congrArg State.bootFail (State.buffered_eq s pa)).trans rfl
@[simp] theorem State.buffered_stacksFailed (pa : Nat) : (s.buffered pa).stacksFailed = s.stacksFailed := (congrArg State.stacksFailed (State.buffered_eq s pa)).trans rfl
@[simp] theorem State.buffered_migrations (pa : Nat) : (s.buffered pa).migrations = s.migrations := (congrArg State.migrations (State.buffered_eq s pa)).trans rfl
@[simp] theorem State.buffered_ceCores (pa : Nat) : (s.buffered pa).ceCores = s.ceCores := (congrArg State.ceCores (State.buffered_eq s pa)).trans rfl
@[simp] theorem State.buffered_ceTiles (pa : Nat) : (s.buffered pa).ceTiles = s.ceTiles := (congrArg State.ceTiles (State.buffered_eq s pa)).trans rfl
@[simp] theorem State.buffered_keydig (pa : Nat) : (s.buffered pa).keydig = s.keydig := (congrArg State.keydig (State.buffered_eq s pa)).trans rfl
@[simp] theorem State.buffered_minsvn (pa : Nat) : (s.buffered pa).minsvn = s.minsvn := (congrArg State.minsvn (State.buffered_eq s pa)).trans rfl
@[simp] theorem State.buffered_actsvn (pa : Nat) : (s.buffered pa).actsvn = s.actsvn := (congrArg State.actsvn (State.buffered_eq s pa)).trans rfl
@[simp] theorem State.buffered_attaddr (pa : Nat) : (s.buffered pa).attaddr = s.attaddr := (congrArg State.attaddr (State.buffered_eq s pa)).trans rfl
@[simp] theorem State.buffered_attbusy (pa : Nat) : (s.buffered pa).attbusy = s.attbusy := (congrArg State.attbusy (State.buffered_eq s pa)).trans rfl
@[simp] theorem State.buffered_ceThresh (pa : Nat) : (s.buffered pa).ceThresh = s.ceThresh := (congrArg State.ceThresh (State.buffered_eq s pa)).trans rfl
@[simp] theorem State.buffered_critTemp (pa : Nat) : (s.buffered pa).critTemp = s.critTemp := (congrArg State.critTemp (State.buffered_eq s pa)).trans rfl
@[simp] theorem State.buffered_exitTemp (pa : Nat) : (s.buffered pa).exitTemp = s.exitTemp := (congrArg State.exitTemp (State.buffered_eq s pa)).trans rfl

theorem State.poke_eq (pa n v : Nat) :
    s.poke pa n v = { s with mem := (s.poke pa n v).mem, poison := (s.poke pa n v).poison, hbm := (s.poke pa n v).hbm } := by
  unfold State.poke; rw [State.buffered_eq]

@[simp] theorem State.poke_cycle (pa n v : Nat) : (s.poke pa n v).cycle = s.cycle := (congrArg State.cycle (State.poke_eq s pa n v)).trans rfl
@[simp] theorem State.poke_cur (pa n v : Nat) : (s.poke pa n v).cur = s.cur := (congrArg State.cur (State.poke_eq s pa n v)).trans rfl
@[simp] theorem State.poke_agenda (pa n v : Nat) : (s.poke pa n v).agenda = s.agenda := (congrArg State.agenda (State.poke_eq s pa n v)).trans rfl
@[simp] theorem State.poke_freeCtr (pa n v : Nat) : (s.poke pa n v).freeCtr = s.freeCtr := (congrArg State.freeCtr (State.poke_eq s pa n v)).trans rfl
@[simp] theorem State.poke_nextTid (pa n v : Nat) : (s.poke pa n v).nextTid = s.nextTid := (congrArg State.nextTid (State.poke_eq s pa n v)).trans rfl
@[simp] theorem State.poke_nextId (pa n v : Nat) : (s.poke pa n v).nextId = s.nextId := (congrArg State.nextId (State.poke_eq s pa n v)).trans rfl
@[simp] theorem State.poke_lastNum (pa n v : Nat) : (s.poke pa n v).lastNum = s.lastNum := (congrArg State.lastNum (State.poke_eq s pa n v)).trans rfl
@[simp] theorem State.poke_threads (pa n v : Nat) : (s.poke pa n v).threads = s.threads := (congrArg State.threads (State.poke_eq s pa n v)).trans rfl
@[simp] theorem State.poke_jobs (pa n v : Nat) : (s.poke pa n v).jobs = s.jobs := (congrArg State.jobs (State.poke_eq s pa n v)).trans rfl
@[simp] theorem State.poke_cores (pa n v : Nat) : (s.poke pa n v).cores = s.cores := (congrArg State.cores (State.poke_eq s pa n v)).trans rfl
@[simp] theorem State.poke_clusters (pa n v : Nat) : (s.poke pa n v).clusters = s.clusters := (congrArg State.clusters (State.poke_eq s pa n v)).trans rfl
@[simp] theorem State.poke_fwcores (pa n v : Nat) : (s.poke pa n v).fwcores = s.fwcores := (congrArg State.fwcores (State.poke_eq s pa n v)).trans rfl
@[simp] theorem State.poke_tlb (pa n v : Nat) : (s.poke pa n v).tlb = s.tlb := (congrArg State.tlb (State.poke_eq s pa n v)).trans rfl
@[simp] theorem State.poke_icache (pa n v : Nat) : (s.poke pa n v).icache = s.icache := (congrArg State.icache (State.poke_eq s pa n v)).trans rfl
@[simp] theorem State.poke_icacheUE (pa n v : Nat) : (s.poke pa n v).icacheUE = s.icacheUE := (congrArg State.icacheUE (State.poke_eq s pa n v)).trans rfl
@[simp] theorem State.poke_stores (pa n v : Nat) : (s.poke pa n v).stores = s.stores := (congrArg State.stores (State.poke_eq s pa n v)).trans rfl
@[simp] theorem State.poke_race (pa n v : Nat) : (s.poke pa n v).race = s.race := (congrArg State.race (State.poke_eq s pa n v)).trans rfl
@[simp] theorem State.poke_spillTold (pa n v : Nat) : (s.poke pa n v).spillTold = s.spillTold := (congrArg State.spillTold (State.poke_eq s pa n v)).trans rfl
@[simp] theorem State.poke_cleared (pa n v : Nat) : (s.poke pa n v).cleared = s.cleared := (congrArg State.cleared (State.poke_eq s pa n v)).trans rfl
@[simp] theorem State.poke_noteOps (pa n v : Nat) : (s.poke pa n v).noteOps = s.noteOps := (congrArg State.noteOps (State.poke_eq s pa n v)).trans rfl
@[simp] theorem State.poke_tails (pa n v : Nat) : (s.poke pa n v).tails = s.tails := (congrArg State.tails (State.poke_eq s pa n v)).trans rfl
@[simp] theorem State.poke_faults (pa n v : Nat) : (s.poke pa n v).faults = s.faults := (congrArg State.faults (State.poke_eq s pa n v)).trans rfl
@[simp] theorem State.poke_qwaits (pa n v : Nat) : (s.poke pa n v).qwaits = s.qwaits := (congrArg State.qwaits (State.poke_eq s pa n v)).trans rfl
@[simp] theorem State.poke_pipelines (pa n v : Nat) : (s.poke pa n v).pipelines = s.pipelines := (congrArg State.pipelines (State.poke_eq s pa n v)).trans rfl
@[simp] theorem State.poke_queries (pa n v : Nat) : (s.poke pa n v).queries = s.queries := (congrArg State.queries (State.poke_eq s pa n v)).trans rfl
@[simp] theorem State.poke_streams (pa n v : Nat) : (s.poke pa n v).streams = s.streams := (congrArg State.streams (State.poke_eq s pa n v)).trans rfl
@[simp] theorem State.poke_funcs (pa n v : Nat) : (s.poke pa n v).funcs = s.funcs := (congrArg State.funcs (State.poke_eq s pa n v)).trans rfl
@[simp] theorem State.poke_hostMem (pa n v : Nat) : (s.poke pa n v).hostMem = s.hostMem := (congrArg State.hostMem (State.poke_eq s pa n v)).trans rfl
@[simp] theorem State.poke_chip (pa n v : Nat) : (s.poke pa n v).chip = s.chip := (congrArg State.chip (State.poke_eq s pa n v)).trans rfl
@[simp] theorem State.poke_udpPort (pa n v : Nat) : (s.poke pa n v).udpPort = s.udpPort := (congrArg State.udpPort (State.poke_eq s pa n v)).trans rfl
@[simp] theorem State.poke_peers (pa n v : Nat) : (s.poke pa n v).peers = s.peers := (congrArg State.peers (State.poke_eq s pa n v)).trans rfl
@[simp] theorem State.poke_grants (pa n v : Nat) : (s.poke pa n v).grants = s.grants := (congrArg State.grants (State.poke_eq s pa n v)).trans rfl
@[simp] theorem State.poke_portsDown (pa n v : Nat) : (s.poke pa n v).portsDown = s.portsDown := (congrArg State.portsDown (State.poke_eq s pa n v)).trans rfl
@[simp] theorem State.poke_putsIn (pa n v : Nat) : (s.poke pa n v).putsIn = s.putsIn := (congrArg State.putsIn (State.poke_eq s pa n v)).trans rfl
@[simp] theorem State.poke_powerLimit (pa n v : Nat) : (s.poke pa n v).powerLimit = s.powerLimit := (congrArg State.powerLimit (State.poke_eq s pa n v)).trans rfl
@[simp] theorem State.poke_duty (pa n v : Nat) : (s.poke pa n v).duty = s.duty := (congrArg State.duty (State.poke_eq s pa n v)).trans rfl
@[simp] theorem State.poke_powerSteps (pa n v : Nat) : (s.poke pa n v).powerSteps = s.powerSteps := (congrArg State.powerSteps (State.poke_eq s pa n v)).trans rfl
@[simp] theorem State.poke_stage (pa n v : Nat) : (s.poke pa n v).stage = s.stage := (congrArg State.stage (State.poke_eq s pa n v)).trans rfl
@[simp] theorem State.poke_booted (pa n v : Nat) : (s.poke pa n v).booted = s.booted := (congrArg State.booted (State.poke_eq s pa n v)).trans rfl
@[simp] theorem State.poke_image (pa n v : Nat) : (s.poke pa n v).image = s.image := (congrArg State.image (State.poke_eq s pa n v)).trans rfl
@[simp] theorem State.poke_staged (pa n v : Nat) : (s.poke pa n v).staged = s.staged := (congrArg State.staged (State.poke_eq s pa n v)).trans rfl
@[simp] theorem State.poke_stagedLen (pa n v : Nat) : (s.poke pa n v).stagedLen = s.stagedLen := (congrArg State.stagedLen (State.poke_eq s pa n v)).trans rfl
@[simp] theorem State.poke_quiesce (pa n v : Nat) : (s.poke pa n v).quiesce = s.quiesce := (congrArg State.quiesce (State.poke_eq s pa n v)).trans rfl
@[simp] theorem State.poke_mboxSeq (pa n v : Nat) : (s.poke pa n v).mboxSeq = s.mboxSeq := (congrArg State.mboxSeq (State.poke_eq s pa n v)).trans rfl
@[simp] theorem State.poke_mboxStatus (pa n v : Nat) : (s.poke pa n v).mboxStatus = s.mboxStatus := (congrArg State.mboxStatus (State.poke_eq s pa n v)).trans rfl
@[simp] theorem State.poke_mboxStage (pa n v : Nat) : (s.poke pa n v).mboxStage = s.mboxStage := (congrArg State.mboxStage (State.poke_eq s pa n v)).trans rfl
@[simp] theorem State.poke_mboxBody (pa n v : Nat) : (s.poke pa n v).mboxBody = s.mboxBody := (congrArg State.mboxBody (State.poke_eq s pa n v)).trans rfl
@[simp] theorem State.poke_mboxBuf (pa n v : Nat) : (s.poke pa n v).mboxBuf = s.mboxBuf := (congrArg State.mboxBuf (State.poke_eq s pa n v)).trans rfl
@[simp] theorem State.poke_bootFail (pa n v : Nat) : (s.poke pa n v).bootFail = s.bootFail := (congrArg State.bootFail (State.poke_eq s pa n v)).trans rfl
@[simp] theorem State.poke_stacksFailed (pa n v : Nat) : (s.poke pa n v).stacksFailed = s.stacksFailed := (congrArg State.stacksFailed (State.poke_eq s pa n v)).trans rfl
@[simp] theorem State.poke_migrations (pa n v : Nat) : (s.poke pa n v).migrations = s.migrations := (congrArg State.migrations (State.poke_eq s pa n v)).trans rfl
@[simp] theorem State.poke_ceCores (pa n v : Nat) : (s.poke pa n v).ceCores = s.ceCores := (congrArg State.ceCores (State.poke_eq s pa n v)).trans rfl
@[simp] theorem State.poke_ceTiles (pa n v : Nat) : (s.poke pa n v).ceTiles = s.ceTiles := (congrArg State.ceTiles (State.poke_eq s pa n v)).trans rfl
@[simp] theorem State.poke_keydig (pa n v : Nat) : (s.poke pa n v).keydig = s.keydig := (congrArg State.keydig (State.poke_eq s pa n v)).trans rfl
@[simp] theorem State.poke_minsvn (pa n v : Nat) : (s.poke pa n v).minsvn = s.minsvn := (congrArg State.minsvn (State.poke_eq s pa n v)).trans rfl
@[simp] theorem State.poke_actsvn (pa n v : Nat) : (s.poke pa n v).actsvn = s.actsvn := (congrArg State.actsvn (State.poke_eq s pa n v)).trans rfl
@[simp] theorem State.poke_attaddr (pa n v : Nat) : (s.poke pa n v).attaddr = s.attaddr := (congrArg State.attaddr (State.poke_eq s pa n v)).trans rfl
@[simp] theorem State.poke_attbusy (pa n v : Nat) : (s.poke pa n v).attbusy = s.attbusy := (congrArg State.attbusy (State.poke_eq s pa n v)).trans rfl
@[simp] theorem State.poke_ceThresh (pa n v : Nat) : (s.poke pa n v).ceThresh = s.ceThresh := (congrArg State.ceThresh (State.poke_eq s pa n v)).trans rfl
@[simp] theorem State.poke_critTemp (pa n v : Nat) : (s.poke pa n v).critTemp = s.critTemp := (congrArg State.critTemp (State.poke_eq s pa n v)).trans rfl
@[simp] theorem State.poke_exitTemp (pa n v : Nat) : (s.poke pa n v).exitTemp = s.exitTemp := (congrArg State.exitTemp (State.poke_eq s pa n v)).trans rfl

theorem State.jobWrite_eq (ctx va n v : Nat) :
    s.jobWrite ctx va n v = { s with mem := (s.jobWrite ctx va n v).mem, poison := (s.jobWrite ctx va n v).poison, hbm := (s.jobWrite ctx va n v).hbm } := by
  unfold State.jobWrite; split
  · rw [State.poke_eq]
  · rfl

@[simp] theorem State.jobWrite_cycle (ctx va n v : Nat) : (s.jobWrite ctx va n v).cycle = s.cycle := (congrArg State.cycle (State.jobWrite_eq s ctx va n v)).trans rfl
@[simp] theorem State.jobWrite_cur (ctx va n v : Nat) : (s.jobWrite ctx va n v).cur = s.cur := (congrArg State.cur (State.jobWrite_eq s ctx va n v)).trans rfl
@[simp] theorem State.jobWrite_agenda (ctx va n v : Nat) : (s.jobWrite ctx va n v).agenda = s.agenda := (congrArg State.agenda (State.jobWrite_eq s ctx va n v)).trans rfl
@[simp] theorem State.jobWrite_freeCtr (ctx va n v : Nat) : (s.jobWrite ctx va n v).freeCtr = s.freeCtr := (congrArg State.freeCtr (State.jobWrite_eq s ctx va n v)).trans rfl
@[simp] theorem State.jobWrite_nextTid (ctx va n v : Nat) : (s.jobWrite ctx va n v).nextTid = s.nextTid := (congrArg State.nextTid (State.jobWrite_eq s ctx va n v)).trans rfl
@[simp] theorem State.jobWrite_nextId (ctx va n v : Nat) : (s.jobWrite ctx va n v).nextId = s.nextId := (congrArg State.nextId (State.jobWrite_eq s ctx va n v)).trans rfl
@[simp] theorem State.jobWrite_lastNum (ctx va n v : Nat) : (s.jobWrite ctx va n v).lastNum = s.lastNum := (congrArg State.lastNum (State.jobWrite_eq s ctx va n v)).trans rfl
@[simp] theorem State.jobWrite_threads (ctx va n v : Nat) : (s.jobWrite ctx va n v).threads = s.threads := (congrArg State.threads (State.jobWrite_eq s ctx va n v)).trans rfl
@[simp] theorem State.jobWrite_jobs (ctx va n v : Nat) : (s.jobWrite ctx va n v).jobs = s.jobs := (congrArg State.jobs (State.jobWrite_eq s ctx va n v)).trans rfl
@[simp] theorem State.jobWrite_cores (ctx va n v : Nat) : (s.jobWrite ctx va n v).cores = s.cores := (congrArg State.cores (State.jobWrite_eq s ctx va n v)).trans rfl
@[simp] theorem State.jobWrite_clusters (ctx va n v : Nat) : (s.jobWrite ctx va n v).clusters = s.clusters := (congrArg State.clusters (State.jobWrite_eq s ctx va n v)).trans rfl
@[simp] theorem State.jobWrite_fwcores (ctx va n v : Nat) : (s.jobWrite ctx va n v).fwcores = s.fwcores := (congrArg State.fwcores (State.jobWrite_eq s ctx va n v)).trans rfl
@[simp] theorem State.jobWrite_tlb (ctx va n v : Nat) : (s.jobWrite ctx va n v).tlb = s.tlb := (congrArg State.tlb (State.jobWrite_eq s ctx va n v)).trans rfl
@[simp] theorem State.jobWrite_icache (ctx va n v : Nat) : (s.jobWrite ctx va n v).icache = s.icache := (congrArg State.icache (State.jobWrite_eq s ctx va n v)).trans rfl
@[simp] theorem State.jobWrite_icacheUE (ctx va n v : Nat) : (s.jobWrite ctx va n v).icacheUE = s.icacheUE := (congrArg State.icacheUE (State.jobWrite_eq s ctx va n v)).trans rfl
@[simp] theorem State.jobWrite_stores (ctx va n v : Nat) : (s.jobWrite ctx va n v).stores = s.stores := (congrArg State.stores (State.jobWrite_eq s ctx va n v)).trans rfl
@[simp] theorem State.jobWrite_race (ctx va n v : Nat) : (s.jobWrite ctx va n v).race = s.race := (congrArg State.race (State.jobWrite_eq s ctx va n v)).trans rfl
@[simp] theorem State.jobWrite_spillTold (ctx va n v : Nat) : (s.jobWrite ctx va n v).spillTold = s.spillTold := (congrArg State.spillTold (State.jobWrite_eq s ctx va n v)).trans rfl
@[simp] theorem State.jobWrite_cleared (ctx va n v : Nat) : (s.jobWrite ctx va n v).cleared = s.cleared := (congrArg State.cleared (State.jobWrite_eq s ctx va n v)).trans rfl
@[simp] theorem State.jobWrite_noteOps (ctx va n v : Nat) : (s.jobWrite ctx va n v).noteOps = s.noteOps := (congrArg State.noteOps (State.jobWrite_eq s ctx va n v)).trans rfl
@[simp] theorem State.jobWrite_tails (ctx va n v : Nat) : (s.jobWrite ctx va n v).tails = s.tails := (congrArg State.tails (State.jobWrite_eq s ctx va n v)).trans rfl
@[simp] theorem State.jobWrite_faults (ctx va n v : Nat) : (s.jobWrite ctx va n v).faults = s.faults := (congrArg State.faults (State.jobWrite_eq s ctx va n v)).trans rfl
@[simp] theorem State.jobWrite_qwaits (ctx va n v : Nat) : (s.jobWrite ctx va n v).qwaits = s.qwaits := (congrArg State.qwaits (State.jobWrite_eq s ctx va n v)).trans rfl
@[simp] theorem State.jobWrite_pipelines (ctx va n v : Nat) : (s.jobWrite ctx va n v).pipelines = s.pipelines := (congrArg State.pipelines (State.jobWrite_eq s ctx va n v)).trans rfl
@[simp] theorem State.jobWrite_queries (ctx va n v : Nat) : (s.jobWrite ctx va n v).queries = s.queries := (congrArg State.queries (State.jobWrite_eq s ctx va n v)).trans rfl
@[simp] theorem State.jobWrite_streams (ctx va n v : Nat) : (s.jobWrite ctx va n v).streams = s.streams := (congrArg State.streams (State.jobWrite_eq s ctx va n v)).trans rfl
@[simp] theorem State.jobWrite_funcs (ctx va n v : Nat) : (s.jobWrite ctx va n v).funcs = s.funcs := (congrArg State.funcs (State.jobWrite_eq s ctx va n v)).trans rfl
@[simp] theorem State.jobWrite_hostMem (ctx va n v : Nat) : (s.jobWrite ctx va n v).hostMem = s.hostMem := (congrArg State.hostMem (State.jobWrite_eq s ctx va n v)).trans rfl
@[simp] theorem State.jobWrite_chip (ctx va n v : Nat) : (s.jobWrite ctx va n v).chip = s.chip := (congrArg State.chip (State.jobWrite_eq s ctx va n v)).trans rfl
@[simp] theorem State.jobWrite_udpPort (ctx va n v : Nat) : (s.jobWrite ctx va n v).udpPort = s.udpPort := (congrArg State.udpPort (State.jobWrite_eq s ctx va n v)).trans rfl
@[simp] theorem State.jobWrite_peers (ctx va n v : Nat) : (s.jobWrite ctx va n v).peers = s.peers := (congrArg State.peers (State.jobWrite_eq s ctx va n v)).trans rfl
@[simp] theorem State.jobWrite_grants (ctx va n v : Nat) : (s.jobWrite ctx va n v).grants = s.grants := (congrArg State.grants (State.jobWrite_eq s ctx va n v)).trans rfl
@[simp] theorem State.jobWrite_portsDown (ctx va n v : Nat) : (s.jobWrite ctx va n v).portsDown = s.portsDown := (congrArg State.portsDown (State.jobWrite_eq s ctx va n v)).trans rfl
@[simp] theorem State.jobWrite_putsIn (ctx va n v : Nat) : (s.jobWrite ctx va n v).putsIn = s.putsIn := (congrArg State.putsIn (State.jobWrite_eq s ctx va n v)).trans rfl
@[simp] theorem State.jobWrite_powerLimit (ctx va n v : Nat) : (s.jobWrite ctx va n v).powerLimit = s.powerLimit := (congrArg State.powerLimit (State.jobWrite_eq s ctx va n v)).trans rfl
@[simp] theorem State.jobWrite_duty (ctx va n v : Nat) : (s.jobWrite ctx va n v).duty = s.duty := (congrArg State.duty (State.jobWrite_eq s ctx va n v)).trans rfl
@[simp] theorem State.jobWrite_powerSteps (ctx va n v : Nat) : (s.jobWrite ctx va n v).powerSteps = s.powerSteps := (congrArg State.powerSteps (State.jobWrite_eq s ctx va n v)).trans rfl
@[simp] theorem State.jobWrite_stage (ctx va n v : Nat) : (s.jobWrite ctx va n v).stage = s.stage := (congrArg State.stage (State.jobWrite_eq s ctx va n v)).trans rfl
@[simp] theorem State.jobWrite_booted (ctx va n v : Nat) : (s.jobWrite ctx va n v).booted = s.booted := (congrArg State.booted (State.jobWrite_eq s ctx va n v)).trans rfl
@[simp] theorem State.jobWrite_image (ctx va n v : Nat) : (s.jobWrite ctx va n v).image = s.image := (congrArg State.image (State.jobWrite_eq s ctx va n v)).trans rfl
@[simp] theorem State.jobWrite_staged (ctx va n v : Nat) : (s.jobWrite ctx va n v).staged = s.staged := (congrArg State.staged (State.jobWrite_eq s ctx va n v)).trans rfl
@[simp] theorem State.jobWrite_stagedLen (ctx va n v : Nat) : (s.jobWrite ctx va n v).stagedLen = s.stagedLen := (congrArg State.stagedLen (State.jobWrite_eq s ctx va n v)).trans rfl
@[simp] theorem State.jobWrite_quiesce (ctx va n v : Nat) : (s.jobWrite ctx va n v).quiesce = s.quiesce := (congrArg State.quiesce (State.jobWrite_eq s ctx va n v)).trans rfl
@[simp] theorem State.jobWrite_mboxSeq (ctx va n v : Nat) : (s.jobWrite ctx va n v).mboxSeq = s.mboxSeq := (congrArg State.mboxSeq (State.jobWrite_eq s ctx va n v)).trans rfl
@[simp] theorem State.jobWrite_mboxStatus (ctx va n v : Nat) : (s.jobWrite ctx va n v).mboxStatus = s.mboxStatus := (congrArg State.mboxStatus (State.jobWrite_eq s ctx va n v)).trans rfl
@[simp] theorem State.jobWrite_mboxStage (ctx va n v : Nat) : (s.jobWrite ctx va n v).mboxStage = s.mboxStage := (congrArg State.mboxStage (State.jobWrite_eq s ctx va n v)).trans rfl
@[simp] theorem State.jobWrite_mboxBody (ctx va n v : Nat) : (s.jobWrite ctx va n v).mboxBody = s.mboxBody := (congrArg State.mboxBody (State.jobWrite_eq s ctx va n v)).trans rfl
@[simp] theorem State.jobWrite_mboxBuf (ctx va n v : Nat) : (s.jobWrite ctx va n v).mboxBuf = s.mboxBuf := (congrArg State.mboxBuf (State.jobWrite_eq s ctx va n v)).trans rfl
@[simp] theorem State.jobWrite_bootFail (ctx va n v : Nat) : (s.jobWrite ctx va n v).bootFail = s.bootFail := (congrArg State.bootFail (State.jobWrite_eq s ctx va n v)).trans rfl
@[simp] theorem State.jobWrite_stacksFailed (ctx va n v : Nat) : (s.jobWrite ctx va n v).stacksFailed = s.stacksFailed := (congrArg State.stacksFailed (State.jobWrite_eq s ctx va n v)).trans rfl
@[simp] theorem State.jobWrite_migrations (ctx va n v : Nat) : (s.jobWrite ctx va n v).migrations = s.migrations := (congrArg State.migrations (State.jobWrite_eq s ctx va n v)).trans rfl
@[simp] theorem State.jobWrite_ceCores (ctx va n v : Nat) : (s.jobWrite ctx va n v).ceCores = s.ceCores := (congrArg State.ceCores (State.jobWrite_eq s ctx va n v)).trans rfl
@[simp] theorem State.jobWrite_ceTiles (ctx va n v : Nat) : (s.jobWrite ctx va n v).ceTiles = s.ceTiles := (congrArg State.ceTiles (State.jobWrite_eq s ctx va n v)).trans rfl
@[simp] theorem State.jobWrite_keydig (ctx va n v : Nat) : (s.jobWrite ctx va n v).keydig = s.keydig := (congrArg State.keydig (State.jobWrite_eq s ctx va n v)).trans rfl
@[simp] theorem State.jobWrite_minsvn (ctx va n v : Nat) : (s.jobWrite ctx va n v).minsvn = s.minsvn := (congrArg State.minsvn (State.jobWrite_eq s ctx va n v)).trans rfl
@[simp] theorem State.jobWrite_actsvn (ctx va n v : Nat) : (s.jobWrite ctx va n v).actsvn = s.actsvn := (congrArg State.actsvn (State.jobWrite_eq s ctx va n v)).trans rfl
@[simp] theorem State.jobWrite_attaddr (ctx va n v : Nat) : (s.jobWrite ctx va n v).attaddr = s.attaddr := (congrArg State.attaddr (State.jobWrite_eq s ctx va n v)).trans rfl
@[simp] theorem State.jobWrite_attbusy (ctx va n v : Nat) : (s.jobWrite ctx va n v).attbusy = s.attbusy := (congrArg State.attbusy (State.jobWrite_eq s ctx va n v)).trans rfl
@[simp] theorem State.jobWrite_ceThresh (ctx va n v : Nat) : (s.jobWrite ctx va n v).ceThresh = s.ceThresh := (congrArg State.ceThresh (State.jobWrite_eq s ctx va n v)).trans rfl
@[simp] theorem State.jobWrite_critTemp (ctx va n v : Nat) : (s.jobWrite ctx va n v).critTemp = s.critTemp := (congrArg State.critTemp (State.jobWrite_eq s ctx va n v)).trans rfl
@[simp] theorem State.jobWrite_exitTemp (ctx va n v : Nat) : (s.jobWrite ctx va n v).exitTemp = s.exitTemp := (congrArg State.exitTemp (State.jobWrite_eq s ctx va n v)).trans rfl

theorem State.bill_eq (tid ctx pj : Nat) :
    s.bill tid ctx pj = { s with threads := (s.bill tid ctx pj).threads, jobs := (s.bill tid ctx pj).jobs, mem := (s.bill tid ctx pj).mem, poison := (s.bill tid ctx pj).poison, hbm := (s.bill tid ctx pj).hbm } := by
  unfold State.bill; split
  · simp only []
    split
    · rw [State.jobWrite_eq]; rfl
    · rfl
  · rfl

@[simp] theorem State.bill_cycle (tid ctx pj : Nat) : (s.bill tid ctx pj).cycle = s.cycle := (congrArg State.cycle (State.bill_eq s tid ctx pj)).trans rfl
@[simp] theorem State.bill_cur (tid ctx pj : Nat) : (s.bill tid ctx pj).cur = s.cur := (congrArg State.cur (State.bill_eq s tid ctx pj)).trans rfl
@[simp] theorem State.bill_agenda (tid ctx pj : Nat) : (s.bill tid ctx pj).agenda = s.agenda := (congrArg State.agenda (State.bill_eq s tid ctx pj)).trans rfl
@[simp] theorem State.bill_freeCtr (tid ctx pj : Nat) : (s.bill tid ctx pj).freeCtr = s.freeCtr := (congrArg State.freeCtr (State.bill_eq s tid ctx pj)).trans rfl
@[simp] theorem State.bill_nextTid (tid ctx pj : Nat) : (s.bill tid ctx pj).nextTid = s.nextTid := (congrArg State.nextTid (State.bill_eq s tid ctx pj)).trans rfl
@[simp] theorem State.bill_nextId (tid ctx pj : Nat) : (s.bill tid ctx pj).nextId = s.nextId := (congrArg State.nextId (State.bill_eq s tid ctx pj)).trans rfl
@[simp] theorem State.bill_lastNum (tid ctx pj : Nat) : (s.bill tid ctx pj).lastNum = s.lastNum := (congrArg State.lastNum (State.bill_eq s tid ctx pj)).trans rfl
@[simp] theorem State.bill_cores (tid ctx pj : Nat) : (s.bill tid ctx pj).cores = s.cores := (congrArg State.cores (State.bill_eq s tid ctx pj)).trans rfl
@[simp] theorem State.bill_clusters (tid ctx pj : Nat) : (s.bill tid ctx pj).clusters = s.clusters := (congrArg State.clusters (State.bill_eq s tid ctx pj)).trans rfl
@[simp] theorem State.bill_fwcores (tid ctx pj : Nat) : (s.bill tid ctx pj).fwcores = s.fwcores := (congrArg State.fwcores (State.bill_eq s tid ctx pj)).trans rfl
@[simp] theorem State.bill_tlb (tid ctx pj : Nat) : (s.bill tid ctx pj).tlb = s.tlb := (congrArg State.tlb (State.bill_eq s tid ctx pj)).trans rfl
@[simp] theorem State.bill_icache (tid ctx pj : Nat) : (s.bill tid ctx pj).icache = s.icache := (congrArg State.icache (State.bill_eq s tid ctx pj)).trans rfl
@[simp] theorem State.bill_icacheUE (tid ctx pj : Nat) : (s.bill tid ctx pj).icacheUE = s.icacheUE := (congrArg State.icacheUE (State.bill_eq s tid ctx pj)).trans rfl
@[simp] theorem State.bill_stores (tid ctx pj : Nat) : (s.bill tid ctx pj).stores = s.stores := (congrArg State.stores (State.bill_eq s tid ctx pj)).trans rfl
@[simp] theorem State.bill_race (tid ctx pj : Nat) : (s.bill tid ctx pj).race = s.race := (congrArg State.race (State.bill_eq s tid ctx pj)).trans rfl
@[simp] theorem State.bill_spillTold (tid ctx pj : Nat) : (s.bill tid ctx pj).spillTold = s.spillTold := (congrArg State.spillTold (State.bill_eq s tid ctx pj)).trans rfl
@[simp] theorem State.bill_cleared (tid ctx pj : Nat) : (s.bill tid ctx pj).cleared = s.cleared := (congrArg State.cleared (State.bill_eq s tid ctx pj)).trans rfl
@[simp] theorem State.bill_noteOps (tid ctx pj : Nat) : (s.bill tid ctx pj).noteOps = s.noteOps := (congrArg State.noteOps (State.bill_eq s tid ctx pj)).trans rfl
@[simp] theorem State.bill_tails (tid ctx pj : Nat) : (s.bill tid ctx pj).tails = s.tails := (congrArg State.tails (State.bill_eq s tid ctx pj)).trans rfl
@[simp] theorem State.bill_faults (tid ctx pj : Nat) : (s.bill tid ctx pj).faults = s.faults := (congrArg State.faults (State.bill_eq s tid ctx pj)).trans rfl
@[simp] theorem State.bill_qwaits (tid ctx pj : Nat) : (s.bill tid ctx pj).qwaits = s.qwaits := (congrArg State.qwaits (State.bill_eq s tid ctx pj)).trans rfl
@[simp] theorem State.bill_pipelines (tid ctx pj : Nat) : (s.bill tid ctx pj).pipelines = s.pipelines := (congrArg State.pipelines (State.bill_eq s tid ctx pj)).trans rfl
@[simp] theorem State.bill_queries (tid ctx pj : Nat) : (s.bill tid ctx pj).queries = s.queries := (congrArg State.queries (State.bill_eq s tid ctx pj)).trans rfl
@[simp] theorem State.bill_streams (tid ctx pj : Nat) : (s.bill tid ctx pj).streams = s.streams := (congrArg State.streams (State.bill_eq s tid ctx pj)).trans rfl
@[simp] theorem State.bill_funcs (tid ctx pj : Nat) : (s.bill tid ctx pj).funcs = s.funcs := (congrArg State.funcs (State.bill_eq s tid ctx pj)).trans rfl
@[simp] theorem State.bill_hostMem (tid ctx pj : Nat) : (s.bill tid ctx pj).hostMem = s.hostMem := (congrArg State.hostMem (State.bill_eq s tid ctx pj)).trans rfl
@[simp] theorem State.bill_chip (tid ctx pj : Nat) : (s.bill tid ctx pj).chip = s.chip := (congrArg State.chip (State.bill_eq s tid ctx pj)).trans rfl
@[simp] theorem State.bill_udpPort (tid ctx pj : Nat) : (s.bill tid ctx pj).udpPort = s.udpPort := (congrArg State.udpPort (State.bill_eq s tid ctx pj)).trans rfl
@[simp] theorem State.bill_peers (tid ctx pj : Nat) : (s.bill tid ctx pj).peers = s.peers := (congrArg State.peers (State.bill_eq s tid ctx pj)).trans rfl
@[simp] theorem State.bill_grants (tid ctx pj : Nat) : (s.bill tid ctx pj).grants = s.grants := (congrArg State.grants (State.bill_eq s tid ctx pj)).trans rfl
@[simp] theorem State.bill_portsDown (tid ctx pj : Nat) : (s.bill tid ctx pj).portsDown = s.portsDown := (congrArg State.portsDown (State.bill_eq s tid ctx pj)).trans rfl
@[simp] theorem State.bill_putsIn (tid ctx pj : Nat) : (s.bill tid ctx pj).putsIn = s.putsIn := (congrArg State.putsIn (State.bill_eq s tid ctx pj)).trans rfl
@[simp] theorem State.bill_powerLimit (tid ctx pj : Nat) : (s.bill tid ctx pj).powerLimit = s.powerLimit := (congrArg State.powerLimit (State.bill_eq s tid ctx pj)).trans rfl
@[simp] theorem State.bill_duty (tid ctx pj : Nat) : (s.bill tid ctx pj).duty = s.duty := (congrArg State.duty (State.bill_eq s tid ctx pj)).trans rfl
@[simp] theorem State.bill_powerSteps (tid ctx pj : Nat) : (s.bill tid ctx pj).powerSteps = s.powerSteps := (congrArg State.powerSteps (State.bill_eq s tid ctx pj)).trans rfl
@[simp] theorem State.bill_stage (tid ctx pj : Nat) : (s.bill tid ctx pj).stage = s.stage := (congrArg State.stage (State.bill_eq s tid ctx pj)).trans rfl
@[simp] theorem State.bill_booted (tid ctx pj : Nat) : (s.bill tid ctx pj).booted = s.booted := (congrArg State.booted (State.bill_eq s tid ctx pj)).trans rfl
@[simp] theorem State.bill_image (tid ctx pj : Nat) : (s.bill tid ctx pj).image = s.image := (congrArg State.image (State.bill_eq s tid ctx pj)).trans rfl
@[simp] theorem State.bill_staged (tid ctx pj : Nat) : (s.bill tid ctx pj).staged = s.staged := (congrArg State.staged (State.bill_eq s tid ctx pj)).trans rfl
@[simp] theorem State.bill_stagedLen (tid ctx pj : Nat) : (s.bill tid ctx pj).stagedLen = s.stagedLen := (congrArg State.stagedLen (State.bill_eq s tid ctx pj)).trans rfl
@[simp] theorem State.bill_quiesce (tid ctx pj : Nat) : (s.bill tid ctx pj).quiesce = s.quiesce := (congrArg State.quiesce (State.bill_eq s tid ctx pj)).trans rfl
@[simp] theorem State.bill_mboxSeq (tid ctx pj : Nat) : (s.bill tid ctx pj).mboxSeq = s.mboxSeq := (congrArg State.mboxSeq (State.bill_eq s tid ctx pj)).trans rfl
@[simp] theorem State.bill_mboxStatus (tid ctx pj : Nat) : (s.bill tid ctx pj).mboxStatus = s.mboxStatus := (congrArg State.mboxStatus (State.bill_eq s tid ctx pj)).trans rfl
@[simp] theorem State.bill_mboxStage (tid ctx pj : Nat) : (s.bill tid ctx pj).mboxStage = s.mboxStage := (congrArg State.mboxStage (State.bill_eq s tid ctx pj)).trans rfl
@[simp] theorem State.bill_mboxBody (tid ctx pj : Nat) : (s.bill tid ctx pj).mboxBody = s.mboxBody := (congrArg State.mboxBody (State.bill_eq s tid ctx pj)).trans rfl
@[simp] theorem State.bill_mboxBuf (tid ctx pj : Nat) : (s.bill tid ctx pj).mboxBuf = s.mboxBuf := (congrArg State.mboxBuf (State.bill_eq s tid ctx pj)).trans rfl
@[simp] theorem State.bill_bootFail (tid ctx pj : Nat) : (s.bill tid ctx pj).bootFail = s.bootFail := (congrArg State.bootFail (State.bill_eq s tid ctx pj)).trans rfl
@[simp] theorem State.bill_stacksFailed (tid ctx pj : Nat) : (s.bill tid ctx pj).stacksFailed = s.stacksFailed := (congrArg State.stacksFailed (State.bill_eq s tid ctx pj)).trans rfl
@[simp] theorem State.bill_migrations (tid ctx pj : Nat) : (s.bill tid ctx pj).migrations = s.migrations := (congrArg State.migrations (State.bill_eq s tid ctx pj)).trans rfl
@[simp] theorem State.bill_ceCores (tid ctx pj : Nat) : (s.bill tid ctx pj).ceCores = s.ceCores := (congrArg State.ceCores (State.bill_eq s tid ctx pj)).trans rfl
@[simp] theorem State.bill_ceTiles (tid ctx pj : Nat) : (s.bill tid ctx pj).ceTiles = s.ceTiles := (congrArg State.ceTiles (State.bill_eq s tid ctx pj)).trans rfl
@[simp] theorem State.bill_keydig (tid ctx pj : Nat) : (s.bill tid ctx pj).keydig = s.keydig := (congrArg State.keydig (State.bill_eq s tid ctx pj)).trans rfl
@[simp] theorem State.bill_minsvn (tid ctx pj : Nat) : (s.bill tid ctx pj).minsvn = s.minsvn := (congrArg State.minsvn (State.bill_eq s tid ctx pj)).trans rfl
@[simp] theorem State.bill_actsvn (tid ctx pj : Nat) : (s.bill tid ctx pj).actsvn = s.actsvn := (congrArg State.actsvn (State.bill_eq s tid ctx pj)).trans rfl
@[simp] theorem State.bill_attaddr (tid ctx pj : Nat) : (s.bill tid ctx pj).attaddr = s.attaddr := (congrArg State.attaddr (State.bill_eq s tid ctx pj)).trans rfl
@[simp] theorem State.bill_attbusy (tid ctx pj : Nat) : (s.bill tid ctx pj).attbusy = s.attbusy := (congrArg State.attbusy (State.bill_eq s tid ctx pj)).trans rfl
@[simp] theorem State.bill_ceThresh (tid ctx pj : Nat) : (s.bill tid ctx pj).ceThresh = s.ceThresh := (congrArg State.ceThresh (State.bill_eq s tid ctx pj)).trans rfl
@[simp] theorem State.bill_critTemp (tid ctx pj : Nat) : (s.bill tid ctx pj).critTemp = s.critTemp := (congrArg State.critTemp (State.bill_eq s tid ctx pj)).trans rfl
@[simp] theorem State.bill_exitTemp (tid ctx pj : Nat) : (s.bill tid ctx pj).exitTemp = s.exitTemp := (congrArg State.exitTemp (State.bill_eq s tid ctx pj)).trans rfl

theorem State.chargeFor_eq (t : Thread) (pj : Nat) :
    s.chargeFor t pj = { s with threads := (s.chargeFor t pj).threads, jobs := (s.chargeFor t pj).jobs, mem := (s.chargeFor t pj).mem, poison := (s.chargeFor t pj).poison, hbm := (s.chargeFor t pj).hbm } := by
  unfold State.chargeFor; split
  · rw [State.bill_eq]
  · rfl

@[simp] theorem State.chargeFor_cycle (t : Thread) (pj : Nat) : (s.chargeFor t pj).cycle = s.cycle := (congrArg State.cycle (State.chargeFor_eq s t pj)).trans rfl
@[simp] theorem State.chargeFor_cur (t : Thread) (pj : Nat) : (s.chargeFor t pj).cur = s.cur := (congrArg State.cur (State.chargeFor_eq s t pj)).trans rfl
@[simp] theorem State.chargeFor_agenda (t : Thread) (pj : Nat) : (s.chargeFor t pj).agenda = s.agenda := (congrArg State.agenda (State.chargeFor_eq s t pj)).trans rfl
@[simp] theorem State.chargeFor_freeCtr (t : Thread) (pj : Nat) : (s.chargeFor t pj).freeCtr = s.freeCtr := (congrArg State.freeCtr (State.chargeFor_eq s t pj)).trans rfl
@[simp] theorem State.chargeFor_nextTid (t : Thread) (pj : Nat) : (s.chargeFor t pj).nextTid = s.nextTid := (congrArg State.nextTid (State.chargeFor_eq s t pj)).trans rfl
@[simp] theorem State.chargeFor_nextId (t : Thread) (pj : Nat) : (s.chargeFor t pj).nextId = s.nextId := (congrArg State.nextId (State.chargeFor_eq s t pj)).trans rfl
@[simp] theorem State.chargeFor_lastNum (t : Thread) (pj : Nat) : (s.chargeFor t pj).lastNum = s.lastNum := (congrArg State.lastNum (State.chargeFor_eq s t pj)).trans rfl
@[simp] theorem State.chargeFor_cores (t : Thread) (pj : Nat) : (s.chargeFor t pj).cores = s.cores := (congrArg State.cores (State.chargeFor_eq s t pj)).trans rfl
@[simp] theorem State.chargeFor_clusters (t : Thread) (pj : Nat) : (s.chargeFor t pj).clusters = s.clusters := (congrArg State.clusters (State.chargeFor_eq s t pj)).trans rfl
@[simp] theorem State.chargeFor_fwcores (t : Thread) (pj : Nat) : (s.chargeFor t pj).fwcores = s.fwcores := (congrArg State.fwcores (State.chargeFor_eq s t pj)).trans rfl
@[simp] theorem State.chargeFor_tlb (t : Thread) (pj : Nat) : (s.chargeFor t pj).tlb = s.tlb := (congrArg State.tlb (State.chargeFor_eq s t pj)).trans rfl
@[simp] theorem State.chargeFor_icache (t : Thread) (pj : Nat) : (s.chargeFor t pj).icache = s.icache := (congrArg State.icache (State.chargeFor_eq s t pj)).trans rfl
@[simp] theorem State.chargeFor_icacheUE (t : Thread) (pj : Nat) : (s.chargeFor t pj).icacheUE = s.icacheUE := (congrArg State.icacheUE (State.chargeFor_eq s t pj)).trans rfl
@[simp] theorem State.chargeFor_stores (t : Thread) (pj : Nat) : (s.chargeFor t pj).stores = s.stores := (congrArg State.stores (State.chargeFor_eq s t pj)).trans rfl
@[simp] theorem State.chargeFor_race (t : Thread) (pj : Nat) : (s.chargeFor t pj).race = s.race := (congrArg State.race (State.chargeFor_eq s t pj)).trans rfl
@[simp] theorem State.chargeFor_spillTold (t : Thread) (pj : Nat) : (s.chargeFor t pj).spillTold = s.spillTold := (congrArg State.spillTold (State.chargeFor_eq s t pj)).trans rfl
@[simp] theorem State.chargeFor_cleared (t : Thread) (pj : Nat) : (s.chargeFor t pj).cleared = s.cleared := (congrArg State.cleared (State.chargeFor_eq s t pj)).trans rfl
@[simp] theorem State.chargeFor_noteOps (t : Thread) (pj : Nat) : (s.chargeFor t pj).noteOps = s.noteOps := (congrArg State.noteOps (State.chargeFor_eq s t pj)).trans rfl
@[simp] theorem State.chargeFor_tails (t : Thread) (pj : Nat) : (s.chargeFor t pj).tails = s.tails := (congrArg State.tails (State.chargeFor_eq s t pj)).trans rfl
@[simp] theorem State.chargeFor_faults (t : Thread) (pj : Nat) : (s.chargeFor t pj).faults = s.faults := (congrArg State.faults (State.chargeFor_eq s t pj)).trans rfl
@[simp] theorem State.chargeFor_qwaits (t : Thread) (pj : Nat) : (s.chargeFor t pj).qwaits = s.qwaits := (congrArg State.qwaits (State.chargeFor_eq s t pj)).trans rfl
@[simp] theorem State.chargeFor_pipelines (t : Thread) (pj : Nat) : (s.chargeFor t pj).pipelines = s.pipelines := (congrArg State.pipelines (State.chargeFor_eq s t pj)).trans rfl
@[simp] theorem State.chargeFor_queries (t : Thread) (pj : Nat) : (s.chargeFor t pj).queries = s.queries := (congrArg State.queries (State.chargeFor_eq s t pj)).trans rfl
@[simp] theorem State.chargeFor_streams (t : Thread) (pj : Nat) : (s.chargeFor t pj).streams = s.streams := (congrArg State.streams (State.chargeFor_eq s t pj)).trans rfl
@[simp] theorem State.chargeFor_funcs (t : Thread) (pj : Nat) : (s.chargeFor t pj).funcs = s.funcs := (congrArg State.funcs (State.chargeFor_eq s t pj)).trans rfl
@[simp] theorem State.chargeFor_hostMem (t : Thread) (pj : Nat) : (s.chargeFor t pj).hostMem = s.hostMem := (congrArg State.hostMem (State.chargeFor_eq s t pj)).trans rfl
@[simp] theorem State.chargeFor_chip (t : Thread) (pj : Nat) : (s.chargeFor t pj).chip = s.chip := (congrArg State.chip (State.chargeFor_eq s t pj)).trans rfl
@[simp] theorem State.chargeFor_udpPort (t : Thread) (pj : Nat) : (s.chargeFor t pj).udpPort = s.udpPort := (congrArg State.udpPort (State.chargeFor_eq s t pj)).trans rfl
@[simp] theorem State.chargeFor_peers (t : Thread) (pj : Nat) : (s.chargeFor t pj).peers = s.peers := (congrArg State.peers (State.chargeFor_eq s t pj)).trans rfl
@[simp] theorem State.chargeFor_grants (t : Thread) (pj : Nat) : (s.chargeFor t pj).grants = s.grants := (congrArg State.grants (State.chargeFor_eq s t pj)).trans rfl
@[simp] theorem State.chargeFor_portsDown (t : Thread) (pj : Nat) : (s.chargeFor t pj).portsDown = s.portsDown := (congrArg State.portsDown (State.chargeFor_eq s t pj)).trans rfl
@[simp] theorem State.chargeFor_putsIn (t : Thread) (pj : Nat) : (s.chargeFor t pj).putsIn = s.putsIn := (congrArg State.putsIn (State.chargeFor_eq s t pj)).trans rfl
@[simp] theorem State.chargeFor_powerLimit (t : Thread) (pj : Nat) : (s.chargeFor t pj).powerLimit = s.powerLimit := (congrArg State.powerLimit (State.chargeFor_eq s t pj)).trans rfl
@[simp] theorem State.chargeFor_duty (t : Thread) (pj : Nat) : (s.chargeFor t pj).duty = s.duty := (congrArg State.duty (State.chargeFor_eq s t pj)).trans rfl
@[simp] theorem State.chargeFor_powerSteps (t : Thread) (pj : Nat) : (s.chargeFor t pj).powerSteps = s.powerSteps := (congrArg State.powerSteps (State.chargeFor_eq s t pj)).trans rfl
@[simp] theorem State.chargeFor_stage (t : Thread) (pj : Nat) : (s.chargeFor t pj).stage = s.stage := (congrArg State.stage (State.chargeFor_eq s t pj)).trans rfl
@[simp] theorem State.chargeFor_booted (t : Thread) (pj : Nat) : (s.chargeFor t pj).booted = s.booted := (congrArg State.booted (State.chargeFor_eq s t pj)).trans rfl
@[simp] theorem State.chargeFor_image (t : Thread) (pj : Nat) : (s.chargeFor t pj).image = s.image := (congrArg State.image (State.chargeFor_eq s t pj)).trans rfl
@[simp] theorem State.chargeFor_staged (t : Thread) (pj : Nat) : (s.chargeFor t pj).staged = s.staged := (congrArg State.staged (State.chargeFor_eq s t pj)).trans rfl
@[simp] theorem State.chargeFor_stagedLen (t : Thread) (pj : Nat) : (s.chargeFor t pj).stagedLen = s.stagedLen := (congrArg State.stagedLen (State.chargeFor_eq s t pj)).trans rfl
@[simp] theorem State.chargeFor_quiesce (t : Thread) (pj : Nat) : (s.chargeFor t pj).quiesce = s.quiesce := (congrArg State.quiesce (State.chargeFor_eq s t pj)).trans rfl
@[simp] theorem State.chargeFor_mboxSeq (t : Thread) (pj : Nat) : (s.chargeFor t pj).mboxSeq = s.mboxSeq := (congrArg State.mboxSeq (State.chargeFor_eq s t pj)).trans rfl
@[simp] theorem State.chargeFor_mboxStatus (t : Thread) (pj : Nat) : (s.chargeFor t pj).mboxStatus = s.mboxStatus := (congrArg State.mboxStatus (State.chargeFor_eq s t pj)).trans rfl
@[simp] theorem State.chargeFor_mboxStage (t : Thread) (pj : Nat) : (s.chargeFor t pj).mboxStage = s.mboxStage := (congrArg State.mboxStage (State.chargeFor_eq s t pj)).trans rfl
@[simp] theorem State.chargeFor_mboxBody (t : Thread) (pj : Nat) : (s.chargeFor t pj).mboxBody = s.mboxBody := (congrArg State.mboxBody (State.chargeFor_eq s t pj)).trans rfl
@[simp] theorem State.chargeFor_mboxBuf (t : Thread) (pj : Nat) : (s.chargeFor t pj).mboxBuf = s.mboxBuf := (congrArg State.mboxBuf (State.chargeFor_eq s t pj)).trans rfl
@[simp] theorem State.chargeFor_bootFail (t : Thread) (pj : Nat) : (s.chargeFor t pj).bootFail = s.bootFail := (congrArg State.bootFail (State.chargeFor_eq s t pj)).trans rfl
@[simp] theorem State.chargeFor_stacksFailed (t : Thread) (pj : Nat) : (s.chargeFor t pj).stacksFailed = s.stacksFailed := (congrArg State.stacksFailed (State.chargeFor_eq s t pj)).trans rfl
@[simp] theorem State.chargeFor_migrations (t : Thread) (pj : Nat) : (s.chargeFor t pj).migrations = s.migrations := (congrArg State.migrations (State.chargeFor_eq s t pj)).trans rfl
@[simp] theorem State.chargeFor_ceCores (t : Thread) (pj : Nat) : (s.chargeFor t pj).ceCores = s.ceCores := (congrArg State.ceCores (State.chargeFor_eq s t pj)).trans rfl
@[simp] theorem State.chargeFor_ceTiles (t : Thread) (pj : Nat) : (s.chargeFor t pj).ceTiles = s.ceTiles := (congrArg State.ceTiles (State.chargeFor_eq s t pj)).trans rfl
@[simp] theorem State.chargeFor_keydig (t : Thread) (pj : Nat) : (s.chargeFor t pj).keydig = s.keydig := (congrArg State.keydig (State.chargeFor_eq s t pj)).trans rfl
@[simp] theorem State.chargeFor_minsvn (t : Thread) (pj : Nat) : (s.chargeFor t pj).minsvn = s.minsvn := (congrArg State.minsvn (State.chargeFor_eq s t pj)).trans rfl
@[simp] theorem State.chargeFor_actsvn (t : Thread) (pj : Nat) : (s.chargeFor t pj).actsvn = s.actsvn := (congrArg State.actsvn (State.chargeFor_eq s t pj)).trans rfl
@[simp] theorem State.chargeFor_attaddr (t : Thread) (pj : Nat) : (s.chargeFor t pj).attaddr = s.attaddr := (congrArg State.attaddr (State.chargeFor_eq s t pj)).trans rfl
@[simp] theorem State.chargeFor_attbusy (t : Thread) (pj : Nat) : (s.chargeFor t pj).attbusy = s.attbusy := (congrArg State.attbusy (State.chargeFor_eq s t pj)).trans rfl
@[simp] theorem State.chargeFor_ceThresh (t : Thread) (pj : Nat) : (s.chargeFor t pj).ceThresh = s.ceThresh := (congrArg State.ceThresh (State.chargeFor_eq s t pj)).trans rfl
@[simp] theorem State.chargeFor_critTemp (t : Thread) (pj : Nat) : (s.chargeFor t pj).critTemp = s.critTemp := (congrArg State.critTemp (State.chargeFor_eq s t pj)).trans rfl
@[simp] theorem State.chargeFor_exitTemp (t : Thread) (pj : Nat) : (s.chargeFor t pj).exitTemp = s.exitTemp := (congrArg State.exitTemp (State.chargeFor_eq s t pj)).trans rfl

end Sys2Proof.Machine
end

