-- ==== Sys2Proof/Laws/Crypto.lean ====
section
/-! SUPPORT. The digest and the signature check of Machine/Crypto.lean, written so that each intermediate number is evaluated before it is
used: equal to the definitions, and short for the kernel to compute. -/

namespace Sys2Proof.Machine

/-- A function of a number that is evaluated first. -/
def strict {α : Type} (n : Nat) (f : Nat → α) : α :=
  match n with
  | 0 => f 0
  | m + 1 => f (m + 1)
@[simp] theorem strict_eq {α : Type} (n : Nat) (f : Nat → α) : strict n f = f n := by cases n <;> rfl

/-- A function of a word that is evaluated first. -/
def strictWord {α : Type} {n : Nat} (w : BitVec n) (f : BitVec n → α) : α := strict w.toNat fun k => f (BitVec.ofNat n k)
@[simp] theorem strictWord_eq {α : Type} {n : Nat} (w : BitVec n) (f : BitVec n → α) : strictWord w f = f w := by simp [strictWord]

/-- A function of some words that are evaluated first. -/
def strictWords {α : Type} {n : Nat} : List (BitVec n) → (List (BitVec n) → α) → α
  | [], f => f []
  | w :: ws, f => strictWord w fun w => strictWords ws fun ws => f (w :: ws)
@[simp] theorem strictWords_eq {α : Type} {n : Nat} (ws : List (BitVec n)) (f : List (BitVec n) → α) : strictWords ws f = f ws := by
  induction ws generalizing f with
  | nil => rfl
  | cons w ws ih => simp [strictWords, ih]

/-- A function of a digest in progress that is evaluated first. -/
def Sm3.strict {α : Type} (v : Sm3) (k : Sm3 → α) : α :=
  strictWord v.a fun a => strictWord v.b fun b => strictWord v.c fun c => strictWord v.d fun d =>
  strictWord v.e fun e => strictWord v.f fun f => strictWord v.g fun g => strictWord v.h fun h => k ⟨a, b, c, d, e, f, g, h⟩
@[simp] theorem Sm3.strict_eq {α : Type} (v : Sm3) (k : Sm3 → α) : v.strict k = k v := by simp [Sm3.strict]

def sm3ExpandStrict : Nat → List W32 → List W32
  | 0, ws => ws
  | n + 1, ws =>
    let w (i : Nat) : W32 := ws.getD (i - 1) 0#32
    strictWord (sm3P1 (w 16 ^^^ w 9 ^^^ (w 3).rotateLeft 15) ^^^ (w 13).rotateLeft 7 ^^^ w 6) fun x => sm3ExpandStrict n (x :: ws)
theorem sm3Expand_eq (n : Nat) (ws : List W32) : sm3Expand n ws = sm3ExpandStrict n ws := by
  induction n generalizing ws with
  | zero => rfl
  | succ n ih => simp [sm3Expand, sm3ExpandStrict, ih]

def Sm3.roundsStrict (ws : List W32) : Nat → Nat → Sm3 → Sm3
  | 0, _, v => v
  | n + 1, j, v => (v.round j (ws.getD j 0#32) (ws.getD j 0#32 ^^^ ws.getD (j + 4) 0#32)).strict (Sm3.roundsStrict ws n (j + 1))
theorem Sm3.rounds_eq (ws : List W32) (n j : Nat) (v : Sm3) : Sm3.rounds ws n j v = Sm3.roundsStrict ws n j v := by
  induction n generalizing j v with
  | zero => rfl
  | succ n ih => simp [Sm3.rounds, Sm3.roundsStrict, ih]

def Sm3.blockStrict (v : Sm3) (bs : List Byte) : Sm3 :=
  strictWords ((List.range 16).map fun i => bigWord ((bs.drop (4 * i)).take 4)) fun ws =>
  strictWords (sm3ExpandStrict 52 ws.reverse).reverse fun es =>
  let u := Sm3.roundsStrict es 64 0 v
  ⟨v.a ^^^ u.a, v.b ^^^ u.b, v.c ^^^ u.c, v.d ^^^ u.d, v.e ^^^ u.e, v.f ^^^ u.f, v.g ^^^ u.g, v.h ^^^ u.h⟩
theorem Sm3.block_eq (v : Sm3) (bs : List Byte) : v.block bs = v.blockStrict bs := by
  simp [Sm3.block, Sm3.blockStrict, sm3Expand_eq, Sm3.rounds_eq]

def Sm3.blocksStrict : Nat → List Byte → Sm3 → Sm3
  | 0, _, v => v
  | n + 1, bs, v => (v.blockStrict (bs.take 64)).strict (Sm3.blocksStrict n (bs.drop 64))
theorem Sm3.blocks_eq (n : Nat) (bs : List Byte) (v : Sm3) : Sm3.blocks n bs v = Sm3.blocksStrict n bs v := by
  induction n generalizing bs v with
  | zero => rfl
  | succ n ih => simp [Sm3.blocks, Sm3.blocksStrict, ih, Sm3.block_eq]

def sm3Strict (m : List Byte) : Nat :=
  strictWords (sm3Pad m) fun p =>
  (Sm3.blocksStrict (p.length / 64) p Sm3.start).strict fun v =>
  [v.a, v.b, v.c, v.d, v.e, v.f, v.g, v.h].foldl (fun n w => n * 2 ^ 32 + w.toNat) 0
theorem sm3_eq (m : List Byte) : sm3 m = sm3Strict m := by simp [sm3, sm3Strict, Sm3.blocks_eq]

/-- What `powMod` computes. -/
theorem powMod_pow (k b e : Nat) (he : e < 2 ^ k) : powMod k b e = b ^ e % sm2P := by
  induction k generalizing b e with
  | zero => simp at he; simp [powMod, he]; decide
  | succ k ih =>
    have h2 : (b * b % sm2P) ^ (e / 2) % sm2P = (b ^ (2 * (e / 2))) % sm2P := by
      rw [← Nat.pow_mod, Nat.pow_mul, Nat.pow_two]
    simp only [powMod, ih (b * b % sm2P) (e / 2) (by omega), h2]
    split
    · rw [← Nat.mul_mod_mod, Nat.mod_mod, Nat.mul_mod_mod, ← Nat.pow_succ']; congr 2; omega
    · congr 2; omega

/-- A power modulo p, the exponent given by its digits to base 32. -/
def powDigits (b : Nat) : List Nat → Nat → Nat
  | [], a => a
  | d :: ds, a => strict (Nat.mod (Nat.mul (Nat.pow a 32) (Nat.pow b d)) sm2P) (powDigits b ds)
theorem powDigits_eq (b : Nat) (ds : List Nat) (n : Nat) :
    powDigits b ds (b ^ n % sm2P) = b ^ (ds.foldl (fun n d => n * 32 + d) n) % sm2P := by
  induction ds generalizing n with
  | nil => rfl
  | cons d ds ih =>
    have h : Nat.mod (Nat.mul (Nat.pow (b ^ n % sm2P) 32) (Nat.pow b d)) sm2P = b ^ (n * 32 + d) % sm2P := by
      show (b ^ n % sm2P) ^ 32 * b ^ d % sm2P = _
      rw [Nat.mul_mod, ← Nat.pow_mod, ← Nat.mul_mod, ← Nat.pow_mul, ← Nat.pow_add]
    simp only [powDigits, strict_eq, h, ih, List.foldl_cons]
/-- The digits of p - 2. -/
def invDigits : List Nat :=
  [1] ++ List.replicate 6 31 ++ [15] ++ List.replicate 24 31 ++ [30] ++ List.replicate 6 0 ++ [15] ++ List.replicate 11 31 ++ [29]
theorem powMod_inv (b : Nat) : powMod 256 b (sm2P - 2) = powDigits b invDigits (1 % sm2P) := by
  rw [powMod_pow 256 b _ (by decide +kernel), show (1 : Nat) % sm2P = b ^ 0 % sm2P by rw [Nat.pow_zero], powDigits_eq,
    show invDigits.foldl (fun n d => n * 32 + d) 0 = sm2P - 2 by decide +kernel]

/-- A function of a point that is evaluated first. -/
def Point.strict {α : Type} (u : Point) (f : Point → α) : α :=
  match u with
  | none => f none
  | some (x, y) => Machine.strict x fun x => Machine.strict y fun y => f (some (x, y))
@[simp] theorem Point.strict_eq {α : Type} (u : Point) (f : Point → α) : u.strict f = f u := by
  cases u <;> simp [Point.strict]

def divModStrict (x y : Nat) : Nat := strict (y % sm2P) fun y => x * powDigits y invDigits (1 % sm2P) % sm2P
theorem divMod_eq (x y : Nat) : divMod x y = divModStrict x y := by simp [divMod, divModStrict, powMod_inv]
def Point.chordStrict (l x1 y1 x2 : Nat) : Point :=
  Machine.strict l fun l => Machine.strict (subMod (subMod (l * l) x1) x2) fun x3 => some (x3, subMod (l * subMod x1 x3) y1)
theorem Point.chord_eq (l x1 y1 x2 : Nat) : Point.chord l x1 y1 x2 = Point.chordStrict l x1 y1 x2 := by
  simp [Point.chord, Point.chordStrict]
def Point.addStrict (u v : Point) : Point :=
  match u, v with
  | none, v => v
  | u, none => u
  | some (x1, y1), some (x2, y2) =>
    if x1 ≠ x2 then Point.chordStrict (divModStrict (subMod y2 y1) (subMod x2 x1)) x1 y1 x2
    else if (y1 + y2) % sm2P = 0 then none
    else Point.chordStrict (divModStrict (3 * x1 * x1 + sm2A) (2 * y1)) x1 y1 x2
theorem Point.add_eq (u v : Point) : u.add v = u.addStrict v := by
  cases u <;> cases v <;> simp only [Point.add, Point.addStrict, divMod_eq, Point.chord_eq]

def Point.timesStrict : Nat → Nat → Point → Point
  | 0, _, _ => none
  | k + 1, e, u =>
    Machine.strict (e / 2) fun e' => (u.addStrict u).strict fun u' => (Point.timesStrict k e' u').strict fun v =>
    if e % 2 = 1 then u.addStrict v else v
theorem Point.times_eq (k e : Nat) (u : Point) : Point.times k e u = Point.timesStrict k e u := by
  induction k generalizing e u with
  | zero => rfl
  | succ k ih => simp [Point.times, Point.timesStrict, ih, Point.add_eq]

/-- The signature check from a digest that is known. -/
theorem sm2Verify_eq {x y r s e : Nat} {m : List Byte} (h : sm2Digest x y m = e) :
    sm2Verify x y m r s = (decide (1 ≤ r ∧ r < sm2N) && decide (1 ≤ s ∧ s < sm2N) && (r + s) % sm2N != 0
      && match (Point.timesStrict 256 s (some sm2G)).addStrict (Point.timesStrict 256 ((r + s) % sm2N) (some (x, y))) with
        | some (x1, _) => (e + x1) % sm2N == r
        | none => false) := by
  simp only [sm2Verify, h, Point.add_eq, Point.times_eq] <;> rfl

end Sys2Proof.Machine
end

