-- ==== Sys2Proof/Laws/Issue.lean ====
section
/-! SUPPORT. What issuing an instruction does, said once: the charge, the checks at decode, and the thread put back. The provers cite
these and unfold neither `issue` nor `takeTrap`. -/

namespace Sys2Proof.Machine

open Sys2Proof.Safety

/-! ### Threads by number -/

theorem find_replaced (l : List Thread) (t u : Thread) (n : Nat) (h : l.find? (fun t => t.tid == n) = some t) (hu : u.tid = n) :
    (l.map fun v => if v.tid = u.tid then u else v).find? (fun t => t.tid == n) = some u := by
  subst hu
  induction l with
  | nil => simp at h
  | cons x xs ih =>
    rw [List.map_cons, List.find?_cons]
    by_cases hx : x.tid = u.tid
    · simp [hx]
    · have hb : (x.tid == u.tid) = false := by simpa using hx
      rw [List.find?_cons, hb] at h
      rw [if_neg hx, hb]
      exact ih h

theorem find_other (l : List Thread) (u : Thread) (n : Nat) (h : u.tid ≠ n) :
    (l.map fun v => if v.tid = u.tid then u else v).find? (fun t => t.tid == n) = l.find? (fun t => t.tid == n) := by
  induction l with
  | nil => rfl
  | cons x xs ih =>
    rw [List.map_cons, List.find?_cons, List.find?_cons, ih]
    by_cases hx : x.tid = u.tid
    · have h1 : (u.tid == n) = false := by simpa using h
      rw [if_pos hx, h1, hx, h1]
    · rw [if_neg hx]

/-- The thread with a number, after that number's thread was replaced. -/
theorem State.thread?_setThread (s : State) (t u : Thread) (n : Nat) (h : s.thread? n = some t) (hu : u.tid = n) :
    (s.setThread u).thread? n = some u := find_replaced s.threads t u n h hu

/-- Another thread's number is not touched. -/
theorem State.thread?_setThread_ne (s : State) (u : Thread) (n : Nat) (h : u.tid ≠ n) :
    (s.setThread u).thread? n = s.thread? n := find_other s.threads u n h

/-- A thread found by its number bears it. -/
theorem State.tid_of_thread? (s : State) (t : Thread) (n : Nat) (h : s.thread? n = some t) : t.tid = n := by
  have := List.find?_some h
  simpa using this

/-- The thread whose slot it is: found, runnable and in a phase. -/
theorem State.current_eq (s : State) (t : Thread) (h : s.current = some t) :
    s.thread? s.cur = some t ∧ t.run = .runnable ∧ t.phase?.isSome = true := by
  unfold State.current at h
  split at h
  · rename_i u hu
    split at h
    · cases h
      exact ⟨hu, ‹_›⟩
    · cases h
  · cases h

theorem State.current_tid (s : State) (t : Thread) (h : s.current = some t) : s.thread? t.tid = some t := by
  have h1 := (s.current_eq t h).1
  rw [s.tid_of_thread? t _ h1]
  exact h1

/-! ### The charge of an issue (R141, R311, R316) -/

@[simp] theorem Thread.charge_tid (t : Thread) (n : Nat) (b : Bool) (p : Nat) : (t.charge n b p).tid = t.tid := by
  unfold Thread.charge; split <;> rfl
@[simp] theorem Thread.charge_ctx (t : Thread) (n : Nat) (b : Bool) (p : Nat) : (t.charge n b p).ctx = t.ctx := by
  unfold Thread.charge; split <;> rfl
@[simp] theorem Thread.charge_loc (t : Thread) (n : Nat) (b : Bool) (p : Nat) : (t.charge n b p).loc = t.loc := by
  unfold Thread.charge; split <;> rfl
@[simp] theorem Thread.charge_run (t : Thread) (n : Nat) (b : Bool) (p : Nat) : (t.charge n b p).run = t.run := by
  unfold Thread.charge; split <;> rfl
@[simp] theorem Thread.charge_pc (t : Thread) (n : Nat) (b : Bool) (p : Nat) : (t.charge n b p).pc = t.pc := by
  unfold Thread.charge; split <;> rfl
@[simp] theorem Thread.charge_c (t : Thread) (n : Nat) (b : Bool) (p : Nat) : (t.charge n b p).c = t.c := by
  unfold Thread.charge; split <;> rfl
@[simp] theorem Thread.charge_lev (t : Thread) (n : Nat) (b : Bool) (p : Nat) : (t.charge n b p).lev = t.lev := by
  unfold Thread.charge; split <;> rfl
@[simp] theorem Thread.charge_pfx (t : Thread) (n : Nat) (b : Bool) (p : Nat) : (t.charge n b p).csr.pfx = t.csr.pfx := by
  unfold Thread.charge; split <;> rfl
@[simp] theorem Thread.charge_latch (t : Thread) (n : Nat) (b : Bool) (p : Nat) : (t.charge n b p).csr.latch = t.csr.latch := by
  unfold Thread.charge; split <;> rfl
@[simp] theorem Thread.charge_handler_some (t : Thread) (n : Nat) (b : Bool) (p : Nat) :
    (t.charge n b p).handler.isSome = t.handler.isSome := by
  unfold Thread.charge; split <;> simp
@[simp] theorem Thread.charge_handler_none (t : Thread) (n : Nat) (b : Bool) (p : Nat) :
    (t.charge n b p).handler.isNone = t.handler.isNone := by
  unfold Thread.charge; split <;> simp
@[simp] theorem Thread.charge_isFw (t : Thread) (n : Nat) (b : Bool) (p : Nat) : (t.charge n b p).isFw = t.isFw := by
  simp [Thread.isFw]
@[simp] theorem Thread.charge_csrsBut (t : Thread) (n : Nat) (b : Bool) (p : Nat) :
    csrsBut (t.charge n b p).csr = csrsBut t.csr := by
  unfold Thread.charge csrsBut; split <;> rfl

/-- A charge to no handler leaves the rest of the state alone. -/
theorem State.chargeFor_task (s : State) (t : Thread) (p : Nat) (h : t.handler = none) : s.chargeFor t p = s := by
  unfold State.chargeFor; rw [h]

/-! ### Issue -/

/-- A clear instruction meets no cause at decode. -/
theorem clear_decodeStop {i : Instr} {s : State} {t : Thread} (h : Clear i s t) :
    decodeStop i (chargedThread i t s) = none := by
  unfold decodeStop chargedThread
  have h1 : illegalHere i (t.charge s.now (!t.isFw && s.reload t != 0) (issueCost i)) = illegalHere i t := by
    simp [illegalHere]
  have h2 : unprivileged i (t.charge s.now (!t.isFw && s.reload t != 0) (issueCost i)) = unprivileged i t := by
    simp [unprivileged]
  simp only [h1, h2, h.fields, h.here, h.mode, Thread.charge_handler_some, Thread.charge_pfx, Thread.charge_latch]
  have h3 : (t.handler.isSome && barred i) = false := by
    by_cases hh : t.handler.isSome = true
    · simp [hh, h.handler hh]
    · simp [hh]
  have h4 : (t.csr.pfx && (!takesPrefix i || rejectsFmts i t.csr.latch)) = false := by
    by_cases hp : t.csr.pfx = true
    · have := h.fmt hp
      simp [hp, this.1, this.2]
    · simp [hp]
  simp only [h3, h4]
  have h5 : ¬ ((t.charge s.now (!t.isFw && s.reload t != 0) (issueCost i)).handler.map (·.issues)).getD 0 > 256 := by
    unfold Thread.charge
    cases hh : t.handler with
    | none => split <;> simp
    | some k =>
      have := h.issues k hh
      split <;> simp <;> omega
  simp [h5]

/-- What a clear instruction does whose body answers a next thread and state. -/
theorem issue_next {i : Instr} {s s' : State} {t u : Thread} {body : Thread → State → Done} (h : Clear i s t)
    (hb : body (chargedThread i t s) (chargedState i t s) = .ok (u, s')) : issue i body s = .next (s'.settle u) := by
  unfold issue issueChecked
  rw [h.slot]
  have := clear_decodeStop h
  simp only [chargedThread, chargedState] at this hb
  simp only [this, hb]

/-- What a clear instruction does whose body stops. -/
theorem issue_stop {i : Instr} {s : State} {t : Thread} {body : Thread → State → Done} {x : Stop} (h : Clear i s t)
    (hb : body (chargedThread i t s) (chargedState i t s) = .error x) :
    issue i body s = .next ((chargedState i t s).stop (chargedThread i t s) x) := by
  unfold issue issueChecked
  rw [h.slot]
  have := clear_decodeStop h
  simp only [chargedThread, chargedState] at this hb ⊢
  simp only [this, hb]

/-- An instruction that meets a cause at decode stops with it. -/
theorem issue_decode {i : Instr} {s : State} {t : Thread} {body : Thread → State → Done} {x : Stop} (h : s.current = some t)
    (hx : decodeStop i (chargedThread i t s) = some x) :
    issue i body s = .next ((chargedState i t s).stop (chargedThread i t s) x) := by
  unfold issue issueChecked
  rw [h]
  simp only [chargedThread, chargedState] at hx ⊢
  simp only [hx]

/-- No word issues where no thread's slot it is. -/
theorem issue_noThread {i : Instr} {s : State} {body : Thread → State → Done} (h : s.current = none) :
    issue i body s = .refused .noThread := by
  unfold issue issueChecked; rw [h]

/-- A thread that is at no blocking point is simply put back. -/
theorem State.settle_runnable (s : State) (u : Thread) (h : u.run = .runnable) : s.settle u = s.setThread u := by
  unfold State.settle; rw [h]; rfl

/-- Operands that can be read and written stop nothing. -/
theorem readable_ready {t : Thread} {s : State} {w : BitVec 2} {srcs dst : List Reg} (h : Readable t s w srcs dst) :
    ready t s w srcs dst = none := by
  unfold ready readyBy
  have h1 : badPort t s (srcs ++ dst) = none := by
    unfold badPort
    rw [List.find?_eq_none]
    intro r hr
    by_cases hp : isPort r = true
    · have := h.ports r hr hp
      cases hq : s.portTarget t r <;> simp_all
    · simp [hp]
  have h2 : srcs.any (fun r => t.c.ue.any fun u => u.1 == r.toNat) = false := by
    rw [List.any_eq_false]
    intro r hr
    rw [Bool.not_eq_true, List.any_eq_false]
    intro u hu
    simpa using h.sound r hr u hu
  have h3 : srcs.filter (fun r => !srcFull t s w r) = [] := by
    rw [List.filter_eq_nil_iff]
    intro r hr
    simp [h.full r hr]
  have h4 : dst.find? (fun d => destBusy t s d) = none := by
    rw [List.find?_eq_none]
    intro d hd
    simp [h.room d hd]
  simp only [h1, h2, h3, h4]
  rfl

end Sys2Proof.Machine
end

