-- ==== Sys2Proof/Laws/Late.lean ====
section
/-! SUPPORT. The words of opcodes 0x28-0x2A, whose meanings go without their constructors, issue as any other instruction does; and a
fetched word runs as the instruction it decodes to. -/

namespace Sys2Proof.Machine

/-- Two issues agree whose charges and checks agree. -/
theorem issueLate_of {w : W32} {ok : Bool} {i : Instr} (hc : lateCost w ok = issueCost i) (hs : ∀ t, lateStop w ok t = decodeStop i t)
    (body : Thread → State → Done) (s : State) : issueLate w ok body s = issue i body s := by
  unfold issueLate issue
  rw [hc, funext hs]

@[simp] theorem major_encPost (o : OpR) : (Instr.encPost o).major = 0x28 := by
  show (bits (packR 0x28#6 o 0#6) 26 6).toNat = 0x28
  rw [packR_op]; rfl
theorem costRegs_encPost (o : OpR) : costRegs (.encPost o) = [o.d, o.a, o.b] := by
  unfold costRegs
  rw [major_encPost]
  show [bits (packR 0x28#6 o 0#6) 20 6, bits (packR 0x28#6 o 0#6) 14 6, bits (packR 0x28#6 o 0#6) 8 6] = _
  rw [packR_d, packR_a, packR_b]
theorem late_encPost (o : OpR) (body : Thread → State → Done) (s : State) :
    issueLate (packR 0x28#6 o 0#6) (WellFormed.encPostOk o) body s = issue (.encPost o) body s := by
  refine issueLate_of ?_ (fun t => ?_) body s
  · have hw : (Instr.encPost o).wf = WellFormed.encPostOk o := rfl
    unfold lateCost issueCost
    rw [hw, major_encPost, costRegs_encPost, packR_op, packR_d, packR_a, packR_b]
    cases WellFormed.encPostOk o <;> rfl
  · have hw : (Instr.encPost o).wf = WellFormed.encPostOk o := rfl
    have he : (Instr.encPost o).encode = packR 0x28#6 o 0#6 := rfl
    have hu : csrUse (.encPost o) = none := rfl
    unfold lateStop decodeStop
    rw [hw, he, packR_op]
    cases hf : t.isFw <;> cases hh : t.handler <;> cases hp : t.csr.pfx <;> cases hk : WellFormed.encPostOk o <;>
      simp [illegalHere, barred, unprivileged, takesPrefix, hu, hf]

@[simp] theorem major_encWait (o : OpR) : (Instr.encWait o).major = 0x28 := by
  show (bits (packR 0x28#6 o 1#6) 26 6).toNat = 0x28
  rw [packR_op]; rfl
theorem costRegs_encWait (o : OpR) : costRegs (.encWait o) = [o.d, o.a, o.b] := by
  unfold costRegs
  rw [major_encWait]
  show [bits (packR 0x28#6 o 1#6) 20 6, bits (packR 0x28#6 o 1#6) 14 6, bits (packR 0x28#6 o 1#6) 8 6] = _
  rw [packR_d, packR_a, packR_b]
theorem late_encWait (o : OpR) (body : Thread → State → Done) (s : State) :
    issueLate (packR 0x28#6 o 1#6) (WellFormed.encWaitOk o) body s = issue (.encWait o) body s := by
  refine issueLate_of ?_ (fun t => ?_) body s
  · have hw : (Instr.encWait o).wf = WellFormed.encWaitOk o := rfl
    unfold lateCost issueCost
    rw [hw, major_encWait, costRegs_encWait, packR_op, packR_d, packR_a, packR_b]
    cases WellFormed.encWaitOk o <;> rfl
  · have hw : (Instr.encWait o).wf = WellFormed.encWaitOk o := rfl
    have he : (Instr.encWait o).encode = packR 0x28#6 o 1#6 := rfl
    have hu : csrUse (.encWait o) = none := rfl
    unfold lateStop decodeStop
    rw [hw, he, packR_op]
    cases hf : t.isFw <;> cases hh : t.handler <;> cases hp : t.csr.pfx <;> cases hk : WellFormed.encWaitOk o <;>
      simp [illegalHere, barred, unprivileged, takesPrefix, hu, hf]

@[simp] theorem major_encTl (o : OpR) : (Instr.encTl o).major = 0x28 := by
  show (bits (packR 0x28#6 o 2#6) 26 6).toNat = 0x28
  rw [packR_op]; rfl
theorem costRegs_encTl (o : OpR) : costRegs (.encTl o) = [o.d, o.a, o.b] := by
  unfold costRegs
  rw [major_encTl]
  show [bits (packR 0x28#6 o 2#6) 20 6, bits (packR 0x28#6 o 2#6) 14 6, bits (packR 0x28#6 o 2#6) 8 6] = _
  rw [packR_d, packR_a, packR_b]
theorem late_encTl (o : OpR) (body : Thread → State → Done) (s : State) :
    issueLate (packR 0x28#6 o 2#6) (WellFormed.encTlOk o) body s = issue (.encTl o) body s := by
  refine issueLate_of ?_ (fun t => ?_) body s
  · have hw : (Instr.encTl o).wf = WellFormed.encTlOk o := rfl
    unfold lateCost issueCost
    rw [hw, major_encTl, costRegs_encTl, packR_op, packR_d, packR_a, packR_b]
    cases WellFormed.encTlOk o <;> rfl
  · have hw : (Instr.encTl o).wf = WellFormed.encTlOk o := rfl
    have he : (Instr.encTl o).encode = packR 0x28#6 o 2#6 := rfl
    have hu : csrUse (.encTl o) = none := rfl
    unfold lateStop decodeStop
    rw [hw, he, packR_op]
    cases hf : t.isFw <;> cases hh : t.handler <;> cases hp : t.csr.pfx <;> cases hk : WellFormed.encTlOk o <;>
      simp [illegalHere, barred, unprivileged, takesPrefix, hu, hf]

@[simp] theorem major_fabPut (o : OpR) : (Instr.fabPut o).major = 0x28 := by
  show (bits (packR 0x28#6 o 3#6) 26 6).toNat = 0x28
  rw [packR_op]; rfl
theorem costRegs_fabPut (o : OpR) : costRegs (.fabPut o) = [o.d, o.a, o.b] := by
  unfold costRegs
  rw [major_fabPut]
  show [bits (packR 0x28#6 o 3#6) 20 6, bits (packR 0x28#6 o 3#6) 14 6, bits (packR 0x28#6 o 3#6) 8 6] = _
  rw [packR_d, packR_a, packR_b]
theorem late_fabPut (o : OpR) (body : Thread → State → Done) (s : State) :
    issueLate (packR 0x28#6 o 3#6) (WellFormed.fabPutOk o) body s = issue (.fabPut o) body s := by
  refine issueLate_of ?_ (fun t => ?_) body s
  · have hw : (Instr.fabPut o).wf = WellFormed.fabPutOk o := rfl
    unfold lateCost issueCost
    rw [hw, major_fabPut, costRegs_fabPut, packR_op, packR_d, packR_a, packR_b]
    cases WellFormed.fabPutOk o <;> rfl
  · have hw : (Instr.fabPut o).wf = WellFormed.fabPutOk o := rfl
    have he : (Instr.fabPut o).encode = packR 0x28#6 o 3#6 := rfl
    have hu : csrUse (.fabPut o) = none := rfl
    unfold lateStop decodeStop
    rw [hw, he, packR_op]
    cases hf : t.isFw <;> cases hh : t.handler <;> cases hp : t.csr.pfx <;> cases hk : WellFormed.fabPutOk o <;>
      simp [illegalHere, barred, unprivileged, takesPrefix, hu, hf]

@[simp] theorem major_ownGrant (o : OpR) : (Instr.ownGrant o).major = 0x29 := by
  show (bits (packR 0x29#6 o 0#6) 26 6).toNat = 0x29
  rw [packR_op]; rfl
theorem costRegs_ownGrant (o : OpR) : costRegs (.ownGrant o) = [o.d, o.a, o.b] := by
  unfold costRegs
  rw [major_ownGrant]
  show [bits (packR 0x29#6 o 0#6) 20 6, bits (packR 0x29#6 o 0#6) 14 6, bits (packR 0x29#6 o 0#6) 8 6] = _
  rw [packR_d, packR_a, packR_b]
theorem late_ownGrant (o : OpR) (body : Thread → State → Done) (s : State) :
    issueLate (packR 0x29#6 o 0#6) (WellFormed.ownGrantOk o) body s = issue (.ownGrant o) body s := by
  refine issueLate_of ?_ (fun t => ?_) body s
  · have hw : (Instr.ownGrant o).wf = WellFormed.ownGrantOk o := rfl
    unfold lateCost issueCost
    rw [hw, major_ownGrant, costRegs_ownGrant, packR_op, packR_d, packR_a, packR_b]
    cases WellFormed.ownGrantOk o <;> rfl
  · have hw : (Instr.ownGrant o).wf = WellFormed.ownGrantOk o := rfl
    have he : (Instr.ownGrant o).encode = packR 0x29#6 o 0#6 := rfl
    have hu : csrUse (.ownGrant o) = none := rfl
    unfold lateStop decodeStop
    rw [hw, he, packR_op]
    cases hf : t.isFw <;> cases hh : t.handler <;> cases hp : t.csr.pfx <;> cases hk : WellFormed.ownGrantOk o <;>
      simp [illegalHere, barred, unprivileged, takesPrefix, hu, hf]

@[simp] theorem major_ownRevoke (o : OpR) : (Instr.ownRevoke o).major = 0x29 := by
  show (bits (packR 0x29#6 o 1#6) 26 6).toNat = 0x29
  rw [packR_op]; rfl
theorem costRegs_ownRevoke (o : OpR) : costRegs (.ownRevoke o) = [o.d, o.a, o.b] := by
  unfold costRegs
  rw [major_ownRevoke]
  show [bits (packR 0x29#6 o 1#6) 20 6, bits (packR 0x29#6 o 1#6) 14 6, bits (packR 0x29#6 o 1#6) 8 6] = _
  rw [packR_d, packR_a, packR_b]
theorem late_ownRevoke (o : OpR) (body : Thread → State → Done) (s : State) :
    issueLate (packR 0x29#6 o 1#6) (WellFormed.ownRevokeOk o) body s = issue (.ownRevoke o) body s := by
  refine issueLate_of ?_ (fun t => ?_) body s
  · have hw : (Instr.ownRevoke o).wf = WellFormed.ownRevokeOk o := rfl
    unfold lateCost issueCost
    rw [hw, major_ownRevoke, costRegs_ownRevoke, packR_op, packR_d, packR_a, packR_b]
    cases WellFormed.ownRevokeOk o <;> rfl
  · have hw : (Instr.ownRevoke o).wf = WellFormed.ownRevokeOk o := rfl
    have he : (Instr.ownRevoke o).encode = packR 0x29#6 o 1#6 := rfl
    have hu : csrUse (.ownRevoke o) = none := rfl
    unfold lateStop decodeStop
    rw [hw, he, packR_op]
    cases hf : t.isFw <;> cases hh : t.handler <;> cases hp : t.csr.pfx <;> cases hk : WellFormed.ownRevokeOk o <;>
      simp [illegalHere, barred, unprivileged, takesPrefix, hu, hf]

@[simp] theorem major_pinv (o : OpR) : (Instr.pinv o).major = 0x29 := by
  show (bits (packR 0x29#6 o 2#6) 26 6).toNat = 0x29
  rw [packR_op]; rfl
theorem costRegs_pinv (o : OpR) : costRegs (.pinv o) = [o.d, o.a, o.b] := by
  unfold costRegs
  rw [major_pinv]
  show [bits (packR 0x29#6 o 2#6) 20 6, bits (packR 0x29#6 o 2#6) 14 6, bits (packR 0x29#6 o 2#6) 8 6] = _
  rw [packR_d, packR_a, packR_b]
theorem late_pinv (o : OpR) (body : Thread → State → Done) (s : State) :
    issueLate (packR 0x29#6 o 2#6) (WellFormed.pinvOk o) body s = issue (.pinv o) body s := by
  refine issueLate_of ?_ (fun t => ?_) body s
  · have hw : (Instr.pinv o).wf = WellFormed.pinvOk o := rfl
    unfold lateCost issueCost
    rw [hw, major_pinv, costRegs_pinv, packR_op, packR_d, packR_a, packR_b]
    cases WellFormed.pinvOk o <;> rfl
  · have hw : (Instr.pinv o).wf = WellFormed.pinvOk o := rfl
    have he : (Instr.pinv o).encode = packR 0x29#6 o 2#6 := rfl
    have hu : csrUse (.pinv o) = none := rfl
    unfold lateStop decodeStop
    rw [hw, he, packR_op]
    cases hf : t.isFw <;> cases hh : t.handler <;> cases hp : t.csr.pfx <;> cases hk : WellFormed.pinvOk o <;>
      simp [illegalHere, barred, unprivileged, takesPrefix, hu, hf]

@[simp] theorem major_pzero (o : OpR) : (Instr.pzero o).major = 0x29 := by
  show (bits (packR 0x29#6 o 3#6) 26 6).toNat = 0x29
  rw [packR_op]; rfl
theorem costRegs_pzero (o : OpR) : costRegs (.pzero o) = [o.d, o.a, o.b] := by
  unfold costRegs
  rw [major_pzero]
  show [bits (packR 0x29#6 o 3#6) 20 6, bits (packR 0x29#6 o 3#6) 14 6, bits (packR 0x29#6 o 3#6) 8 6] = _
  rw [packR_d, packR_a, packR_b]
theorem late_pzero (o : OpR) (body : Thread → State → Done) (s : State) :
    issueLate (packR 0x29#6 o 3#6) (WellFormed.pzeroOk o) body s = issue (.pzero o) body s := by
  refine issueLate_of ?_ (fun t => ?_) body s
  · have hw : (Instr.pzero o).wf = WellFormed.pzeroOk o := rfl
    unfold lateCost issueCost
    rw [hw, major_pzero, costRegs_pzero, packR_op, packR_d, packR_a, packR_b]
    cases WellFormed.pzeroOk o <;> rfl
  · have hw : (Instr.pzero o).wf = WellFormed.pzeroOk o := rfl
    have he : (Instr.pzero o).encode = packR 0x29#6 o 3#6 := rfl
    have hu : csrUse (.pzero o) = none := rfl
    unfold lateStop decodeStop
    rw [hw, he, packR_op]
    cases hf : t.isFw <;> cases hh : t.handler <;> cases hp : t.csr.pfx <;> cases hk : WellFormed.pzeroOk o <;>
      simp [illegalHere, barred, unprivileged, takesPrefix, hu, hf]

@[simp] theorem major_fmt (o : OpF) : (Instr.fmt o).major = 0x2A := by
  show (bits (packF 0x2A#6 o) 26 6).toNat = 0x2A
  rw [packF_op]; rfl
theorem costRegs_fmt (o : OpF) : costRegs (.fmt o) = [] := by
  unfold costRegs
  rw [major_fmt]
  rfl
theorem late_fmt (o : OpF) (body : Thread → State → Done) (s : State) :
    issueLate (packF 0x2A#6 o) (WellFormed.fmtOk o) body s = issue (.fmt o) body s := by
  refine issueLate_of ?_ (fun t => ?_) body s
  · have hw : (Instr.fmt o).wf = WellFormed.fmtOk o := rfl
    unfold lateCost issueCost
    rw [hw, major_fmt, costRegs_fmt, packF_op]
    cases WellFormed.fmtOk o <;> rfl
  · have hw : (Instr.fmt o).wf = WellFormed.fmtOk o := rfl
    have he : (Instr.fmt o).encode = packF 0x2A#6 o := rfl
    have hu : csrUse (.fmt o) = none := rfl
    unfold lateStop decodeStop
    rw [hw, he, packF_op]
    cases hf : t.isFw <;> cases hh : t.handler <;> cases hp : t.csr.pfx <;> cases hk : WellFormed.fmtOk o <;>
      simp [illegalHere, barred, unprivileged, takesPrefix, hu, hf]

/-- A fetched word runs as the instruction it decodes to, or as an illegal one (R48, R49). -/
theorem runWord_eq (w : W32) (s : State) :
    runWord w s = match decode w with
      | .ok i => exec i s
      | .error _ => execIllegal w s := by
  have most : (bits w 26 6).toNat = 40 ∨ (bits w 26 6).toNat = 41 → ∃ e, decodeMost w = .error e := by
    rintro (h | h) <;> (unfold decodeMost; rw [h]; exact ⟨_, rfl⟩)
  unfold runWord decode decode28 decode29
  dsimp only
  generalize (bits w 26 6).toNat = m at most ⊢
  generalize (bits w 0 6).toNat = f
  split <;> try rfl
  by_cases h28 : m = 40
  · obtain ⟨e, he⟩ := most (.inl h28)
    subst h28
    rw [he]
    rcases f with _ | _ | _ | _ | f <;> simp_all
  · by_cases h29 : m = 41
    · obtain ⟨e, he⟩ := most (.inr h29)
      subst h29
      rw [he]
      rcases f with _ | _ | _ | _ | f <;> simp_all
    · split <;> simp_all

/-- Every instruction word issues through the checks of R51: its meaning is a body run behind them (R50, R51). -/
theorem exec_issues (i : Instr) (h : i.isWord = true) : ∃ body, ∀ s, exec i s = issue i body s := by
  cases i
  case encPost o => constructor; intro s; show execEncPost o s = _; unfold execEncPost; exact late_encPost o _ s
  case encWait o => constructor; intro s; show execEncWait o s = _; unfold execEncWait; exact late_encWait o _ s
  case encTl o => constructor; intro s; show execEncTl o s = _; unfold execEncTl; exact late_encTl o _ s
  case fabPut o => constructor; intro s; show execFabPut o s = _; unfold execFabPut; exact late_fabPut o _ s
  case ownGrant o => constructor; intro s; show execOwnGrant o s = _; unfold execOwnGrant; exact late_ownGrant o _ s
  case ownRevoke o => constructor; intro s; show execOwnRevoke o s = _; unfold execOwnRevoke; exact late_ownRevoke o _ s
  case pinv o => constructor; intro s; show execPinv o s = _; unfold execPinv; exact late_pinv o _ s
  case pzero o => constructor; intro s; show execPzero o s = _; unfold execPzero; exact late_pzero o _ s
  case fmt o => constructor; intro s; show execFmt o s = _; unfold execFmt; exact late_fmt o _ s
  all_goals first
    | exact Bool.noConfusion h
    | (constructor; intro s; rfl)
    | (constructor; intro s; unfold exec
       first
        | unfold execRclr | unfold execRful | unfold execAddpc | unfold execKset | unfold execBp
        | unfold execBnp | unfold execJal | unfold execJr | unfold execPand | unfold execPor
        | unfold execPxor | unfold execPnot | unfold execPget | unfold execYield | unfold execExit
        | unfold execBrk | unfold execEcall | unfold execEret | unfold execAmret | unfold execBarSync
        | unfold execFenceRcpt | unfold execRcptQ | unfold execFenceTlb | unfold execSpawn | unfold execFcanq
        | unfold execFq | unfold execFrel | unfold execFnew | unfold execFtaskQ | unfold execQpush
        | unfold execQpop | unfold execQtail | unfold execChsend | unfold execChrecv | unfold execChclose
        | unfold execChq | unfold execEbind | unfold execEfree | unfold execDpmLoad | unfold execDpmFree
        | unfold execMrowTl | unfold execMrowIss | unfold execAqPost | unfold execAqMerge | unfold execAqTl
        | unfold execAqIss
       rfl)

end Sys2Proof.Machine
end

