-- ==== Sys2Proof/Laws/Memory.lean ====
section
/-! SUPPORT. What the operations on byte memories do: each keeps the canonical form, what is read after a write, and which bytes it
leaves alone. -/

namespace Sys2Proof.Machine

/-! ### The canonical form is kept -/

theorem Memory.sorted_mono {lo lo' : Nat} (h : lo ≤ lo') : ∀ {m : Mem}, Memory.sorted lo' m = true → Memory.sorted lo m = true
  | [], _ => rfl
  | c :: m, hm => by
    simp only [Memory.sorted, Bool.and_eq_true, decide_eq_true_eq] at hm ⊢
    exact ⟨⟨by omega, hm.1.2⟩, hm.2⟩

theorem Memory.sorted_filter (p : Host.Cell → Bool) : ∀ {m : Mem} {lo : Nat}, Memory.sorted lo m = true →
    Memory.sorted lo (m.filter p) = true
  | [], _, _ => rfl
  | c :: m, lo, hm => by
    simp only [Memory.sorted, Bool.and_eq_true, decide_eq_true_eq] at hm
    rw [List.filter_cons]
    split
    · simp only [Memory.sorted, Bool.and_eq_true, decide_eq_true_eq]
      exact ⟨hm.1, Memory.sorted_filter p hm.2⟩
    · exact Memory.sorted_filter p (Memory.sorted_mono (by omega) hm.2)

theorem Memory.sorted_put {v : Byte} (hv : v ≠ 0#8) {a : Nat} : ∀ {m : Mem} {lo : Nat}, lo ≤ a → Memory.sorted lo m = true →
    Memory.sorted lo (Memory.put m a v) = true
  | [], lo, ha, _ => by simp [Memory.put, Memory.sorted, ha, hv]
  | c :: m, lo, ha, hm => by
    have hc := hm
    simp only [Memory.sorted, Bool.and_eq_true, decide_eq_true_eq] at hm
    unfold Memory.put
    split
    · simp only [Memory.sorted, Bool.and_eq_true, decide_eq_true_eq, bne_iff_ne, ne_eq] at hc ⊢
      exact ⟨⟨ha, hv⟩, ⟨by omega, hc.1.2⟩, hc.2⟩
    · split
      · subst a
        simp only [Memory.sorted, Bool.and_eq_true, decide_eq_true_eq, bne_iff_ne, ne_eq]
        exact ⟨⟨ha, hv⟩, hm.2⟩
      · simp only [Memory.sorted, Bool.and_eq_true, decide_eq_true_eq]
        exact ⟨hm.1, Memory.sorted_put hv (by omega) hm.2⟩

/-- Writing a byte keeps the canonical form. -/
theorem Memory.wf_set {m : Mem} (h : Memory.wf m = true) (a : Nat) (v : Byte) : Memory.wf (Memory.set m a v) = true := by
  unfold Memory.set
  split
  · exact Memory.sorted_filter _ h
  · rename_i hv
    exact Memory.sorted_put hv (Nat.zero_le a) h

/-- Writing a number keeps the canonical form. -/
theorem Memory.wf_write : ∀ (n : Nat) {m : Mem} (a v : Nat), Memory.wf m = true → Memory.wf (Memory.write m a n v) = true
  | 0, _, _, _, h => h
  | n + 1, _, a, _, h => Memory.wf_write n (a + 1) _ (Memory.wf_set h a _)

/-- Making bytes zero keeps the canonical form. -/
theorem Memory.wf_clear {m : Mem} (h : Memory.wf m = true) (a n : Nat) : Memory.wf (Memory.clear m a n) = true :=
  Memory.sorted_filter _ h

theorem Memory.wf_drop {m : Mem} (h : Memory.wf m = true) (a : Nat) : Memory.wf (Memory.drop m a) = true :=
  Memory.sorted_filter _ h

/-- Writing cells one after another keeps the canonical form (the bytes of a migrated page). -/
theorem Memory.wf_cells {m : Mem} (h : Memory.wf m = true) (f : Host.Cell → Nat) (l : List Host.Cell) :
    Memory.wf (l.foldr (fun c m => Memory.set m (f c) c.2) m) = true := by
  induction l with
  | nil => exact h
  | cons c l ih => exact Memory.wf_set ih _ _

/-- Events posted to the firmware's ring leave the HBM alone. -/
theorem State.mem_ueEvents (ctx : Nat) : ∀ (l : List Nat) (s : State), (l.foldl (fun s w => s.ueEvent w ctx) s).mem = s.mem
  | [], _ => rfl
  | w :: l, s => (State.mem_ueEvents ctx l (s.ueEvent w ctx)).trans rfl

theorem State.wf_movePage {s : State} (h : Memory.wf s.mem = true) (dst src n ctx : Nat) :
    Memory.wf (s.movePage dst src n ctx).mem = true := by
  unfold State.movePage
  simp only [State.mem_ueEvents]
  exact Memory.wf_cells (Memory.wf_clear h _ _) _ _

/-- Writing events to a ring keeps the canonical form of host memory. -/
theorem wf_pumpRing : ∀ (es : List Event) (f : Func) {m : Mem}, Memory.wf m = true → Memory.wf (pumpRing f m es).2 = true
  | [], _, _, h => h
  | e :: es, f, m, h => by
    unfold pumpRing
    dsimp only
    split
    · exact wf_pumpRing es _ (Memory.wf_write 64 _ _ h)
    · exact h

/-- The memories at reset are in canonical form. -/
theorem State.reset_wf : Memory.wf State.reset.mem = true ∧ Memory.wf State.reset.hostMem = true := ⟨rfl, rfl⟩

/-! ### What is read -/

@[simp] theorem Memory.get_nil (a : Nat) : Memory.get [] a = 0#8 := rfl

theorem Memory.get_below : ∀ {m : Mem} {lo a : Nat}, Memory.sorted lo m = true → a < lo → Memory.get m a = 0#8
  | [], _, _, _, _ => rfl
  | c :: m, lo, a, h, ha => by
    simp only [Memory.sorted, Bool.and_eq_true, decide_eq_true_eq] at h
    rw [Memory.get, if_neg (by omega)]
    exact Memory.get_below h.2 (by omega)

theorem Memory.get_put (m : Mem) (a b : Nat) (v : Byte) : Memory.get (Memory.put m a v) b = if a = b then v else Memory.get m b := by
  induction m with
  | nil => rfl
  | cons c m ih =>
    unfold Memory.put
    split
    · rfl
    · split
      · subst a
        simp only [Memory.get]
        split <;> rfl
      · simp only [Memory.get, ih]
        split
        · rename_i hcb
          rw [if_neg (by omega)]
        · rfl

/-- What a filter by address keeps reads as before, and the rest reads zero. -/
theorem Memory.get_filter (p : Nat → Bool) : ∀ (m : Mem) (b : Nat),
    Memory.get (m.filter fun c => p c.1) b = if p b then Memory.get m b else 0#8
  | [], b => by simp
  | c :: m, b => by
    rw [List.filter_cons]
    split
    · rename_i hc
      simp only [Memory.get, Memory.get_filter p m b]
      split
      · rename_i h
        rw [← h, if_pos hc]
      · rfl
    · rename_i hc
      rw [Memory.get_filter p m b]
      split
      · rename_i hb
        rw [Memory.get, if_neg (fun h => hc (by rw [h]; exact hb))]
      · rfl

/-- Read after a byte write: the byte at its address, every other byte as before. -/
@[simp] theorem Memory.get_set (m : Mem) (a b : Nat) (v : Byte) :
    Memory.get (Memory.set m a v) b = if a = b then v else Memory.get m b := by
  unfold Memory.set
  split
  · rename_i hv
    unfold Memory.drop
    rw [Memory.get_filter (fun x => x != a)]
    by_cases h : a = b
    · simp [h, hv]
    · have : (b != a) = true := by simpa using fun e => h e.symm
      rw [if_pos this, if_neg h]
  · exact Memory.get_put m a b v

/-- Bytes made zero read zero, every other byte as before. -/
@[simp] theorem Memory.get_clear (m : Mem) (a n b : Nat) :
    Memory.get (Memory.clear m a n) b = if a ≤ b ∧ b < a + n then 0#8 else Memory.get m b := by
  unfold Memory.clear
  rw [Memory.get_filter (fun x => decide (x < a) || decide (a + n ≤ x))]
  by_cases h : a ≤ b ∧ b < a + n
  · rw [if_pos h, if_neg (by simp; omega)]
  · rw [if_neg h, if_pos (by simp; omega)]

/-- A write of `n` bytes leaves every other byte alone. -/
theorem Memory.get_write_ne : ∀ (n : Nat) (m : Mem) (a v b : Nat), b < a ∨ a + n ≤ b →
    Memory.get (Memory.write m a n v) b = Memory.get m b
  | 0, _, _, _, _, _ => rfl
  | n + 1, m, a, v, b, h => by
    unfold Memory.write
    rw [Memory.get_write_ne n _ (a + 1) _ b (by omega), Memory.get_set, if_neg (by omega)]

/-- Byte `i` of a number written is byte `i` of the number. -/
theorem Memory.get_write : ∀ (n : Nat) (m : Mem) (a v i : Nat), i < n →
    Memory.get (Memory.write m a n v) (a + i) = BitVec.ofNat 8 (v / 256 ^ i)
  | n + 1, m, a, v, 0, _ => by
    unfold Memory.write
    rw [Memory.get_write_ne n _ (a + 1) _ (a + 0) (by omega), Memory.get_set]
    simp
  | n + 1, m, a, v, i + 1, h => by
    unfold Memory.write
    rw [show a + (i + 1) = a + 1 + i by omega, Memory.get_write n _ (a + 1) _ i (by omega), Nat.div_div_eq_div_mul, Nat.pow_succ,
      Nat.mul_comm]

/-- A read is decided by the bytes it reads. -/
theorem Memory.read_congr : ∀ (n : Nat) (m m' : Mem) (a : Nat), (∀ i, i < n → Memory.get m (a + i) = Memory.get m' (a + i)) →
    Memory.read m a n = Memory.read m' a n
  | 0, _, _, _, _ => rfl
  | n + 1, m, m', a, h => by
    unfold Memory.read
    rw [Memory.read_congr n m m' (a + 1) fun i hi => by
      have := h (i + 1) (by omega)
      rwa [show a + (i + 1) = a + 1 + i by omega] at this]
    have := h 0 (by omega)
    rw [Nat.add_zero] at this
    rw [this]

/-- A read of what was written at the same place gives the low bytes of the number. -/
@[simp] theorem Memory.read_write : ∀ (n : Nat) (m : Mem) (a v : Nat), Memory.read (Memory.write m a n v) a n = v % 256 ^ n
  | 0, _, _, v => by simp [Memory.read, Nat.mod_one]
  | n + 1, m, a, v => by
    have h0 : Memory.get (Memory.write m a (n + 1) v) a = _ := Memory.get_write (n + 1) m a v 0 (by omega)
    unfold Memory.read
    rw [h0, show Memory.write m a (n + 1) v = Memory.write (Memory.set m a (BitVec.ofNat 8 v)) (a + 1) n (v / 256) from rfl,
      Memory.read_write n]
    rw [BitVec.toNat_ofNat, Nat.pow_zero, Nat.div_one, show (256 : Nat) ^ (n + 1) = 256 * 256 ^ n from Nat.pow_succ', Nat.mod_mul]

/-- A read elsewhere is not changed by a write. -/
theorem Memory.read_write_ne (n k : Nat) (m : Mem) (a b v : Nat) (h : b + k ≤ a ∨ a + n ≤ b) :
    Memory.read (Memory.write m a n v) b k = Memory.read m b k :=
  Memory.read_congr k _ _ b fun i hi => Memory.get_write_ne n m a v (b + i) (by omega)

theorem Memory.read_lt : ∀ (n : Nat) (m : Mem) (a : Nat), Memory.read m a n < 256 ^ n
  | 0, _, _ => by simp [Memory.read]
  | n + 1, m, a => by
    have := Memory.read_lt n m (a + 1)
    have hb := (Memory.get m a).isLt
    unfold Memory.read
    rw [Nat.pow_succ]
    omega

/-- Two memories in canonical form whose every byte reads the same are equal. -/
theorem Memory.ext_sorted : ∀ {m m' : Mem} {lo : Nat}, Memory.sorted lo m = true → Memory.sorted lo m' = true →
    (∀ a, Memory.get m a = Memory.get m' a) → m = m'
  | [], [], _, _, _, _ => rfl
  | [], c :: m', lo, _, h', e => by
    simp only [Memory.sorted, Bool.and_eq_true, decide_eq_true_eq, bne_iff_ne, ne_eq] at h'
    have := e c.1
    rw [Memory.get_nil, Memory.get, if_pos rfl] at this
    exact absurd this.symm h'.1.2
  | c :: m, [], lo, h, _, e => by
    simp only [Memory.sorted, Bool.and_eq_true, decide_eq_true_eq, bne_iff_ne, ne_eq] at h
    have := e c.1
    rw [Memory.get_nil, Memory.get, if_pos rfl] at this
    exact absurd this h.1.2
  | c :: m, d :: m', lo, h, h', e => by
    simp only [Memory.sorted, Bool.and_eq_true, decide_eq_true_eq, bne_iff_ne, ne_eq] at h h'
    have hc := e c.1
    have hd := e d.1
    simp only [Memory.get, if_true] at hc hd
    have hcd : c.1 = d.1 := by
      rcases Nat.lt_trichotomy c.1 d.1 with hlt | heq | hgt
      · rw [if_neg (by omega), Memory.get_below h'.2 (by omega)] at hc
        exact absurd hc h.1.2
      · exact heq
      · rw [if_neg (by omega), Memory.get_below h.2 (by omega)] at hd
        exact absurd hd.symm h'.1.2
    rw [if_pos hcd.symm] at hc
    have hce : c = d := Prod.ext hcd hc
    subst hce
    rw [Memory.ext_sorted h.2 h'.2 fun a => by
      by_cases ha : a = c.1
      · rw [ha, Memory.get_below h.2 (by omega), Memory.get_below h'.2 (by omega)]
      · have := e a
        rwa [Memory.get, Memory.get, if_neg (fun q => ha q.symm), if_neg (fun q => ha q.symm)] at this]

/-- Equal contents are equal data: canonical memories that read the same are the same list. -/
theorem Memory.ext {m m' : Mem} (h : Memory.wf m = true) (h' : Memory.wf m' = true) (e : ∀ a, Memory.get m a = Memory.get m' a) :
    m = m' := Memory.ext_sorted h h' e

end Sys2Proof.Machine
end

