-- ==== Sys2Proof/Laws/Operands.lean ====
section
/-! SUPPORT. Reading and writing operands: what the charge of an issue leaves readable, what a written destination holds, and what
stays as it was. -/

namespace Sys2Proof.Machine

open Sys2Proof.Safety

/-! ### The charge of an issue changes no operand -/

@[simp] theorem State.chargeFor_core (s : State) (t : Thread) (p n : Nat) : (s.chargeFor t p).core n = s.core n := by
  simp [State.core]
@[simp] theorem State.chargeFor_fwcore (s : State) (t : Thread) (p d n : Nat) : (s.chargeFor t p).fwcore d n = s.fwcore d n := by
  simp [State.fwcore]
@[simp] theorem State.chargeFor_now (s : State) (t : Thread) (p : Nat) : (s.chargeFor t p).now = s.now := by
  simp [State.now]
@[simp] theorem State.chargeFor_owns (s : State) (t : Thread) (p c n : Nat) : (s.chargeFor t p).owns c n = s.owns c n := by
  simp [State.owns]
@[simp] theorem State.chargeFor_cluster (s : State) (t : Thread) (p n : Nat) : (s.chargeFor t p).cluster n = s.cluster n := by
  simp [State.cluster]
@[simp] theorem State.chargeFor_holds (s : State) (t : Thread) (p c n : Nat) : (s.chargeFor t p).holds c n = s.holds c n := by
  simp [State.holds]

@[simp] theorem chargedThread_tid (i : Instr) (t : Thread) (s : State) : (chargedThread i t s).tid = t.tid := by
  simp [chargedThread]
@[simp] theorem chargedThread_ctx (i : Instr) (t : Thread) (s : State) : (chargedThread i t s).ctx = t.ctx := by
  simp [chargedThread]
@[simp] theorem chargedThread_loc (i : Instr) (t : Thread) (s : State) : (chargedThread i t s).loc = t.loc := by
  simp [chargedThread]
@[simp] theorem chargedThread_run (i : Instr) (t : Thread) (s : State) : (chargedThread i t s).run = t.run := by
  simp [chargedThread]
@[simp] theorem chargedThread_pc (i : Instr) (t : Thread) (s : State) : (chargedThread i t s).pc = t.pc := by
  simp [chargedThread]
@[simp] theorem chargedThread_c (i : Instr) (t : Thread) (s : State) : (chargedThread i t s).c = t.c := by
  simp [chargedThread]
@[simp] theorem chargedThread_csrsBut (i : Instr) (t : Thread) (s : State) :
    csrsBut (chargedThread i t s).csr = csrsBut t.csr := by
  simp [chargedThread]
@[simp] theorem chargedThread_coreId (i : Instr) (t : Thread) (s : State) : (chargedThread i t s).coreId = t.coreId := by
  simp [Thread.coreId, Thread.core?]
@[simp] theorem chargedThread_core? (i : Instr) (t : Thread) (s : State) : (chargedThread i t s).core? = t.core? := by
  simp [Thread.core?]
@[simp] theorem chargedThread_lastPhase (i : Instr) (t : Thread) (s : State) :
    (chargedThread i t s).lastPhase = t.lastPhase := by
  simp [Thread.lastPhase]
@[simp] theorem chargedThread_isFw (i : Instr) (t : Thread) (s : State) : (chargedThread i t s).isFw = t.isFw := by
  simp [Thread.isFw]
@[simp] theorem chargedThread_cluster (i : Instr) (t : Thread) (s : State) : (chargedThread i t s).cluster = t.cluster := by
  simp [Thread.cluster]
@[simp] theorem chargedThread_unit (i : Instr) (t : Thread) (s : State) : (chargedThread i t s).unit = t.unit := by
  simp [Thread.unit]

@[simp] theorem charged_near (i : Instr) (t : Thread) (s : State) :
    (chargedState i t s).near (chargedThread i t s) = s.near t := by
  simp [State.near, chargedState]
@[simp] theorem charged_portTarget (i : Instr) (t : Thread) (s : State) (r : Reg) :
    (chargedState i t s).portTarget (chargedThread i t s) r = s.portTarget t r := by
  simp [State.portTarget, chargedState]
@[simp] theorem charged_srcVal (i : Instr) (t : Thread) (s : State) (w : BitVec 2) (r : Reg) :
    srcVal (chargedThread i t s) (chargedState i t s) w r = srcVal t s w r := by
  unfold srcVal; rw [charged_near]; simp [chargedState]
@[simp] theorem charged_srcFull (i : Instr) (t : Thread) (s : State) (w : BitVec 2) (r : Reg) :
    srcFull (chargedThread i t s) (chargedState i t s) w r = srcFull t s w r := by
  unfold srcFull; rw [charged_near]; simp [chargedState]
@[simp] theorem charged_destBusy (i : Instr) (t : Thread) (s : State) (r : Reg) :
    destBusy (chargedThread i t s) (chargedState i t s) r = destBusy t s r := by
  unfold destBusy; rw [charged_portTarget]; simp [chargedState]
@[simp] theorem charged_nowFull (i : Instr) (t : Thread) (s : State) (w : BitVec 2) (r : Reg) :
    nowFull (chargedThread i t s) (chargedState i t s) w r = nowFull t s w r := by
  unfold nowFull; rw [charged_near, charged_srcFull]
@[simp] theorem charged_nowVal (i : Instr) (t : Thread) (s : State) (w : BitVec 2) (r : Reg) :
    nowVal (chargedThread i t s) (chargedState i t s) w r = nowVal t s w r := by
  unfold nowVal; rw [charged_near, charged_srcVal]
@[simp] theorem charged_now (i : Instr) (t : Thread) (s : State) : (chargedState i t s).now = s.now := by
  simp [chargedState]
@[simp] theorem charged_core (i : Instr) (t : Thread) (s : State) (n : Nat) : (chargedState i t s).core n = s.core n := by
  simp [chargedState]
@[simp] theorem charged_cores (i : Instr) (t : Thread) (s : State) : (chargedState i t s).cores = s.cores := by
  simp [chargedState]
@[simp] theorem charged_fwcores (i : Instr) (t : Thread) (s : State) : (chargedState i t s).fwcores = s.fwcores := by
  simp [chargedState]

/-- Operands that can be read and written can be after the charge. -/
theorem readable_charged {i : Instr} {t : Thread} {s : State} {w : BitVec 2} {srcs dst : List Reg}
    (h : Readable t s w srcs dst) : Readable (chargedThread i t s) (chargedState i t s) w srcs dst := by
  refine ⟨?_, ?_, ?_, ?_⟩
  · intro r hr hp; rw [charged_portTarget]; exact h.ports r hr hp
  · intro r hr; rw [chargedThread_c]; exact h.sound r hr
  · intro r hr; rw [charged_srcFull]; exact h.full r hr
  · intro d hd; rw [charged_destBusy]; exact h.room d hd

theorem ready_charged {i : Instr} {t : Thread} {s : State} {w : BitVec 2} {srcs dst : List Reg}
    (h : Readable t s w srcs dst) : ready (chargedThread i t s) (chargedState i t s) w srcs dst = none :=
  readable_ready (readable_charged h)

/-- The register waits of R81 and R86 before anything else: what stops the operands stops the instruction unchanged. -/
theorem ready_charged_eq (i : Instr) (t : Thread) (s : State) (w : BitVec 2) (srcs dst : List Reg) :
    ready (chargedThread i t s) (chargedState i t s) w srcs dst = ready t s w srcs dst := by
  have hs : (chargedState i t s).freeCtr = s.freeCtr := by simp [chargedState]
  have ht : ∀ r, (chargedState i t s).portTarget (chargedThread i t s) r = s.portTarget t r := charged_portTarget i t s
  have hf : ∀ r, srcFull (chargedThread i t s) (chargedState i t s) w r = srcFull t s w r := charged_srcFull i t s w
  have hd : ∀ r, destBusy (chargedThread i t s) (chargedState i t s) r = destBusy t s r := charged_destBusy i t s
  unfold ready readyBy badPort
  simp only [ht, hf, hd, chargedThread_c, hs]

/-! ### Taking things out of a state by name -/

@[simp] theorem State.core_setCore (s : State) (c : Core) : (s.setCore c).core c.id = c := by
  simp [State.setCore, State.core]
theorem State.core_setCore_ne (s : State) (c : Core) (n : Nat) (h : c.id ≠ n) : (s.setCore c).core n = s.core n := by
  have hb : (c.id == n) = false := by simpa using h
  simp only [State.setCore, State.core, List.find?_cons, hb, List.find?_filter]
  congr 2
  funext d
  by_cases hd : d.id = n
  · have : d.id ≠ c.id := fun e => h (e ▸ hd)
    simp [hd]
    exact fun e => h e.symm
  · simp [hd]

/-- A core found under a number bears it. -/
theorem State.core_id (s : State) (n : Nat) : (s.core n).id = n := by
  unfold State.core
  cases h : s.cores.find? fun c => c.id == n with
  | none => rfl
  | some c => have := List.find?_some h; simpa using this

/-! ### The thread's own registers (R45, R78, R81) -/

@[simp] theorem Ctx.pushQ_x (c : Ctx) (v : Word) : (c.pushQ v).x = c.x := rfl
@[simp] theorem Ctx.pushQ_full (c : Ctx) (v : Word) : (c.pushQ v).full = c.full := rfl
@[simp] theorem Ctx.pushQ_v (c : Ctx) (v : Word) : (c.pushQ v).v = c.v := rfl
@[simp] theorem Ctx.pushQ_k (c : Ctx) (v : Word) : (c.pushQ v).k = c.k := rfl
@[simp] theorem Ctx.pushQ_p (c : Ctx) (v : Word) : (c.pushQ v).p = c.p := rfl
@[simp] theorem Ctx.pushQ_q0 (c : Ctx) (v : Word) : (c.pushQ v).q0 = v := rfl
@[simp] theorem Ctx.pushQ_q1 (c : Ctx) (v : Word) : (c.pushQ v).q1 = c.q0 := rfl
@[simp] theorem Ctx.setReg_v (c : Ctx) (r : Reg) (x : Word) : (c.setReg r x).v = c.v := by unfold Ctx.setReg; split <;> rfl
@[simp] theorem Ctx.setReg_k (c : Ctx) (r : Reg) (x : Word) : (c.setReg r x).k = c.k := by unfold Ctx.setReg; split <;> rfl
@[simp] theorem Ctx.setReg_p (c : Ctx) (r : Reg) (x : Word) : (c.setReg r x).p = c.p := by unfold Ctx.setReg; split <;> rfl
@[simp] theorem Ctx.setReg_q0 (c : Ctx) (r : Reg) (x : Word) : (c.setReg r x).q0 = c.q0 := by unfold Ctx.setReg; split <;> rfl
@[simp] theorem Ctx.setReg_q1 (c : Ctx) (r : Reg) (x : Word) : (c.setReg r x).q1 = c.q1 := by unfold Ctx.setReg; split <;> rfl
@[simp] theorem Ctx.setReg_zero (c : Ctx) (x : Word) : c.setReg 0#6 x = c := rfl

theorem Ctx.reg_eq (c : Ctx) (r : Reg) (h0 : r ≠ 0#6) (h : r.toNat < 40) : c.reg r = c.x.toList.getD r.toNat 0#64 := by
  unfold Ctx.reg
  have h1 : r ≠ 40#6 := fun e => by rw [e] at h; exact absurd h (by decide)
  have h2 : r ≠ 41#6 := fun e => by rw [e] at h; exact absurd h (by decide)
  rw [if_neg h0, if_neg h1, if_neg h2]

/-- A register of 1-39 holds what was written and is full; the others keep their value and full bit. -/
theorem Ctx.reg_setReg (c : Ctx) (r : Reg) (x : Word) (h0 : r ≠ 0#6) (h : r.toNat < 40) : (c.setReg r x).reg r = x := by
  rw [Ctx.reg_eq _ _ h0 h]
  unfold Ctx.setReg
  rw [if_neg h0]
  simp [List.getD_eq_getElem?_getD, h]
theorem Ctx.isFull_setReg (c : Ctx) (r : Reg) (x : Word) (h0 : r ≠ 0#6) : (c.setReg r x).isFull r = true := by
  have hr : r.toNat < 64 := by have := r.isLt; omega
  unfold Ctx.isFull Ctx.setReg
  rw [if_neg h0]
  simp [hr]
theorem Ctx.reg_setReg_ne (c : Ctx) (r q : Reg) (x : Word) (h : r ≠ q) : (c.setReg r x).reg q = c.reg q := by
  have hn : r.toNat ≠ q.toNat := fun e => h (BitVec.eq_of_toNat_eq e)
  unfold Ctx.setReg
  split
  · rfl
  · unfold Ctx.reg
    simp [List.getD_eq_getElem?_getD, hn]
theorem Ctx.isFull_setReg_ne (c : Ctx) (r q : Reg) (x : Word) (h : r ≠ q) : (c.setReg r x).isFull q = c.isFull q := by
  have hn : r.toNat ≠ q.toNat := fun e => h (BitVec.eq_of_toNat_eq e)
  unfold Ctx.setReg Ctx.isFull
  split
  · rfl
  · have : (1#64 <<< r.toNat).getLsbD q.toNat = false := by
      have hq : q.toNat < 64 := by have := q.isLt; omega
      simp [hq]
      intro hle
      have : q.toNat - r.toNat ≠ 0 := by omega
      omega
    simp [this]

end Sys2Proof.Machine
end

