-- ==== Sys2Proof/Laws/Results.lean ====
section
/-! SUPPORT. What a scalar-result instruction does, said once: `scalarOp` and `finish`. -/

namespace Sys2Proof.Machine

open Sys2Proof.Safety

/-! ### Emptying inboxes and writing a destination change only s registers, inboxes and the thread's registers -/

theorem State.core_modCore (s : State) (i n : Nat) (f : Core → Core) (hf : ∀ c, (f c).id = c.id) :
    (s.modCore i f).core n = if n = i then f (s.core i) else s.core n := by
  unfold State.modCore
  have hid : (f (s.core i)).id = i := by rw [hf, s.core_id]
  split
  · rename_i h
    subst h
    have := s.core_setCore (f (s.core n))
    rw [hid] at this
    exact this
  · rename_i h
    exact s.core_setCore_ne _ _ (by rw [hid]; exact fun e => h e.symm)

theorem coreBut_modCore (s : State) (i n : Nat) (f : Core → Core) (hf : ∀ c, coreBut (f c) = coreBut c) :
    coreBut ((s.modCore i f).core n) = coreBut (s.core n) := by
  have hid : ∀ c, (f c).id = c.id := fun c => (congrArg Core.id (hf c) : (coreBut (f c)).id = (coreBut c).id)
  rw [s.core_modCore i n f hid]
  split
  · rename_i h
    rw [h, hf]
  · rfl

theorem State.fwcore_setFw (s : State) (f : FwCore) (d n : Nat) :
    (s.setFw f).fwcore d n = if f.die = d ∧ f.n = n then f else s.fwcore d n := by
  by_cases hk : f.die = d ∧ f.n = n
  · rw [if_pos hk]
    have hb : (f.die == d && f.n == n) = true := by simpa using hk
    simp only [State.setFw, State.fwcore, List.find?_cons, hb, Option.getD_some]
  · rw [if_neg hk]
    have hb : (f.die == d && f.n == n) = false := by
      rw [Bool.and_eq_false_iff]
      by_cases h1 : f.die = d
      · right; simpa using fun e => hk ⟨h1, e⟩
      · left; simpa using h1
    simp only [State.setFw, State.fwcore, List.find?_cons, hb, List.find?_filter]
    congr 2
    funext c
    by_cases hc : c.die = d ∧ c.n = n
    · rw [hc.1, hc.2]
      have : (d == f.die && n == f.n) = false := by
        rw [Bool.and_eq_false_iff] at hb ⊢
        rcases hb with h | h
        · left; simpa using fun e => (by simpa using h : ¬ f.die = d) e.symm
        · right; simpa using fun e => (by simpa using h : ¬ f.n = n) e.symm
      simp [this]
    · have : (c.die == d && c.n == n) = false := by
        rw [Bool.and_eq_false_iff]
        by_cases h1 : c.die = d
        · right; simpa using fun e => hc ⟨h1, e⟩
        · left; simpa using h1
      simp [this]

theorem fwBut_setFw (s : State) (f : FwCore) (d n : Nat) (h : fwBut f = fwBut (s.fwcore f.die f.n)) :
    fwBut ((s.setFw f).fwcore d n) = fwBut (s.fwcore d n) := by
  rw [State.fwcore_setFw]
  split
  · rename_i hk
    rw [h, hk.1, hk.2]
  · rfl

/-- A firmware core found under a die and number bears them. -/
theorem State.fwcore_key (s : State) (d n : Nat) : (s.fwcore d n).die = d ∧ (s.fwcore d n).n = n := by
  unfold State.fwcore
  cases h : s.fwcores.find? fun c => c.die == d && c.n == n with
  | none => exact ⟨rfl, rfl⟩
  | some c => have := List.find?_some h; simpa using this

/-- What changing a core's or firmware core's s registers and inboxes leaves: everything else. -/
structure Quiet (s s' : State) : Prop where
  rest : restOf s' = restOf s
  threads : s'.threads = s.threads
  cores : ∀ n, coreBut (s'.core n) = coreBut (s.core n)
  fwcores : ∀ d n, fwBut (s'.fwcore d n) = fwBut (s.fwcore d n)

theorem Quiet.refl (s : State) : Quiet s s := ⟨rfl, rfl, fun _ => rfl, fun _ _ => rfl⟩
theorem Quiet.trans {a b c : State} (h : Quiet a b) (k : Quiet b c) : Quiet a c :=
  ⟨k.rest.trans h.rest, k.threads.trans h.threads, fun n => (k.cores n).trans (h.cores n),
    fun d n => (k.fwcores d n).trans (h.fwcores d n)⟩

theorem Quiet.modCore (s : State) (i : Nat) (f : Core → Core) (hf : ∀ c, coreBut (f c) = coreBut c) :
    Quiet s (s.modCore i f) := ⟨rfl, rfl, fun n => coreBut_modCore s i n f hf, fun _ _ => rfl⟩

theorem near_fw (s : State) (t : Thread) (d n p : Nat) (h : t.loc = .fw d n p) : s.near t = (s.fwcore d n).localStore := by
  unfold State.near; rw [h]
theorem near_task (s : State) (t : Thread) (h : ∀ d n p, t.loc ≠ .fw d n p) : s.near t = (s.core t.coreId).localStore := by
  unfold State.near
  split
  · rename_i d n p hl
    exact absurd hl (h d n p)
  · rfl

theorem Quiet.setNear (s : State) (t : Thread) (l : List SWrite) : Quiet s (s.setNear t { s.near t with sregs := l }) := by
  by_cases hf : ∃ d n p, t.loc = .fw d n p
  · obtain ⟨d, n, p, h⟩ := hf
    rw [near_fw s t d n p h]
    unfold State.setNear
    rw [h]
    refine ⟨rfl, rfl, fun _ => rfl, fun d' n' => fwBut_setFw s _ d' n' ?_⟩
    have := s.fwcore_key d n
    simp only [FwCore.withStore, FwCore.localStore, fwBut, this]
  · have hf' : ∀ d n p, t.loc ≠ .fw d n p := fun d n p h => hf ⟨d, n, p, h⟩
    rw [near_task s t hf']
    unfold State.setNear
    split
    · rename_i d n p h
      exact absurd h (hf' d n p)
    · refine ⟨rfl, rfl, fun n => ?_, fun _ _ => rfl⟩
      refine (congrArg coreBut (s.core_modCore t.coreId n
        (fun c => c.withStore { (s.core t.coreId).localStore with sregs := l }) fun _ => rfl)).trans ?_
      split
      · rename_i h
        rw [h]
        rfl
      · rfl

theorem Quiet.consume (t : Thread) (s : State) (srcs : List Reg) : Quiet s (consume t s srcs) := by
  unfold Machine.consume
  induction srcs generalizing s with
  | nil => exact Quiet.refl s
  | cons r rs ih =>
    rw [List.foldl_cons]
    refine Quiet.trans ?_ (ih _)
    split
    · exact Quiet.modCore _ _ _ fun _ => rfl
    · exact Quiet.refl s

theorem Quiet.writeReg (t : Thread) (s : State) (w : BitVec 2) (d : Reg) (v : Word) : Quiet s (writeReg t s w d v).2 := by
  unfold Machine.writeReg
  split
  · split
    · exact Quiet.modCore s _ (fun c => c.fillInbox t.lastPhase (portDir d).opposite v) fun _ => rfl
    · exact Quiet.refl s
  · split
    · exact Quiet.setNear _ _ _
    · exact Quiet.refl s

/-- The thread after a destination is written: only its registers can differ. -/
theorem writeReg_thread (t : Thread) (s : State) (w : BitVec 2) (d : Reg) (v : Word) :
    (writeReg t s w d v).1 = if isPort d || isShared d then t else { t with c := t.c.setReg d v } := by
  unfold writeReg
  by_cases h1 : isPort d = true
  · simp only [h1, if_true, Bool.true_or]; split <;> rfl
  · by_cases h2 : isShared d = true
    · simp [h1, h2]
    · simp [h1, h2]

theorem Quiet.finish (t : Thread) (s : State) (w : BitVec 2) (srcs : List Reg) (d : Reg) (v : Word) :
    Quiet s (finish t s w srcs d v).2 := Quiet.trans (Quiet.consume t s srcs) (Quiet.writeReg t _ w d v)

/-- The thread after a scalar result: the destination, the last-result file and the pc (R78). -/
theorem finish_thread (t : Thread) (s : State) (w : BitVec 2) (srcs : List Reg) (d : Reg) (v : Word) :
    (finish t s w srcs d v).1 =
      { t with c := (if isPort d || isShared d then t.c else t.c.setReg d v).pushQ v, pc := t.pc + 4#64, wait := none,
               taken := [] } := by
  have h := writeReg_thread t (consume t s srcs) w d v
  show (({ (writeReg t (consume t s srcs) w d v).1 with
    c := (writeReg t (consume t s srcs) w d v).1.c.pushQ v } : Thread)).advance = _
  rw [h]
  split <;> rfl

/-- The stores next to a thread after they were replaced. -/
theorem near_setNear (s : State) (t u : Thread) (l : LocalStore) (hu : u.loc = t.loc) :
    ((s.setNear t l).near u).sregs = l.sregs := by
  by_cases hf : ∃ d n p, t.loc = .fw d n p
  · obtain ⟨d, n, p, h⟩ := hf
    rw [near_fw _ u d n p (hu.trans h)]
    unfold State.setNear
    rw [h]
    simp only [State.fwcore_setFw]
    have : ((s.fwcore d n).withStore l).die = d ∧ ((s.fwcore d n).withStore l).n = n := s.fwcore_key d n
    rw [if_pos this]
    rfl
  · have hf' : ∀ d n p, t.loc ≠ .fw d n p := fun d n p h => hf ⟨d, n, p, h⟩
    rw [near_task _ u (fun d n p h => hf' d n p (hu ▸ h))]
    have hc : u.coreId = t.coreId := by simp [Thread.coreId, Thread.core?, hu]
    unfold State.setNear
    split
    · rename_i d n p h
      exact absurd h (hf' d n p)
    · rw [hc, s.core_modCore t.coreId _ (fun c => c.withStore l) (fun _ => rfl), if_pos rfl]
      rfl

/-! ### What a destination holds -/

theorem isPort_iff (d : Reg) : isPort d = true ↔ 42 ≤ d.toNat ∧ d.toNat ≤ 45 := by simp [isPort]
theorem isShared_iff (d : Reg) : isShared d = true ↔ d = 46#6 ∨ d = 47#6 := by simp [isShared]

@[simp] theorem sCurrent_sChange (h : List SWrite) (now n : Nat) (v : Word) (f : Bool) :
    sCurrent (sChange h now n v f) n = (v, f) := by
  simp [sCurrent, sChange]

theorem inboxVal_fillInbox (c : Core) (p : Nat) (d : Dir) (v : Word) : (c.fillInbox p d v).inboxVal p d = some v := by
  simp [Core.inboxVal, Core.fillInbox]

theorem portTarget_quiet (t : Thread) (s s' : State) (h : Quiet s s') (r : Reg) : s'.portTarget t r = s.portTarget t r := by
  unfold State.portTarget State.owns
  have : ∀ n, (s'.core n).owner = (s.core n).owner := fun n =>
    (congrArg Core.owner (h.cores n) : (coreBut (s'.core n)).owner = (coreBut (s.core n)).owner)
  simp only [this]

/-- What a destination holds after a result was written (R45, R78, R84, R86). -/
theorem finish_holds (t : Thread) (s : State) (w : BitVec 2) (srcs : List Reg) (d : Reg) (v : Word)
    (hd : WellFormed.dest d = true) : Holds t s w d v (finish t s w srcs d v).1 (finish t s w srcs d v).2 := by
  rw [finish_thread]
  unfold Holds
  by_cases h0 : d = 0#6
  · subst h0; simp [isPort, isShared]
  · rw [if_neg h0]
    by_cases hp : isPort d = true
    · rw [if_pos hp]
      intro n hn
      have ht : (consume t s srcs).portTarget t d = some n := by
        rw [portTarget_quiet t _ _ (Quiet.consume t s srcs)]; exact hn
      have : (finish t s w srcs d v).2
          = (consume t s srcs).modCore n fun c => c.fillInbox t.lastPhase (portDir d).opposite v := by
        unfold finish writeResult writeReg
        rw [if_pos hp, ht]
      rw [this, State.core_modCore _ _ _ (fun c => c.fillInbox t.lastPhase (portDir d).opposite v) (fun _ => rfl), if_pos rfl]
      exact inboxVal_fillInbox _ _ _ _
    · rw [if_neg hp]
      by_cases hs : isShared d = true
      · rw [if_pos hs]
        have he : (finish t s w srcs d v).2 = (consume t s srcs).setNear t { (consume t s srcs).near t with
            sregs := sChange ((consume t s srcs).near t).sregs (consume t s srcs).now (sReg w d) v true } := by
          unfold finish writeResult writeReg
          rw [if_neg hp, if_pos hs]
        rw [he]
        rw [near_setNear]
        · simp
        · rfl
      · rw [if_neg hs]
        have hlt : d.toNat < 40 := by
          simp only [WellFormed.dest, Bool.or_eq_true, Bool.and_eq_true, decide_eq_true_eq] at hd
          have h1 : d ≠ 46#6 ∧ d ≠ 47#6 := by simpa [isShared] using hs
          have h2 : ¬ (42 ≤ d.toNat ∧ d.toNat ≤ 45) := fun e => hp ((isPort_iff d).2 e)
          have h3 : d.toNat ≠ 46 := fun e => h1.1 (BitVec.eq_of_toNat_eq e)
          have h4 : d.toNat ≠ 47 := fun e => h1.2 (BitVec.eq_of_toNat_eq e)
          omega
        simp only [hp, hs, Bool.or_self, Bool.false_eq_true, if_false]
        refine ⟨?_, ?_⟩
        · have := Ctx.reg_setReg t.c d v h0 hlt
          rw [Ctx.reg_eq _ _ h0 hlt] at this ⊢
          exact this
        · have := Ctx.isFull_setReg t.c d v h0
          exact this

/-! ### The frame of an instruction that touches registers alone -/

/-- What a body that answers a runnable thread in its place, with its CSRs and a state changed only in s registers and inboxes, does
through `issue`. -/
theorem issue_registers {i : Instr} {s s2 : State} {t u : Thread} {body : Thread → State → Done} (h : Clear i s t)
    (hb : body (chargedThread i t s) (chargedState i t s) = .ok (u, s2)) (hq : Quiet (chargedState i t s) s2)
    (hu : u.run = .runnable ∧ u.tid = t.tid ∧ u.loc = t.loc ∧ u.ctx = t.ctx)
    (hc : csrsBut u.csr = csrsBut (chargedThread i t s).csr) :
    issue i body s = .next (s2.setThread u) ∧ RegisterFrame s t (s2.setThread u) u := by
  refine ⟨?_, ?_⟩
  · rw [issue_next h hb, State.settle_runnable _ _ hu.1]
  · have hcur := s.current_tid t h.slot
    have hth : (chargedState i t s).threads = s.threads ∨ t.handler ≠ none := by
      by_cases hh : t.handler = none
      · left; unfold chargedState; rw [s.chargeFor_task t _ hh]
      · right; exact hh
    have hfound : ∃ v, s2.thread? t.tid = some v := by
      have h1 : s2.thread? t.tid = (chargedState i t s).thread? t.tid := by unfold State.thread?; rw [hq.threads]
      rw [h1]
      unfold chargedState State.chargeFor
      split
      · unfold State.bill
        split
        · rename_i w hw
          have hset : ∀ v : Thread, v.tid = w.tid → ∃ z, (s.setThread v).thread? t.tid = some z := by
            intro v hv
            by_cases he : v.tid = t.tid
            · exact ⟨v, s.thread?_setThread t v t.tid hcur he⟩
            · exact ⟨t, (s.thread?_setThread_ne v t.tid he).trans hcur⟩
          obtain ⟨z, hz⟩ := hset (w.pay (issueCost i)) rfl
          refine ⟨z, ?_⟩
          split
          · have : ∀ (x : State) (a b c d : Nat), (x.jobWrite a b c d).thread? t.tid = x.thread? t.tid := by
              intro x a b c d; unfold State.thread?; rw [State.jobWrite_threads]
            rw [this]; exact hz
          · exact hz
        · exact ⟨t, hcur⟩
      · exact ⟨t, hcur⟩
    obtain ⟨v, hv⟩ := hfound
    refine ⟨s2.thread?_setThread v u t.tid hv hu.2.1, ⟨hu.2.2.1, hu.2.2.2, hu.2.1⟩, hu.1, ?_, ?_, ?_, ?_, ?_⟩
    · rw [hc, chargedThread_csrsBut]
    · intro hh n hn
      rw [s2.thread?_setThread_ne u n (by rw [hu.2.1]; exact fun e => hn e.symm)]
      have hs : chargedState i t s = s := s.chargeFor_task t _ hh
      unfold State.thread?
      rw [hq.threads, hs]
    · intro hh
      have hs : chargedState i t s = s := s.chargeFor_task t _ hh
      have := hq.rest
      rw [hs] at this
      exact this
    · intro n
      have := hq.cores n
      rw [charged_core] at this
      exact this
    · intro d n
      have := hq.fwcores d n
      unfold chargedState at this
      rw [State.chargeFor_fwcore] at this
      exact this

/-- Everything a scalar-result instruction does when its operands can be read and written (R45, R78, R98, R114). -/
theorem issue_scalarOp {i : Instr} {s : State} {t : Thread} {w : BitVec 2} {srcs : List Reg} {d : Reg}
    {f : (Reg → Word) → Word} (h : Clear i s t) (hr : Readable t s w srcs [d]) (hd : WellFormed.dest d = true) :
    ∃ s' u, issue i (scalarOp w srcs d f) s = .next s' ∧ RegisterFrame s t s' u ∧ u.pc = t.pc + 4#64
      ∧ u.c.q0 = f (srcVal t s w) ∧ u.c.q1 = t.c.q0 ∧ Holds t s w d (f (srcVal t s w)) u s' ∧ othersKept t u d := by
  have hv : srcVal (chargedThread i t s) (chargedState i t s) w = srcVal t s w := funext fun r => charged_srcVal i t s w r
  have hb : scalarOp w srcs d f (chargedThread i t s) (chargedState i t s)
      = .ok (finish (chargedThread i t s) (chargedState i t s) w srcs d (f (srcVal t s w))) := by
    unfold scalarOp
    rw [ready_charged hr, hv]
  have hf := finish_thread (chargedThread i t s) (chargedState i t s) w srcs d (f (srcVal t s w))
  have hq := Quiet.finish (chargedThread i t s) (chargedState i t s) w srcs d (f (srcVal t s w))
  have hh := finish_holds (chargedThread i t s) (chargedState i t s) w srcs d (f (srcVal t s w)) hd
  generalize finish (chargedThread i t s) (chargedState i t s) w srcs d (f (srcVal t s w)) = p at hb hf hq hh
  obtain ⟨u, s2⟩ := p
  simp only at hf hq hh
  obtain ⟨he, hfr⟩ := issue_registers h hb hq
    (by rw [hf]; exact ⟨by simp [(s.current_eq t h.slot).2.1], by simp, by simp, by simp⟩) (by rw [hf])
  refine ⟨_, _, he, hfr, ?_, ?_, ?_, ?_, ?_⟩
  · rw [hf]; simp
  · rw [hf]; simp
  · rw [hf]; simp; split <;> simp
  · unfold Holds at hh ⊢
    simp only [chargedThread_c, charged_portTarget, chargedThread_lastPhase] at hh
    exact hh
  · rw [hf]
    simp only [chargedThread_c]
    refine ⟨?_, ?_⟩
    · intro r hrd hr40
      split
      · refine ⟨?_, rfl⟩
        by_cases h0 : r = 0#6
        · subst h0; rfl
        · rw [Ctx.reg_eq _ _ h0 hr40, Ctx.reg_eq _ _ h0 hr40]; rfl
      · refine ⟨?_, ?_⟩
        · by_cases h0 : r = 0#6
          · subst h0; rfl
          · have := Ctx.reg_setReg_ne t.c d r (f (srcVal t s w)) (fun e => hrd e.symm)
            rw [Ctx.reg_eq _ _ h0 hr40] at this ⊢
            exact this
        · exact Ctx.isFull_setReg_ne t.c d r (f (srcVal t s w)) (fun e => hrd e.symm)
    · split <;> simp

end Sys2Proof.Machine
end

