-- ==== Sys2Proof/Laws/Shared.lean ====
section
/-! SUPPORT. What the shared operations do, each said once: an issue always answers a next state, a trap enters its handler, a unit is taken
or waited for, a command runs at its stage, and a write to memory is a write of its bytes. -/

namespace Sys2Proof.Machine

/-! ### Issue -/

/-- Whatever a word does, where a thread has the slot the answer is a next state. -/
theorem issueChecked_next {s : State} {t : Thread} (h : s.current = some t) (pj : Nat) (check : Thread → Option Stop)
    (body : Thread → State → Done) : ∃ s', issueChecked pj check body s = .next s' := by
  unfold issueChecked
  rw [h]
  dsimp only
  split
  · exact ⟨_, rfl⟩
  · split <;> exact ⟨_, rfl⟩

/-- An issue that answers nothing has no thread, and it is a refusal by name. -/
theorem issueChecked_cases (pj : Nat) (check : Thread → Option Stop) (body : Thread → State → Done) (s : State) :
    (∃ s', issueChecked pj check body s = .next s') ∨ (s.current = none ∧ issueChecked pj check body s = .refused .noThread) := by
  cases h : s.current with
  | none => exact .inr ⟨rfl, by unfold issueChecked; rw [h]⟩
  | some t => exact .inl (issueChecked_next h pj check body)

/-! ### Traps (R130, R131) -/

@[simp] theorem Thread.enterTrap_pc (t : Thread) (c : Cause) (v e b : Word) : (t.enterTrap c v e b).pc = b := rfl
@[simp] theorem Thread.enterTrap_tid (t : Thread) (c : Cause) (v e b : Word) : (t.enterTrap c v e b).tid = t.tid := rfl
@[simp] theorem Thread.enterTrap_c (t : Thread) (c : Cause) (v e b : Word) : (t.enterTrap c v e b).c = t.c := rfl
@[simp] theorem Thread.enterTrap_run (t : Thread) (c : Cause) (v e b : Word) : (t.enterTrap c v e b).run = .runnable := rfl
@[simp] theorem Thread.enterTrap_tcause (t : Thread) (c : Cause) (v e b : Word) : (t.enterTrap c v e b).csr.tcause = c.code := rfl
@[simp] theorem Thread.enterTrap_tval (t : Thread) (c : Cause) (v e b : Word) : (t.enterTrap c v e b).csr.tval = v := rfl
@[simp] theorem Thread.enterTrap_tepc (t : Thread) (c : Cause) (v e b : Word) : (t.enterTrap c v e b).csr.tepc = e &&& ~~~3#64 := rfl
@[simp] theorem Thread.enterTrap_tstatus (t : Thread) (c : Cause) (v e b : Word) : (t.enterTrap c v e b).csr.tstatus = t.status := rfl
@[simp] theorem Thread.enterTrap_tq (t : Thread) (c : Cause) (v e b : Word) :
    (t.enterTrap c v e b).csr.tq0 = t.c.q0 ∧ (t.enterTrap c v e b).csr.tq1 = t.c.q1 := ⟨rfl, rfl⟩
@[simp] theorem Thread.enterTrap_trap (t : Thread) (c : Cause) (v e b : Word) : (t.enterTrap c v e b).csr.trap = true := rfl
@[simp] theorem Thread.enterTrap_pfx (t : Thread) (c : Cause) (v e b : Word) : (t.enterTrap c v e b).csr.pfx = false := rfl

/-- A task with a handler that is not in it takes a trap there. -/
theorem takeTrap_task {t : Thread} {s : State} {epc : Word} (c : Cause) (v : Word) (hl : ∀ d n p, t.loc ≠ .fw d n p)
    (hh : t.handler = none) (hb : t.csr.tbase ≠ 0#64) (hf : ¬ (t.csr.trap = true ∧ epc = t.csr.tbase)) :
    takeTrap t c v epc s = s.setThread (t.enterTrap c v epc t.csr.tbase) := by
  unfold takeTrap
  split
  · rename_i d n p h
    exact absurd h (hl d n p)
  · rw [hh]
    dsimp only
    rw [if_neg (fun h => h.elim hb hf)]

/-- A trap without a handler, or at the handler's own address, kills the task. -/
theorem takeTrap_kill {t : Thread} {s : State} {epc : Word} (c : Cause) (v : Word) (hl : ∀ d n p, t.loc ≠ .fw d n p)
    (hh : t.handler = none) (hb : t.csr.tbase = 0#64 ∨ (t.csr.trap = true ∧ epc = t.csr.tbase)) :
    takeTrap t c v epc s = s.kill t c v := by
  unfold takeTrap
  split
  · rename_i d n p h
    exact absurd h (hl d n p)
  · rw [hh]
    dsimp only
    rw [if_pos hb]

/-! ### Going on, parking and leaving -/

@[simp] theorem Thread.advance_pc (t : Thread) : t.advance.pc = t.pc + 4#64 := rfl
@[simp] theorem Thread.advance_tid (t : Thread) : t.advance.tid = t.tid := rfl
@[simp] theorem Thread.advance_c (t : Thread) : t.advance.c = t.c := rfl
@[simp] theorem Thread.advance_run (t : Thread) : t.advance.run = t.run := rfl
@[simp] theorem Thread.advance_csr (t : Thread) : t.advance.csr = t.csr := rfl
@[simp] theorem Thread.advance_loc (t : Thread) : t.advance.loc = t.loc := rfl
@[simp] theorem Thread.park_run (t : Thread) (n : Nat) (w : Wake) : (t.park n w).run = .parked w false := rfl
@[simp] theorem Thread.park_pc (t : Thread) (n : Nat) (w : Wake) : (t.park n w).pc = t.pc := rfl
@[simp] theorem Thread.park_tid (t : Thread) (n : Nat) (w : Wake) : (t.park n w).tid = t.tid := rfl
@[simp] theorem Thread.park_c (t : Thread) (n : Nat) (w : Wake) : (t.park n w).c = t.c := rfl
@[simp] theorem Thread.leave_run (t : Thread) (n : Nat) (w : Wake) (p : Pending) : (t.leave n w p).run = .out w p := rfl
@[simp] theorem Thread.leave_pc (t : Thread) (n : Nat) (w : Wake) (p : Pending) : (t.leave n w p).pc = t.pc := rfl
@[simp] theorem Thread.leave_tid (t : Thread) (n : Nat) (w : Wake) (p : Pending) : (t.leave n w p).tid = t.tid := rfl
@[simp] theorem Thread.leave_c (t : Thread) (n : Nat) (w : Wake) (p : Pending) : (t.leave n w p).c = t.c := rfl

/-- A thread at a blocking point that no cancel request stops is put back as it is. -/
theorem State.settle_kept (s : State) (t : Thread) (h : t.csr.creq = true → t.creqAck = true) : s.settle t = s.setThread t := by
  unfold State.settle
  split
  · rename_i w _
    rw [if_neg]
    rw [Bool.and_eq_true, Bool.and_eq_true]
    rintro ⟨⟨hc, ha⟩, _⟩
    rw [h hc] at ha
    exact absurd ha (by decide)
  · rfl

/-! ### Taking a unit and synchronising (R115, R235) -/

/-- A free unit for which no other thread waits is taken; otherwise the thread waits for it. -/
theorem taking_eq (r : Res) (core : Nat) (free : Bool) (w : BitVec 2) (operand : Word) (srcs : List Reg) (p : Pending)
    (effect : Thread → State → Done) (t : Thread) (s : State) :
    taking r core free w operand srcs p effect t s
      = if free = true ∧ s.othersBefore t r core = false then effect t s else waitFor w operand srcs (.unit r core p) t s := by
  unfold taking
  by_cases h : free = true ∧ s.othersBefore t r core = false
  · rw [if_pos h, if_pos (by simpa using h)]
  · rw [if_neg h, if_neg (by simpa using h)]

/-- With nothing left to retire a synchronising instruction has its effect at once. -/
theorem atSync_effect (observable : Bool) (w : BitVec 2) (operand : Word) (srcs : List Reg) (p : Pending)
    (effect : Thread → State → Done) (t : Thread) (s : State)
    (h : s.regionHolds t t.region = false) (hu : t.unretired = []) :
    atSync observable w operand srcs p effect t s = effect t s := by
  unfold atSync Thread.endRegion Thread.canEnd
  cases observable <;> simp [h, hu]

/-! ### Memory at its home (R212, R389) -/

@[simp] theorem State.poke_mem (s : State) (pa n v : Nat) : (s.poke pa n v).mem = Memory.write s.mem pa n v := by
  unfold State.poke; rw [State.buffered_mem]

theorem State.poke_wf {s : State} (h : Memory.wf s.mem = true) (pa n v : Nat) : Memory.wf (s.poke pa n v).mem = true := by
  rw [State.poke_mem]; exact Memory.wf_write n pa v h

/-! ### Commands (R449, R452) -/

/-- A booted package that has reached the stage and activates no update works on a command. -/
theorem command_runs {stage seq : Nat} {s : State} (body : State → State) (hb : s.booted = true) (hs : seq < 2 ^ 32)
    (hq : s.quiesce = none) (hst : stage ≤ s.stage) : command stage seq body s = .next (body s) := by
  unfold command
  rw [if_neg (by rw [hb]; simpa using hs), if_neg (by simp [hq]), if_neg (by omega)]

/-- A command answers a next state wherever the package has booted. -/
theorem command_next {seq : Nat} {s : State} (stage : Nat) (body : State → State) (hb : s.booted = true) (hs : seq < 2 ^ 32) :
    ∃ s', command stage seq body s = .next s' := by
  unfold command
  rw [if_neg (by rw [hb]; simpa using hs)]
  split
  · exact ⟨_, rfl⟩
  · split <;> exact ⟨_, rfl⟩

end Sys2Proof.Machine
end

