-- ==== Sys2Proof/Laws/Translate.lean ====
section
/-! SUPPORT. Translation and memory contents (R187, R190-R197, R374): where an address lies does not depend on what memory holds, and a walk
depends on the entries it reads alone. -/

namespace Sys2Proof.Machine

theorem place_mem (s : State) (m : Mem) (p : Nat) : ({ s with mem := m } : State).place p = s.place p := rfl
theorem present_mem (s : State) (m : Mem) (p : Nat) : ({ s with mem := m } : State).present p = s.present p := by
  unfold State.present; rw [place_mem]
theorem pagePresent_mem (s : State) (m : Mem) (p n : Nat) (l : Bool) :
    ({ s with mem := m } : State).pagePresent p n l = s.pagePresent p n l := by
  unfold State.pagePresent
  have h : (fun i : Nat => ({ s with mem := m } : State).place (p + i * 2 ^ 30)) = fun i => s.place (p + i * 2 ^ 30) :=
    funext fun i => place_mem s m _
  generalize hf : (fun i : Nat => ({ s with mem := m } : State).place (p + i * 2 ^ 30)) = f at h
  generalize hg : (fun i : Nat => s.place (p + i * 2 ^ 30)) = g at h
  have a : ∀ i, ({ s with mem := m } : State).place (p + i * 2 ^ 30) = f i := fun i => congrFun hf i
  have b : ∀ i, s.place (p + i * 2 ^ 30) = g i := fun i => congrFun hg i
  simp only [a, b, h]
theorem cachedAt_none (s : State) (c va : Nat) : s.cachedAt [] c va = none := by
  unfold State.cachedAt
  exact List.find?_eq_none.2 fun e _ => by simp
theorem cachedAt_walk (s : State) (k l c va : Nat) (h : (s.tlb.all fun e => e.place != .walk k l) = true) :
    s.cachedAt [.walk k l] c va = none := by
  unfold State.cachedAt
  refine List.find?_eq_none.2 fun e he => ?_
  have := List.all_eq_true.1 h e he
  simp at this
  simp [this]
/-- R190-R194: a walk that ends at the root table's first entry depends on that entry's eight bytes alone. -/
theorem leaf_root (s : State) (m : Mem) (ctx va : Nat) (j : Job) (ht : (s.tlb.all fun e => e.place != .walk 128 0) = true)
    (hj : s.job? ctx = some j) (hv : va < 2 ^ 35)
    (hb : (BitVec.ofNat 64 (Memory.read s.mem j.root 8)).getLsbD 1 = true)
    (hm : ∀ i, i < 8 → Memory.get m (j.root + i) = Memory.get s.mem (j.root + i)) :
    ({ s with mem := m } : State).leaf [] 128 ctx va = s.leaf [] 128 ctx va := by
  have hi : va / 2 ^ levelShift 0 % levelEntries 0 = 0 := by
    rw [show levelShift 0 = 35 from rfl, Nat.div_eq_of_lt hv]; rfl
  have hr : Memory.read m j.root 8 = Memory.read s.mem j.root 8 := Memory.read_congr 8 _ _ _ hm
  have hj' : ({ s with mem := m } : State).job? ctx = some j := hj
  have hw := fun v => cachedAt_walk s 128 0 ctx v ht
  have hw' := fun v => cachedAt_walk { s with mem := m } 128 0 ctx v ht
  unfold State.leaf
  rw [hj, hj', cachedAt_none, cachedAt_none]
  unfold State.walkFrom State.peek
  simp only [hw, hw', hi, Nat.mul_zero, Nat.add_zero, hr, hb, if_true, present_mem, pagePresent_mem]

end Sys2Proof.Machine
end

