-- ==== Sys2Proof/Tests/Slice0.lean ====
section
/-! SUPPORT. The model's own tests: words written out from the encoding tables decode to the instructions they stand for, ill-formed
terms are refused, and for every statement that has hypotheses a concrete state and operands meet them. -/

set_option Elab.async false
set_option linter.unusedVariables false

namespace Sys2Proof.Tests

open Sys2Proof Sys2Proof.Machine Sys2Proof.Safety Sys2Proof.Claims

/-! ## What the proofs share -/

theorem noneAll {α : Type} {o : Option α} {P : α → Prop} (h : o.isNone = true) : ∀ x, o = some x → P x := by
  intro x e; rw [e] at h; cases h
theorem someAll {α : Type} {o : Option α} {P : α → Prop} (v : α) (h : o = some v) (p : P v) : ∀ x, o = some x → P x := by
  intro x e; rw [h] at e; cases e; exact p
def isSaving : Run → Bool
  | .saving .. => true
  | _ => false
theorem okOf {x : Xlate} (h : (match x with | .ok _ _ => true | _ => false) = true) : ∃ pa leaf, x = .ok pa leaf := by
  cases x with
  | ok pa leaf => exact ⟨pa, leaf, rfl⟩
  | page _ => cases h
  | access => cases h
  | ue => cases h
  | asleep => cases h
def okIs (x : Except WalkStop (Word × Nat)) (v : Word × Nat) : Bool := match x with | .ok w => w == v | .error _ => false
theorem okEq {x : Except WalkStop (Word × Nat)} {v : Word × Nat} (h : okIs x v = true) : x = .ok v := by
  cases x with
  | ok w => rw [eq_of_beq (by simpa [okIs] using h : (w == v) = true)]
  | error _ => cases h
theorem errEq {x : Except WalkStop (Word × Nat)} {v : WalkStop} (h : (match x with | .error w => decide (w = v) | .ok _ => false) = true) :
    x = .error v := by
  cases x with
  | ok w => cases h
  | error w => rw [of_decide_eq_true h]
theorem gensSmall (g : List (Nat × Nat)) (h : (g.all fun p => decide (p.2 < 2 ^ 24)) = true) : ∀ i, lookupD g i 0 < 2 ^ 24 := by
  intro i
  unfold lookupD
  cases hf : g.find? (fun p => p.1 == i) with
  | none => simp
  | some p => simpa using List.all_eq_true.1 h p (List.mem_of_find?_eq_some hf)
theorem clearOf {i : Instr} {s : State} {t : Thread} (h : s.current = some t)
    (c : i.wf = true ∧ illegalHere i t = false ∧ (t.handler.isSome = true → barred i = false) ∧ unprivileged i t = false
      ∧ (t.csr.pfx = true → takesPrefix i = true ∧ rejectsFmts i t.csr.latch = false) ∧ ∀ h, t.handler = some h → h.issues < 256) :
    Clear i s t :=
  ⟨h, c.1, c.2.1, c.2.2.1, c.2.2.2.1, c.2.2.2.2.1, c.2.2.2.2.2⟩
theorem readableOf {t : Thread} {s : State} {w : BitVec 2} {srcs dst : List Reg}
    (h : (∀ r ∈ srcs ++ dst, isPort r = true → (s.portTarget t r).isSome = true) ∧ (∀ r ∈ srcs, ∀ u ∈ t.c.ue, u.1 ≠ r.toNat)
      ∧ (∀ r ∈ srcs, srcFull t s w r = true) ∧ ∀ d ∈ dst, destBusy t s d = false) : Readable t s w srcs dst :=
  ⟨h.1, h.2.1, h.2.2.1, h.2.2.2⟩
theorem awaitsOf {p : Pending} {t : Thread} {s : State} {w : Wake} (h : s.thread? t.tid = some t) (r : t.run = .out w p)
    (c : w.win = 0#2 ∧ t.phase?.isSome = true ∧ s.quiesce = none ∧ t.migTarget = none ∧ t.request = none) : Awaits p t s :=
  ⟨h, ⟨w, r, c.1⟩, c.2.1, c.2.2.1, c.2.2.2.1, c.2.2.2.2⟩
theorem inPartOf {cl : Nat} {e : Engine} {o : ArrRec} {t : Thread} {s : State} (h : s.thread? e.holder = some t)
    (c : s.engine? cl e.idx = some e ∧ e.nextOp = some o ∧ t.waitsIn o = true ∧ e.tUE = [] ∧ e.aUE = []) : InPart cl e o t s :=
  ⟨c.1, c.2.1, h, c.2.2.1, c.2.2.2.1, c.2.2.2.2⟩
theorem noStoreBefore {s : State} {unit num : Nat}
    (h : (s.stores.isEmpty && s.threads.all fun u => (u.run.pending.bind (·.storeAt)).isNone) = true) :
    ∀ pa, s.storeBefore unit pa num = false := by
  intro pa
  obtain ⟨h1, h2⟩ := Bool.and_eq_true_iff.1 h
  unfold State.storeBefore
  rw [List.isEmpty_iff.1 h1, List.any_nil, Bool.false_or, List.any_eq_false]
  intro u hu
  have hn := List.all_eq_true.1 h2 u hu
  rw [Option.isNone_iff_eq_none] at hn
  simp only [hn, Bool.and_false, Bool.false_eq_true, not_false_eq_true]
theorem notOwned {s : State} {func ctx : Nat} (h : ((s.job? ctx).all fun j => j.func != func) = true) : ¬ Owned func ctx s := by
  rintro ⟨j, hj, rfl⟩
  simp [hj] at h
theorem noneOwned {s : State} {l : List Machine.Stream} {n func : Nat}
    (h : (l.all fun k => k.n != n || (s.job? k.ctx).all fun j => j.func != func) = true) :
    ∀ k, k ∈ l → k.n = n → ¬ Owned func k.ctx s := by
  intro k hk e
  have := List.all_eq_true.1 h k hk
  exact notOwned (by simpa [e] using this)
theorem pagesMeet (s : State) (ctx : Nat) (need : Need) (f : Nat → Bool) (l : List Nat)
    (h : (l.all fun va => match s.xlate ctx none need va with | .ok pa _ => f pa | _ => false) = true) :
    ∀ va ∈ l, ∃ pa leaf, s.xlate ctx none need va = .ok pa leaf ∧ f pa = true := by
  intro va hv
  have := List.all_eq_true.1 h va hv
  split at this
  · exact ⟨_, _, by assumption, this⟩
  · cases this
theorem tablesApart_root (s : State) (ctx : Nat) (spots vas : List Nat) (j : Job)
    (ht : (s.tlb.all fun e => e.place != .walk 128 0) = true) (hj : s.job? ctx = some j)
    (hb : (BitVec.ofNat 64 (Memory.read s.mem j.root 8)).getLsbD 1 = true)
    (hs : (spots.all fun p => decide (j.root + 8 ≤ p ∨ p + 64 ≤ j.root)) = true) (hv : (vas.all fun va => decide (va < 2 ^ 35)) = true) :
    TablesApart s ctx spots vas := by
  intro m hm va hva
  refine leaf_root s m ctx va j ht hj (by simpa using List.all_eq_true.1 hv va hva) hb fun i hi => hm _ fun p hp => ?_
  have := List.all_eq_true.1 hs p hp
  simp only [decide_eq_true_eq] at this
  omega
theorem frameAt_root (s : State) (ctx va n : Nat) (j : Job) (ht : (s.tlb.all fun e => e.place != .walk 128 0) = true)
    (hj : s.job? ctx = some j)
    (hb : (BitVec.ofNat 64 (Memory.read s.mem j.root 8)).getLsbD 1 = true) (hr : va + n ≤ j.root ∨ j.root + 8 ≤ va) (hv : va + n < 2 ^ 35)
    (hw : okIs (s.leaf [] 128 ctx 0) (0x1F#64, 0) = true) : FrameAt s ctx va va n := by
  intro m hm i hi
  have hz : ∀ a, a < 2 ^ 35 → s.leaf [] 128 ctx a = .ok (0x1F#64, 0) := by
    intro a ha
    rw [← okEq hw]
    have hi : a / 2 ^ levelShift 0 % levelEntries 0 = 0 / 2 ^ levelShift 0 % levelEntries 0 := by
      rw [show levelShift 0 = 35 from rfl, Nat.div_eq_of_lt ha, Nat.zero_div]
    have hi0 : 0 / 2 ^ levelShift 0 % levelEntries 0 = 0 := rfl
    rw [hi0] at hi
    have hc := fun v => cachedAt_walk s 128 0 ctx v ht
    unfold State.leaf
    rw [hj, cachedAt_none, cachedAt_none]
    unfold State.walkFrom State.peek
    simp only [hc, hi, hi0, Nat.mul_zero, Nat.add_zero, hb, if_true]
  unfold State.jobPhys
  rw [leaf_root s m ctx (va + i) j ht hj (by omega) hb fun k hk => hm _ (by omega), hz (va + i) (by omega)]
  simp only [underLeaf, show entryField 0x1F#64 16 32 = 0 from rfl, show levelShift 0 = 35 from rfl, Nat.zero_mul, Nat.zero_add,
    Nat.mod_eq_of_lt (show va + i < 2 ^ 35 by omega)]

/-! ## A small machine: one job with one thread, one resident leaf over the first bytes of memory -/

/-- job with one thread -/
def S00 : State := State.reset.withFetchWord 32 0
def Root : Nat := 0x10000000
def Leaf : Word := 0x1F
def Leaf2 : Word := BitVec.ofNat 64 (131072 + 0x1F)
def S0 : State := { S00 with
  tlb := ⟨.dtlb 0, 0, 3, 131072, Leaf2⟩ :: ⟨.dtlb 0, 0, 3, 65536, placedLeaf⟩ :: S00.tlb,
  threads := S00.threads.map fun t => { t with csr := { t.csr with migoff := true } },
  hbm := S00.hbm.map trained, stage := 2, booted := true,
  jobs := S00.jobs.map fun j => { j with root := Root, cbase := 65536, dbase := 0x300000, saveVA := 0x400000, saveBytes := 0x40000, reportVA := 0x500000, reportBytes := 4096, faultVA := 0x600000, faultLog2 := 6 },
  mem := Memory.write (Memory.write S00.mem 131072 16 0xFEDCBA98765432100123456789ABCDEF) Root 8 0x1F }
def T0 : Thread := (S0.thread? S0.cur).getD (Thread.fresh 0 0 (.phase 0 0) 0#64)
def reg (t : Thread) (r : Nat) (v : Word) : Thread := { t with c := t.c.setReg (BitVec.ofNat 6 r) v }
def regs (l : List (Nat × Nat)) : Thread := l.foldl (fun t p => reg t p.1 (BitVec.ofNat 64 p.2)) T0
def st (t : Thread) (s : State := S0) : State := s.setThread t
def csr (t : Thread) (f : Csrs → Csrs) : Thread := { t with csr := f t.csr }
def spad (s : State) (a n v : Nat) : State := s.modCore 0 fun c => { c with spad := Memory.write c.spad a n v }
def wm (s : State) (a n v : Nat) : State := { s with mem := Memory.write s.mem a n v }
def cl0 (s : State) (f : Cluster → Cluster) : State := s.modCluster 0 f
def W0 : Wake := ⟨.memory, 0#32, 0#64, 0#2, false, false⟩
def outT (p : Pending) (t : Thread := T0) : Thread := { t with run := .out W0 p }
def pend (p : Pending) (s : State := S0) : State := st (outT p) s
/-! ## Words written out from the encoding tables (R43-R48, and each family's table)

The fields of every word stand from bit 31 down, each at the place its format gives it. -/

/-- A word decodes to an instruction, and its fields are accepted at decode. -/
def Reads (w : W32) (i : Instr) : Prop := decode w = .ok i ∧ i.wf = true

/-- Opcode 0x01 (R99). -/
theorem test_decode_01 :
    Reads (0b000001#6 ++ 0b000010#6 ++ 0b000001#6 ++ 0b101110#6 ++ 0b11#2 ++ 0b000000#6) (.add ⟨2, 1, 46, 3⟩) ∧
    Reads (0b000001#6 ++ 0b000101#6 ++ 0b000010#6 ++ 0b101110#6 ++ 0b11#2 ++ 0b000001#6) (.sub ⟨5, 2, 46, 3⟩) ∧
    Reads (0b000001#6 ++ 0b101110#6 ++ 0b000101#6 ++ 0b000110#6 ++ 0b10#2 ++ 0b000010#6) (.and_ ⟨46, 5, 6, 2⟩) ∧
    Reads (0b000001#6 ++ 0b001001#6 ++ 0b000001#6 ++ 0b101110#6 ++ 0b11#2 ++ 0b000011#6) (.or_ ⟨9, 1, 46, 3⟩) ∧
    Reads (0b000001#6 ++ 0b000010#6 ++ 0b101110#6 ++ 0b000101#6 ++ 0b01#2 ++ 0b000100#6) (.xor_ ⟨2, 46, 5, 1⟩) ∧
    Reads (0b000001#6 ++ 0b101110#6 ++ 0b001001#6 ++ 0b000101#6 ++ 0b11#2 ++ 0b000101#6) (.andn ⟨46, 9, 5, 3⟩) ∧
    Reads (0b000001#6 ++ 0b000010#6 ++ 0b000101#6 ++ 0b101110#6 ++ 0b01#2 ++ 0b000110#6) (.sll ⟨2, 5, 46, 1⟩) ∧
    Reads (0b000001#6 ++ 0b001100#6 ++ 0b101110#6 ++ 0b000110#6 ++ 0b11#2 ++ 0b000111#6) (.srl ⟨12, 46, 6, 3⟩) ∧
    Reads (0b000001#6 ++ 0b000101#6 ++ 0b101110#6 ++ 0b001001#6 ++ 0b10#2 ++ 0b001000#6) (.sra ⟨5, 46, 9, 2⟩) ∧
    Reads (0b000001#6 ++ 0b000010#6 ++ 0b000110#6 ++ 0b101110#6 ++ 0b01#2 ++ 0b001001#6) (.ror ⟨2, 6, 46, 1⟩) ∧
    Reads (0b000001#6 ++ 0b000110#6 ++ 0b101110#6 ++ 0b001001#6 ++ 0b01#2 ++ 0b001010#6) (.slt ⟨6, 46, 9, 1⟩) ∧
    Reads (0b000001#6 ++ 0b101110#6 ++ 0b001100#6 ++ 0b000001#6 ++ 0b10#2 ++ 0b001011#6) (.sltz ⟨46, 12, 1, 2⟩) ∧
    Reads (0b000001#6 ++ 0b101110#6 ++ 0b000010#6 ++ 0b000110#6 ++ 0b11#2 ++ 0b001100#6) (.seq ⟨46, 2, 6, 3⟩) ∧
    Reads (0b000001#6 ++ 0b001001#6 ++ 0b101110#6 ++ 0b000101#6 ++ 0b01#2 ++ 0b001101#6) (.min_ ⟨9, 46, 5, 1⟩) ∧
    Reads (0b000001#6 ++ 0b101110#6 ++ 0b000001#6 ++ 0b000110#6 ++ 0b11#2 ++ 0b001110#6) (.max_ ⟨46, 1, 6, 3⟩) ∧
    Reads (0b000001#6 ++ 0b000101#6 ++ 0b101110#6 ++ 0b000001#6 ++ 0b10#2 ++ 0b001111#6) (.minz ⟨5, 46, 1, 2⟩) ∧
    Reads (0b000001#6 ++ 0b101110#6 ++ 0b000001#6 ++ 0b001001#6 ++ 0b10#2 ++ 0b010000#6) (.maxz ⟨46, 1, 9, 2⟩) ∧
    Reads (0b000001#6 ++ 0b000001#6 ++ 0b101110#6 ++ 0b000101#6 ++ 0b11#2 ++ 0b010001#6) (.adds ⟨1, 46, 5, 3⟩) ∧
    Reads (0b000001#6 ++ 0b101110#6 ++ 0b000110#6 ++ 0b001100#6 ++ 0b11#2 ++ 0b010010#6) (.subs ⟨46, 6, 12, 3⟩) ∧
    Reads (0b000001#6 ++ 0b101110#6 ++ 0b001001#6 ++ 0b000000#6 ++ 0b11#2 ++ 0b010011#6) (.clz ⟨46, 9, 0, 3⟩) ∧
    Reads (0b000001#6 ++ 0b000101#6 ++ 0b101110#6 ++ 0b000000#6 ++ 0b11#2 ++ 0b010100#6) (.ctz ⟨5, 46, 0, 3⟩) ∧
    Reads (0b000001#6 ++ 0b101110#6 ++ 0b000110#6 ++ 0b000000#6 ++ 0b11#2 ++ 0b010101#6) (.popc ⟨46, 6, 0, 3⟩) ∧
    Reads (0b000001#6 ++ 0b001100#6 ++ 0b101110#6 ++ 0b000000#6 ++ 0b10#2 ++ 0b010110#6) (.bswap ⟨12, 46, 0, 2⟩) ∧
    Reads (0b000001#6 ++ 0b000101#6 ++ 0b101110#6 ++ 0b000000#6 ++ 0b01#2 ++ 0b010111#6) (.sxb ⟨5, 46, 0, 1⟩) ∧
    Reads (0b000001#6 ++ 0b101110#6 ++ 0b001100#6 ++ 0b000000#6 ++ 0b11#2 ++ 0b011000#6) (.sxh ⟨46, 12, 0, 3⟩) ∧
    Reads (0b000001#6 ++ 0b101110#6 ++ 0b000110#6 ++ 0b000000#6 ++ 0b01#2 ++ 0b011001#6) (.sxw ⟨46, 6, 0, 1⟩) ∧
    Reads (0b000001#6 ++ 0b101110#6 ++ 0b000010#6 ++ 0b000000#6 ++ 0b01#2 ++ 0b011010#6) (.zxw ⟨46, 2, 0, 1⟩) ∧
    Reads (0b000001#6 ++ 0b000101#6 ++ 0b101110#6 ++ 0b000000#6 ++ 0b11#2 ++ 0b011011#6) (.mvt ⟨5, 46, 0, 3⟩) ∧
    Reads (0b000001#6 ++ 0b101110#6 ++ 0b000001#6 ++ 0b000000#6 ++ 0b11#2 ++ 0b011100#6) (.mvp ⟨46, 1, 0, 3⟩) ∧
    Reads (0b000001#6 ++ 0b000000#6 ++ 0b101110#6 ++ 0b000000#6 ++ 0b11#2 ++ 0b011101#6) (.rclr ⟨0, 46, 0, 3⟩) ∧
    Reads (0b000001#6 ++ 0b101110#6 ++ 0b000101#6 ++ 0b000000#6 ++ 0b11#2 ++ 0b011110#6) (.rful ⟨46, 5, 0, 3⟩) :=
  by unfold Reads; and_intros <;> rfl

/-- Opcode 0x02 (R101). -/
theorem test_decode_02 :
    Reads (0b000010#6 ++ 0b101110#6 ++ 0b000010#6 ++ 0b000#3 ++ 0x5a3#11) (.addi ⟨46, 2, 1443⟩) ∧
    Reads (0b000010#6 ++ 0b101110#6 ++ 0b001100#6 ++ 0b001#3 ++ 0x5a3#11) (.andi ⟨46, 12, 1443⟩) ∧
    Reads (0b000010#6 ++ 0b000110#6 ++ 0b001100#6 ++ 0b010#3 ++ 0x3f#11) (.andiz ⟨6, 12, 63⟩) ∧
    Reads (0b000010#6 ++ 0b000010#6 ++ 0b000110#6 ++ 0b011#3 ++ 0x3f#11) (.ori ⟨2, 6, 63⟩) ∧
    Reads (0b000010#6 ++ 0b101110#6 ++ 0b000001#6 ++ 0b100#3 ++ 0x5a3#11) (.oriz ⟨46, 1, 1443⟩) ∧
    Reads (0b000010#6 ++ 0b001100#6 ++ 0b101110#6 ++ 0b101#3 ++ 0x5a3#11) (.xori ⟨12, 46, 1443⟩) ∧
    Reads (0b000010#6 ++ 0b001100#6 ++ 0b000001#6 ++ 0b110#3 ++ 0x3f#11) (.xoriz ⟨12, 1, 63⟩) :=
  by unfold Reads; and_intros <;> rfl

/-- Opcode 0x03 (R101). -/
theorem test_decode_03 :
    Reads (0b000011#6 ++ 0b000101#6 ++ 0b000001#6 ++ 0b000#3 ++ 0x3f#11) (.slli ⟨5, 1, 63⟩) ∧
    Reads (0b000011#6 ++ 0b000010#6 ++ 0b101110#6 ++ 0b001#3 ++ 0x3f#11) (.srli ⟨2, 46, 63⟩) ∧
    Reads (0b000011#6 ++ 0b000001#6 ++ 0b000110#6 ++ 0b010#3 ++ 0x3f#11) (.srai ⟨1, 6, 63⟩) ∧
    Reads (0b000011#6 ++ 0b000001#6 ++ 0b000010#6 ++ 0b011#3 ++ 0x3f#11) (.rori ⟨1, 2, 63⟩) ∧
    Reads (0b000011#6 ++ 0b001100#6 ++ 0b000010#6 ++ 0b100#3 ++ 0x3f#11) (.slti ⟨12, 2, 63⟩) ∧
    Reads (0b000011#6 ++ 0b000001#6 ++ 0b000101#6 ++ 0b101#3 ++ 0x5a3#11) (.sltiz ⟨1, 5, 1443⟩) ∧
    Reads (0b000011#6 ++ 0b101110#6 ++ 0b000110#6 ++ 0b110#3 ++ 0x3f#11) (.seqi ⟨46, 6, 63⟩) :=
  by unfold Reads; and_intros <;> rfl

/-- Opcode 0x04 (R102). -/
theorem test_decode_04 :
    Reads (0b000100#6 ++ 0b000101#6 ++ 0xa5c3f#20) (.shlim ⟨5, 678975⟩) :=
  ⟨rfl, by decide⟩

/-- Opcode 0x05 (R59). -/
theorem test_decode_05 :
    Reads (0b000101#6 ++ 0b000101#6 ++ 0xa5c3f#20) (.addpc ⟨5, 678975⟩) :=
  ⟨rfl, by decide⟩

/-- Opcode 0x06 (R103). -/
theorem test_decode_06 :
    Reads (0b000110#6 ++ 0b001001#6 ++ 0b101110#6 ++ 0b000001#6 ++ 0b11#2 ++ 0b000000#6) (.mul ⟨9, 46, 1, 3⟩) ∧
    Reads (0b000110#6 ++ 0b000101#6 ++ 0b001100#6 ++ 0b101110#6 ++ 0b10#2 ++ 0b000001#6) (.mulh ⟨5, 12, 46, 2⟩) ∧
    Reads (0b000110#6 ++ 0b101110#6 ++ 0b000101#6 ++ 0b001100#6 ++ 0b10#2 ++ 0b000010#6) (.mulhz ⟨46, 5, 12, 2⟩) ∧
    Reads (0b000110#6 ++ 0b000010#6 ++ 0b101110#6 ++ 0b001001#6 ++ 0b11#2 ++ 0b000011#6) (.div ⟨2, 46, 9, 3⟩) ∧
    Reads (0b000110#6 ++ 0b101110#6 ++ 0b001001#6 ++ 0b000110#6 ++ 0b11#2 ++ 0b000100#6) (.divz ⟨46, 9, 6, 3⟩) ∧
    Reads (0b000110#6 ++ 0b000001#6 ++ 0b101110#6 ++ 0b001001#6 ++ 0b11#2 ++ 0b000101#6) (.rem ⟨1, 46, 9, 3⟩) ∧
    Reads (0b000110#6 ++ 0b101110#6 ++ 0b000110#6 ++ 0b001100#6 ++ 0b01#2 ++ 0b000110#6) (.remz ⟨46, 6, 12, 1⟩) :=
  by unfold Reads; and_intros <;> rfl

/-- Opcode 0x07 (R104). -/
theorem test_decode_07 :
    Reads (0b000111#6 ++ 0b000001#6 ++ 0b000000#6 ++ 0b00#2 ++ 0x9a3#12) (.csrr ⟨1, 0, 2467⟩) ∧
    Reads (0b000111#6 ++ 0b000101#6 ++ 0b001001#6 ++ 0b01#2 ++ 0x9a3#12) (.csrx ⟨5, 9, 2467⟩) ∧
    Reads (0b000111#6 ++ 0b000101#6 ++ 0b001001#6 ++ 0b10#2 ++ 0x9a3#12) (.csrs ⟨5, 9, 2467⟩) ∧
    Reads (0b000111#6 ++ 0b000101#6 ++ 0b001001#6 ++ 0b11#2 ++ 0x9a3#12) (.csrc ⟨5, 9, 2467⟩) :=
  by unfold Reads; and_intros <;> rfl

/-- Opcode 0x08 (R107). -/
theorem test_decode_08 :
    Reads (0b001000#6 ++ 0b110010#6 ++ 0b110101#6 ++ 0b001100#6 ++ 0b011#3 ++ 0b00000#5) (.vadd ⟨50, 53, 12, 3⟩) ∧
    Reads (0b001000#6 ++ 0b110101#6 ++ 0b110010#6 ++ 0b101110#6 ++ 0b011#3 ++ 0b00001#5) (.vsub ⟨53, 50, 46, 3⟩) ∧
    Reads (0b001000#6 ++ 0b110010#6 ++ 0b110101#6 ++ 0b000001#6 ++ 0b101#3 ++ 0b00010#5) (.vmul ⟨50, 53, 1, 5⟩) ∧
    Reads (0b001000#6 ++ 0b110010#6 ++ 0b110101#6 ++ 0b001001#6 ++ 0b011#3 ++ 0b00011#5) (.vmulh ⟨50, 53, 9, 3⟩) ∧
    Reads (0b001000#6 ++ 0b110010#6 ++ 0b110101#6 ++ 0b001100#6 ++ 0b101#3 ++ 0b00100#5) (.vand ⟨50, 53, 12, 5⟩) ∧
    Reads (0b001000#6 ++ 0b110010#6 ++ 0b110101#6 ++ 0b001001#6 ++ 0b101#3 ++ 0b00101#5) (.vor ⟨50, 53, 9, 5⟩) ∧
    Reads (0b001000#6 ++ 0b110101#6 ++ 0b110010#6 ++ 0b001001#6 ++ 0b011#3 ++ 0b00110#5) (.vxor ⟨53, 50, 9, 3⟩) ∧
    Reads (0b001000#6 ++ 0b110010#6 ++ 0b110101#6 ++ 0b101110#6 ++ 0b011#3 ++ 0b00111#5) (.vsll ⟨50, 53, 46, 3⟩) ∧
    Reads (0b001000#6 ++ 0b110101#6 ++ 0b110010#6 ++ 0b000001#6 ++ 0b011#3 ++ 0b01000#5) (.vsrl ⟨53, 50, 1, 3⟩) ∧
    Reads (0b001000#6 ++ 0b110010#6 ++ 0b110101#6 ++ 0b000110#6 ++ 0b011#3 ++ 0b01001#5) (.vsra ⟨50, 53, 6, 3⟩) ∧
    Reads (0b001000#6 ++ 0b110101#6 ++ 0b110010#6 ++ 0b001100#6 ++ 0b011#3 ++ 0b01010#5) (.vmin ⟨53, 50, 12, 3⟩) ∧
    Reads (0b001000#6 ++ 0b110101#6 ++ 0b110010#6 ++ 0b000110#6 ++ 0b101#3 ++ 0b01011#5) (.vmax ⟨53, 50, 6, 5⟩) ∧
    Reads (0b001000#6 ++ 0b000101#6 ++ 0b110101#6 ++ 0b001100#6 ++ 0b011#3 ++ 0b01100#5) (.vclt ⟨5, 53, 12, 3⟩) ∧
    Reads (0b001000#6 ++ 0b000001#6 ++ 0b110010#6 ++ 0b101110#6 ++ 0b101#3 ++ 0b01101#5) (.vceq ⟨1, 50, 46, 5⟩) :=
  by unfold Reads; and_intros <;> rfl

/-- Opcode 0x09 (R108). -/
theorem test_decode_09 :
    Reads (0b001001#6 ++ 0b110010#6 ++ 0b110101#6 ++ 0b000001#6 ++ 0b101#3 ++ 0b00000#5) (.vfadd ⟨50, 53, 1, 5⟩) ∧
    Reads (0b001001#6 ++ 0b110101#6 ++ 0b110010#6 ++ 0b000101#6 ++ 0b011#3 ++ 0b00001#5) (.vfsub ⟨53, 50, 5, 3⟩) ∧
    Reads (0b001001#6 ++ 0b110010#6 ++ 0b110101#6 ++ 0b000010#6 ++ 0b101#3 ++ 0b00010#5) (.vfmul ⟨50, 53, 2, 5⟩) ∧
    Reads (0b001001#6 ++ 0b110101#6 ++ 0b110010#6 ++ 0b000001#6 ++ 0b011#3 ++ 0b00011#5) (.vfma ⟨53, 50, 1, 3⟩) ∧
    Reads (0b001001#6 ++ 0b110010#6 ++ 0b110101#6 ++ 0b001001#6 ++ 0b011#3 ++ 0b00100#5) (.vfmax ⟨50, 53, 9, 3⟩) ∧
    Reads (0b001001#6 ++ 0b110010#6 ++ 0b110101#6 ++ 0b000110#6 ++ 0b101#3 ++ 0b00101#5) (.vfmin ⟨50, 53, 6, 5⟩) ∧
    Reads (0b001001#6 ++ 0b000010#6 ++ 0b110101#6 ++ 0b000001#6 ++ 0b101#3 ++ 0b00110#5) (.vfclt ⟨2, 53, 1, 5⟩) ∧
    Reads (0b001001#6 ++ 0b000001#6 ++ 0b110101#6 ++ 0b110010#6 ++ 0b101#3 ++ 0b00111#5) (.vfceq ⟨1, 53, 50, 5⟩) :=
  by unfold Reads; and_intros <;> rfl

/-- Opcode 0x0A (R109). -/
theorem test_decode_0A :
    Reads (0b001010#6 ++ 0b110010#6 ++ 0b000101#6 ++ 0b000000#6 ++ 0b011#3 ++ 0b00000#5) (.vbcast ⟨50, 5, 0, 3⟩) ∧
    Reads (0b001010#6 ++ 0b000101#6 ++ 0b110010#6 ++ 0b101110#6 ++ 0b000#3 ++ 0b00001#5) (.vext ⟨5, 50, 46, 0⟩) ∧
    Reads (0b001010#6 ++ 0b110101#6 ++ 0b000010#6 ++ 0b001100#6 ++ 0b101#3 ++ 0b00010#5) (.vins ⟨53, 2, 12, 5⟩) ∧
    Reads (0b001010#6 ++ 0b110101#6 ++ 0b110010#6 ++ 0b000010#6 ++ 0b101#3 ++ 0b00011#5) (.vrot ⟨53, 50, 2, 5⟩) ∧
    Reads (0b001010#6 ++ 0b110010#6 ++ 0b110101#6 ++ 0b110101#6 ++ 0b101#3 ++ 0b00100#5) (.vperm ⟨50, 53, 53, 5⟩) ∧
    Reads (0b001010#6 ++ 0b001100#6 ++ 0b110101#6 ++ 0b000000#6 ++ 0b011#3 ++ 0b00101#5) (.vredadd ⟨12, 53, 0, 3⟩) ∧
    Reads (0b001010#6 ++ 0b001001#6 ++ 0b110010#6 ++ 0b000000#6 ++ 0b101#3 ++ 0b00110#5) (.vredmax ⟨9, 50, 0, 5⟩) ∧
    Reads (0b001010#6 ++ 0b101110#6 ++ 0b000000#6 ++ 0b000000#6 ++ 0b101#3 ++ 0b00111#5) (.kget ⟨46, 0, 0, 5⟩) ∧
    Reads (0b001010#6 ++ 0b000101#6 ++ 0b000010#6 ++ 0b000000#6 ++ 0b000#3 ++ 0b01000#5) (.kset ⟨5, 2, 0, 0⟩) :=
  by unfold Reads; and_intros <;> rfl

/-- Opcode 0x0B (R111). -/
theorem test_decode_0B :
    Reads (0b001011#6 ++ 0b110010#6 ++ 0b110101#6 ++ 0b000000#6 ++ 0b101#3 ++ 0b00000#5) (.vcvt ⟨50, 53, 0, 5⟩) ∧
    Reads (0b001011#6 ++ 0b110010#6 ++ 0b110101#6 ++ 0b000000#6 ++ 0b101#3 ++ 0b00001#5) (.vexp2 ⟨50, 53, 0, 5⟩) ∧
    Reads (0b001011#6 ++ 0b110101#6 ++ 0b110010#6 ++ 0b000000#6 ++ 0b011#3 ++ 0b00010#5) (.vrcp ⟨53, 50, 0, 3⟩) ∧
    Reads (0b001011#6 ++ 0b110101#6 ++ 0b110010#6 ++ 0b000000#6 ++ 0b011#3 ++ 0b00011#5) (.vrsq ⟨53, 50, 0, 3⟩) ∧
    Reads (0b001011#6 ++ 0b110010#6 ++ 0b110101#6 ++ 0b000000#6 ++ 0b011#3 ++ 0b00100#5) (.vgelu ⟨50, 53, 0, 3⟩) :=
  by unfold Reads; and_intros <;> rfl

/-- Opcode 0x0C (R119). -/
theorem test_decode_0C :
    Reads (0b001100#6 ++ 0b000101#6 ++ 0b001001#6 ++ 0x2a5b#14) (.beq ⟨5, 9, 10843⟩) :=
  ⟨rfl, by decide⟩

/-- Opcode 0x0D (R119). -/
theorem test_decode_0D :
    Reads (0b001101#6 ++ 0b000101#6 ++ 0b001001#6 ++ 0x2a5b#14) (.bne ⟨5, 9, 10843⟩) :=
  ⟨rfl, by decide⟩

/-- Opcode 0x0E (R119). -/
theorem test_decode_0E :
    Reads (0b001110#6 ++ 0b000101#6 ++ 0b001001#6 ++ 0x2a5b#14) (.blt ⟨5, 9, 10843⟩) :=
  ⟨rfl, by decide⟩

/-- Opcode 0x0F (R119). -/
theorem test_decode_0F :
    Reads (0b001111#6 ++ 0b000101#6 ++ 0b001001#6 ++ 0x2a5b#14) (.bge ⟨5, 9, 10843⟩) :=
  ⟨rfl, by decide⟩

/-- Opcode 0x10 (R119). -/
theorem test_decode_10 :
    Reads (0b010000#6 ++ 0b000101#6 ++ 0b001001#6 ++ 0x2a5b#14) (.bltz ⟨5, 9, 10843⟩) :=
  ⟨rfl, by decide⟩

/-- Opcode 0x11 (R120). -/
theorem test_decode_11 :
    Reads (0b010001#6 ++ 0b000#3 ++ 0b0#1 ++ 0b01#2 ++ 0b000000#6 ++ 0x2a5b#14) (.bp ⟨0, 1, 0, 10843⟩) ∧
    Reads (0b010001#6 ++ 0b000#3 ++ 0b1#1 ++ 0b11#2 ++ 0b000000#6 ++ 0x2a5b#14) (.bnp ⟨0, 3, 0, 10843⟩) :=
  by unfold Reads; and_intros <;> rfl

/-- Opcode 0x12 (R121). -/
theorem test_decode_12 :
    Reads (0b010010#6 ++ 0b000101#6 ++ 0xa5c3f#20) (.jal ⟨5, 678975⟩) :=
  ⟨rfl, by decide⟩

/-- Opcode 0x13 (R122). -/
theorem test_decode_13 :
    Reads (0b010011#6 ++ 0b000101#6 ++ 0b001001#6 ++ 0x2a5b#14) (.jr ⟨5, 9, 10843⟩) :=
  ⟨rfl, by decide⟩

/-- Opcode 0x14 (R124). -/
theorem test_decode_14 :
    Reads (0b010100#6 ++ 0b000001#6 ++ 0b101110#6 ++ 0b000000#6 ++ 0b11#2 ++ 0b000000#6) (.pnez ⟨1, 46, 0, 3⟩) ∧
    Reads (0b010100#6 ++ 0b000001#6 ++ 0b000010#6 ++ 0b101110#6 ++ 0b11#2 ++ 0b000001#6) (.peq ⟨1, 2, 46, 3⟩) ∧
    Reads (0b010100#6 ++ 0b000010#6 ++ 0b101110#6 ++ 0b001100#6 ++ 0b11#2 ++ 0b000010#6) (.plt ⟨2, 46, 12, 3⟩) ∧
    Reads (0b010100#6 ++ 0b000001#6 ++ 0b101110#6 ++ 0b000010#6 ++ 0b11#2 ++ 0b000011#6) (.pltz ⟨1, 46, 2, 3⟩) ∧
    Reads (0b010100#6 ++ 0b000010#6 ++ 0b000001#6 ++ 0b000010#6 ++ 0b00#2 ++ 0b000100#6) (.pand ⟨2, 1, 2, 0⟩) ∧
    Reads (0b010100#6 ++ 0b000010#6 ++ 0b000001#6 ++ 0b000010#6 ++ 0b00#2 ++ 0b000101#6) (.por ⟨2, 1, 2, 0⟩) ∧
    Reads (0b010100#6 ++ 0b000010#6 ++ 0b000010#6 ++ 0b000001#6 ++ 0b00#2 ++ 0b000110#6) (.pxor ⟨2, 2, 1, 0⟩) ∧
    Reads (0b010100#6 ++ 0b000001#6 ++ 0b000010#6 ++ 0b000000#6 ++ 0b00#2 ++ 0b000111#6) (.pnot ⟨1, 2, 0, 0⟩) ∧
    Reads (0b010100#6 ++ 0b001001#6 ++ 0b000010#6 ++ 0b000000#6 ++ 0b00#2 ++ 0b001000#6) (.pget ⟨9, 2, 0, 0⟩) ∧
    Reads (0b010100#6 ++ 0b000000#6 ++ 0b000000#6 ++ 0b000000#6 ++ 0b00#2 ++ 0b010000#6) (.yield_ ⟨0, 0, 0, 0⟩) ∧
    Reads (0b010100#6 ++ 0b000000#6 ++ 0b101110#6 ++ 0b000000#6 ++ 0b10#2 ++ 0b010001#6) (.exit_ ⟨0, 46, 0, 2⟩) ∧
    Reads (0b010100#6 ++ 0b000000#6 ++ 0b000000#6 ++ 0b000000#6 ++ 0b00#2 ++ 0b010010#6) (.brk ⟨0, 0, 0, 0⟩) ∧
    Reads (0b010100#6 ++ 0b000000#6 ++ 0b101110#6 ++ 0b000000#6 ++ 0b01#2 ++ 0b010011#6) (.ecall ⟨0, 46, 0, 1⟩) ∧
    Reads (0b010100#6 ++ 0b000000#6 ++ 0b000000#6 ++ 0b000000#6 ++ 0b00#2 ++ 0b010100#6) (.eret ⟨0, 0, 0, 0⟩) :=
  by unfold Reads; and_intros <;> rfl

/-- Opcode 0x15 (R155). -/
theorem test_decode_15 :
    Reads (0b010101#6 ++ 0b000101#6 ++ 0b000110#6 ++ 0b000#3 ++ 0x5a3#11) (.ldlB ⟨5, 6, 1443⟩) ∧
    Reads (0b010101#6 ++ 0b000010#6 ++ 0b000101#6 ++ 0b001#3 ++ 0x3f#11) (.ldlH ⟨2, 5, 63⟩) ∧
    Reads (0b010101#6 ++ 0b000001#6 ++ 0b001100#6 ++ 0b010#3 ++ 0x3f#11) (.ldlW ⟨1, 12, 63⟩) ∧
    Reads (0b010101#6 ++ 0b101110#6 ++ 0b000010#6 ++ 0b011#3 ++ 0x3f#11) (.ldlD ⟨46, 2, 63⟩) ∧
    Reads (0b010101#6 ++ 0b000110#6 ++ 0b001001#6 ++ 0b100#3 ++ 0x3f#11) (.ldlBz ⟨6, 9, 63⟩) ∧
    Reads (0b010101#6 ++ 0b000010#6 ++ 0b001001#6 ++ 0b101#3 ++ 0x5a3#11) (.ldlHz ⟨2, 9, 1443⟩) ∧
    Reads (0b010101#6 ++ 0b000010#6 ++ 0b000001#6 ++ 0b110#3 ++ 0x5a3#11) (.ldlWz ⟨2, 1, 1443⟩) ∧
    Reads (0b010101#6 ++ 0b110101#6 ++ 0b001001#6 ++ 0b111#3 ++ 0x3f#11) (.ldlV ⟨53, 9, 63⟩) :=
  by unfold Reads; and_intros <;> rfl

/-- Opcode 0x16 (R155). -/
theorem test_decode_16 :
    Reads (0b010110#6 ++ 0b001001#6 ++ 0b000101#6 ++ 0b000#3 ++ 0x5a3#11) (.stlB ⟨9, 5, 1443⟩) ∧
    Reads (0b010110#6 ++ 0b000001#6 ++ 0b000110#6 ++ 0b001#3 ++ 0x3f#11) (.stlH ⟨1, 6, 63⟩) ∧
    Reads (0b010110#6 ++ 0b000110#6 ++ 0b000101#6 ++ 0b010#3 ++ 0x3f#11) (.stlW ⟨6, 5, 63⟩) ∧
    Reads (0b010110#6 ++ 0b001100#6 ++ 0b001001#6 ++ 0b011#3 ++ 0x3f#11) (.stlD ⟨12, 9, 63⟩) ∧
    Reads (0b010110#6 ++ 0b110010#6 ++ 0b001001#6 ++ 0b100#3 ++ 0x5a3#11) (.stlV ⟨50, 9, 1443⟩) :=
  by unfold Reads; and_intros <;> rfl

/-- Opcode 0x17 (R155). -/
theorem test_decode_17 :
    Reads (0b010111#6 ++ 0b000110#6 ++ 0b000010#6 ++ 0b000#3 ++ 0x3f#11) (.ldcB ⟨6, 2, 63⟩) ∧
    Reads (0b010111#6 ++ 0b000001#6 ++ 0b000110#6 ++ 0b001#3 ++ 0x5a3#11) (.ldcH ⟨1, 6, 1443⟩) ∧
    Reads (0b010111#6 ++ 0b000110#6 ++ 0b000101#6 ++ 0b010#3 ++ 0x5a3#11) (.ldcW ⟨6, 5, 1443⟩) ∧
    Reads (0b010111#6 ++ 0b000101#6 ++ 0b000001#6 ++ 0b011#3 ++ 0x5a3#11) (.ldcD ⟨5, 1, 1443⟩) ∧
    Reads (0b010111#6 ++ 0b001100#6 ++ 0b000101#6 ++ 0b100#3 ++ 0x3f#11) (.ldcBz ⟨12, 5, 63⟩) ∧
    Reads (0b010111#6 ++ 0b001001#6 ++ 0b000101#6 ++ 0b101#3 ++ 0x3f#11) (.ldcHz ⟨9, 5, 63⟩) ∧
    Reads (0b010111#6 ++ 0b000101#6 ++ 0b001100#6 ++ 0b110#3 ++ 0x3f#11) (.ldcWz ⟨5, 12, 63⟩) ∧
    Reads (0b010111#6 ++ 0b110010#6 ++ 0b001001#6 ++ 0b111#3 ++ 0x3f#11) (.ldcV ⟨50, 9, 63⟩) :=
  by unfold Reads; and_intros <;> rfl

/-- Opcode 0x18 (R155). -/
theorem test_decode_18 :
    Reads (0b011000#6 ++ 0b000101#6 ++ 0b001100#6 ++ 0b000#3 ++ 0x5a3#11) (.stcB ⟨5, 12, 1443⟩) ∧
    Reads (0b011000#6 ++ 0b000001#6 ++ 0b000101#6 ++ 0b001#3 ++ 0x5a3#11) (.stcH ⟨1, 5, 1443⟩) ∧
    Reads (0b011000#6 ++ 0b001100#6 ++ 0b000110#6 ++ 0b010#3 ++ 0x3f#11) (.stcW ⟨12, 6, 63⟩) ∧
    Reads (0b011000#6 ++ 0b000101#6 ++ 0b000110#6 ++ 0b011#3 ++ 0x3f#11) (.stcD ⟨5, 6, 63⟩) ∧
    Reads (0b011000#6 ++ 0b110101#6 ++ 0b001001#6 ++ 0b100#3 ++ 0x3f#11) (.stcV ⟨53, 9, 63⟩) :=
  by unfold Reads; and_intros <;> rfl

/-- Opcode 0x19 (R163). -/
theorem test_decode_19 :
    Reads (0b011001#6 ++ 0b101110#6 ++ 0b001100#6 ++ 0b000000#6 ++ 0b01#2 ++ 0b000000#6) (.ldlFr ⟨46, 12, 0, 1⟩) ∧
    Reads (0b011001#6 ++ 0b101110#6 ++ 0b000001#6 ++ 0b000000#6 ++ 0b11#2 ++ 0b000001#6) (.ldlFe ⟨46, 1, 0, 3⟩) ∧
    Reads (0b011001#6 ++ 0b000000#6 ++ 0b001001#6 ++ 0b101110#6 ++ 0b11#2 ++ 0b000010#6) (.stlEf ⟨0, 9, 46, 3⟩) ∧
    Reads (0b011001#6 ++ 0b000000#6 ++ 0b001001#6 ++ 0b101110#6 ++ 0b10#2 ++ 0b000011#6) (.stlXf ⟨0, 9, 46, 2⟩) ∧
    Reads (0b011001#6 ++ 0b000000#6 ++ 0b001001#6 ++ 0b000000#6 ++ 0b00#2 ++ 0b000100#6) (.felClr ⟨0, 9, 0, 0⟩) ∧
    Reads (0b011001#6 ++ 0b101110#6 ++ 0b000001#6 ++ 0b000000#6 ++ 0b11#2 ++ 0b000101#6) (.felQ ⟨46, 1, 0, 3⟩) ∧
    Reads (0b011001#6 ++ 0b101110#6 ++ 0b001100#6 ++ 0b000010#6 ++ 0b01#2 ++ 0b000110#6) (.stlTf ⟨46, 12, 2, 1⟩) :=
  by unfold Reads; and_intros <;> rfl

/-- Opcode 0x1A (R165). -/
theorem test_decode_1A :
    Reads (0b011010#6 ++ 0b001100#6 ++ 0b001001#6 ++ 0b101110#6 ++ 0b10#2 ++ 0b000000#6) (.amsg ⟨12, 9, 46, 2⟩) ∧
    Reads (0b011010#6 ++ 0b000000#6 ++ 0b000010#6 ++ 0b101110#6 ++ 0b01#2 ++ 0b000001#6) (.amsgN ⟨0, 2, 46, 1⟩) ∧
    Reads (0b011010#6 ++ 0b000000#6 ++ 0b101110#6 ++ 0b000000#6 ++ 0b11#2 ++ 0b000010#6) (.amret ⟨0, 46, 0, 3⟩) :=
  by unfold Reads; and_intros <;> rfl

/-- Opcode 0x1B (R170). -/
theorem test_decode_1B :
    Reads (0b011011#6 ++ 0b00#2 ++ 0b001001#6 ++ 0b000001#6 ++ 0b001100#6 ++ 0b000101#6) (.xput ⟨9, 1, 12, 5⟩) ∧
    Reads (0b011011#6 ++ 0b01#2 ++ 0b000101#6 ++ 0b000001#6 ++ 0b000010#6 ++ 0b110010#6) (.xget ⟨5, 1, 2, 50⟩) ∧
    Reads (0b011011#6 ++ 0b10#2 ++ 0b001100#6 ++ 0b000001#6 ++ 0b000110#6 ++ 0b110010#6) (.xgath ⟨12, 1, 6, 50⟩) ∧
    Reads (0b011011#6 ++ 0b11#2 ++ 0b000001#6 ++ 0b001100#6 ++ 0b000101#6 ++ 0b000010#6) (.xscat ⟨1, 12, 5, 2⟩) :=
  by unfold Reads; and_intros <;> rfl

/-- Opcode 0x1C (R181). -/
theorem test_decode_1C :
    Reads (0b011100#6 ++ 0b000010#6 ++ 0b101110#6 ++ 0b000000#6 ++ 0b11#2 ++ 0b000000#6) (.tagWany ⟨2, 46, 0, 3⟩) ∧
    Reads (0b011100#6 ++ 0b101110#6 ++ 0b001001#6 ++ 0b000000#6 ++ 0b01#2 ++ 0b000001#6) (.tagWall ⟨46, 9, 0, 1⟩) ∧
    Reads (0b011100#6 ++ 0b101110#6 ++ 0b001100#6 ++ 0b000000#6 ++ 0b01#2 ++ 0b000010#6) (.tagFfr ⟨46, 12, 0, 1⟩) ∧
    Reads (0b011100#6 ++ 0b000000#6 ++ 0b001100#6 ++ 0b101110#6 ++ 0b11#2 ++ 0b001000#6) (.barInit ⟨0, 12, 46, 3⟩) ∧
    Reads (0b011100#6 ++ 0b000000#6 ++ 0b001001#6 ++ 0b101110#6 ++ 0b10#2 ++ 0b001001#6) (.barExp ⟨0, 9, 46, 2⟩) ∧
    Reads (0b011100#6 ++ 0b101110#6 ++ 0b000110#6 ++ 0b000000#6 ++ 0b11#2 ++ 0b001010#6) (.barArr ⟨46, 6, 0, 3⟩) ∧
    Reads (0b011100#6 ++ 0b000000#6 ++ 0b001001#6 ++ 0b101110#6 ++ 0b10#2 ++ 0b001011#6) (.barWait ⟨0, 9, 46, 2⟩) ∧
    Reads (0b011100#6 ++ 0b001100#6 ++ 0b101110#6 ++ 0b000101#6 ++ 0b10#2 ++ 0b001100#6) (.barQ ⟨12, 46, 5, 2⟩) ∧
    Reads (0b011100#6 ++ 0b000000#6 ++ 0b101110#6 ++ 0b000000#6 ++ 0b10#2 ++ 0b001101#6) (.barSync ⟨0, 46, 0, 2⟩) :=
  by unfold Reads; and_intros <;> rfl

/-- Opcode 0x1D (R210). -/
theorem test_decode_1D :
    Reads (0b011101#6 ++ 0b000110#6 ++ 0b000001#6 ++ 0b000#3 ++ 0x3f#11) (.ldgB ⟨6, 1, 63⟩) ∧
    Reads (0b011101#6 ++ 0b101110#6 ++ 0b000001#6 ++ 0b001#3 ++ 0x3f#11) (.ldgH ⟨46, 1, 63⟩) ∧
    Reads (0b011101#6 ++ 0b001001#6 ++ 0b000010#6 ++ 0b010#3 ++ 0x5a3#11) (.ldgW ⟨9, 2, 1443⟩) ∧
    Reads (0b011101#6 ++ 0b001100#6 ++ 0b001001#6 ++ 0b011#3 ++ 0x3f#11) (.ldgD ⟨12, 9, 63⟩) ∧
    Reads (0b011101#6 ++ 0b001001#6 ++ 0b001100#6 ++ 0b100#3 ++ 0x5a3#11) (.ldgBz ⟨9, 12, 1443⟩) ∧
    Reads (0b011101#6 ++ 0b001001#6 ++ 0b000101#6 ++ 0b101#3 ++ 0x3f#11) (.ldgHz ⟨9, 5, 63⟩) ∧
    Reads (0b011101#6 ++ 0b000101#6 ++ 0b000010#6 ++ 0b110#3 ++ 0x5a3#11) (.ldgWz ⟨5, 2, 1443⟩) ∧
    Reads (0b011101#6 ++ 0b110101#6 ++ 0b000001#6 ++ 0b111#3 ++ 0x3f#11) (.ldgV ⟨53, 1, 63⟩) :=
  by unfold Reads; and_intros <;> rfl

/-- Opcode 0x1E (R212). -/
theorem test_decode_1E :
    Reads (0b011110#6 ++ 0b000101#6 ++ 0b001100#6 ++ 0b000#3 ++ 0x5a3#11) (.stgB ⟨5, 12, 1443⟩) ∧
    Reads (0b011110#6 ++ 0b001100#6 ++ 0b000010#6 ++ 0b001#3 ++ 0x3f#11) (.stgH ⟨12, 2, 63⟩) ∧
    Reads (0b011110#6 ++ 0b000010#6 ++ 0b000101#6 ++ 0b010#3 ++ 0x3f#11) (.stgW ⟨2, 5, 63⟩) ∧
    Reads (0b011110#6 ++ 0b001001#6 ++ 0b001100#6 ++ 0b011#3 ++ 0x5a3#11) (.stgD ⟨9, 12, 1443⟩) ∧
    Reads (0b011110#6 ++ 0b110010#6 ++ 0b000001#6 ++ 0b100#3 ++ 0x5a3#11) (.stgV ⟨50, 1, 1443⟩) :=
  by unfold Reads; and_intros <;> rfl

/-- Opcode 0x1F (R217). -/
theorem test_decode_1F :
    Reads (0b011111#6 ++ 0b000001#6 ++ 0b000110#6 ++ 0b101110#6 ++ 0b11#2 ++ 0b000001#6) (.ldgAcq ⟨1, 6, 46, 3⟩) ∧
    Reads (0b011111#6 ++ 0b101110#6 ++ 0b000010#6 ++ 0b000101#6 ++ 0b01#2 ++ 0b000011#6) (.ldgSc ⟨46, 2, 5, 1⟩) ∧
    Reads (0b011111#6 ++ 0b000110#6 ++ 0b000101#6 ++ 0b101110#6 ++ 0b01#2 ++ 0b000110#6) (.stgRel ⟨6, 5, 46, 1⟩) ∧
    Reads (0b011111#6 ++ 0b000010#6 ++ 0b000110#6 ++ 0b101110#6 ++ 0b11#2 ++ 0b000111#6) (.stgSc ⟨2, 6, 46, 3⟩) ∧
    Reads (0b011111#6 ++ 0b000101#6 ++ 0b001001#6 ++ 0b101110#6 ++ 0b01#2 ++ 0b0010#4 ++ 0b10#2) (.amoSwap ⟨5, 9, 46, 1, 2⟩) ∧
    Reads (0b011111#6 ++ 0b000110#6 ++ 0b001001#6 ++ 0b101110#6 ++ 0b01#2 ++ 0b0011#4 ++ 0b11#2) (.amoCas ⟨6, 9, 46, 1, 3⟩) ∧
    Reads (0b011111#6 ++ 0b001100#6 ++ 0b000110#6 ++ 0b101110#6 ++ 0b10#2 ++ 0b0100#4 ++ 0b11#2) (.amoAdd ⟨12, 6, 46, 2, 3⟩) ∧
    Reads (0b011111#6 ++ 0b000101#6 ++ 0b001001#6 ++ 0b101110#6 ++ 0b11#2 ++ 0b0101#4 ++ 0b01#2) (.amoAnd ⟨5, 9, 46, 3, 1⟩) ∧
    Reads (0b011111#6 ++ 0b000001#6 ++ 0b001001#6 ++ 0b101110#6 ++ 0b10#2 ++ 0b0110#4 ++ 0b11#2) (.amoOr ⟨1, 9, 46, 2, 3⟩) ∧
    Reads (0b011111#6 ++ 0b001001#6 ++ 0b000010#6 ++ 0b101110#6 ++ 0b01#2 ++ 0b0111#4 ++ 0b11#2) (.amoXor ⟨9, 2, 46, 1, 3⟩) ∧
    Reads (0b011111#6 ++ 0b000110#6 ++ 0b000101#6 ++ 0b101110#6 ++ 0b10#2 ++ 0b1000#4 ++ 0b11#2) (.amoMin ⟨6, 5, 46, 2, 3⟩) ∧
    Reads (0b011111#6 ++ 0b000110#6 ++ 0b001001#6 ++ 0b101110#6 ++ 0b10#2 ++ 0b1001#4 ++ 0b11#2) (.amoMax ⟨6, 9, 46, 2, 3⟩) ∧
    Reads (0b011111#6 ++ 0b000110#6 ++ 0b001100#6 ++ 0b101110#6 ++ 0b11#2 ++ 0b1010#4 ++ 0b01#2) (.amoMinz ⟨6, 12, 46, 3, 1⟩) ∧
    Reads (0b011111#6 ++ 0b001001#6 ++ 0b000101#6 ++ 0b101110#6 ++ 0b10#2 ++ 0b1011#4 ++ 0b01#2) (.amoMaxz ⟨9, 5, 46, 2, 1⟩) :=
  by unfold Reads; and_intros <;> rfl

/-- Opcode 0x20 (R218). -/
theorem test_decode_20 :
    Reads (0b100000#6 ++ 0b000000#6 ++ 0b101110#6 ++ 0b000000#6 ++ 0b11#2 ++ 0b000000#6) (.fenceAcq ⟨0, 46, 0, 3⟩) ∧
    Reads (0b100000#6 ++ 0b000000#6 ++ 0b101110#6 ++ 0b000000#6 ++ 0b10#2 ++ 0b000001#6) (.fenceRel ⟨0, 46, 0, 2⟩) ∧
    Reads (0b100000#6 ++ 0b000000#6 ++ 0b101110#6 ++ 0b000000#6 ++ 0b11#2 ++ 0b000010#6) (.fenceAr ⟨0, 46, 0, 3⟩) ∧
    Reads (0b100000#6 ++ 0b000000#6 ++ 0b101110#6 ++ 0b000000#6 ++ 0b10#2 ++ 0b000011#6) (.fenceSc ⟨0, 46, 0, 2⟩) ∧
    Reads (0b100000#6 ++ 0b000000#6 ++ 0b101110#6 ++ 0b000000#6 ++ 0b11#2 ++ 0b000100#6) (.fenceRcpt ⟨0, 46, 0, 3⟩) ∧
    Reads (0b100000#6 ++ 0b101110#6 ++ 0b000000#6 ++ 0b000000#6 ++ 0b11#2 ++ 0b000101#6) (.rcptQ ⟨46, 0, 0, 3⟩) ∧
    Reads (0b100000#6 ++ 0b000000#6 ++ 0b000101#6 ++ 0b101110#6 ++ 0b11#2 ++ 0b110000#6) (.fenceTlb ⟨0, 5, 46, 3⟩) :=
  by unfold Reads; and_intros <;> rfl

/-- Opcode 0x21 (R258). -/
theorem test_decode_21 :
    Reads (0b100001#6 ++ 0b000101#6 ++ 0b001001#6 ++ 0b000000#6 ++ 0b00000#5 ++ 0b10#2 ++ 0b1#1) (.spawn ⟨5, 9, 0, 2, true⟩) ∧
    Reads (0b100001#6 ++ 0b000110#6 ++ 0b001100#6 ++ 0b000000#6 ++ 0b00001#5 ++ 0b00#2 ++ 0b0#1) (.touch ⟨6, 12, 0, 0, false⟩) ∧
    Reads (0b100001#6 ++ 0b001001#6 ++ 0b101110#6 ++ 0b000000#6 ++ 0b00010#5 ++ 0b10#2 ++ 0b0#1) (.touchP ⟨9, 46, 0, 2, false⟩) ∧
    Reads (0b100001#6 ++ 0b000000#6 ++ 0b000001#6 ++ 0b001001#6 ++ 0b00011#5 ++ 0b00#2 ++ 0b0#1) (.fres ⟨0, 1, 9, 0, false⟩) ∧
    Reads (0b100001#6 ++ 0b000000#6 ++ 0b101110#6 ++ 0b001100#6 ++ 0b00100#5 ++ 0b10#2 ++ 0b0#1) (.fresFirst ⟨0, 46, 12, 2, false⟩) ∧
    Reads (0b100001#6 ++ 0b000000#6 ++ 0b101110#6 ++ 0b000010#6 ++ 0b00101#5 ++ 0b01#2 ++ 0b0#1) (.fpois ⟨0, 46, 2, 1, false⟩) ∧
    Reads (0b100001#6 ++ 0b000000#6 ++ 0b000010#6 ++ 0b000000#6 ++ 0b00110#5 ++ 0b11#2 ++ 0b0#1) (.fcan ⟨0, 2, 0, 3, false⟩) ∧
    Reads (0b100001#6 ++ 0b000000#6 ++ 0b000000#6 ++ 0b000000#6 ++ 0b00111#5 ++ 0b10#2 ++ 0b0#1) (.fcanq ⟨0, 0, 0, 2, false⟩) ∧
    Reads (0b100001#6 ++ 0b001100#6 ++ 0b000010#6 ++ 0b000000#6 ++ 0b01000#5 ++ 0b00#2 ++ 0b0#1) (.fq ⟨12, 2, 0, 0, false⟩) ∧
    Reads (0b100001#6 ++ 0b000000#6 ++ 0b000001#6 ++ 0b000000#6 ++ 0b01001#5 ++ 0b00#2 ++ 0b0#1) (.frel ⟨0, 1, 0, 0, false⟩) ∧
    Reads (0b100001#6 ++ 0b001001#6 ++ 0b000000#6 ++ 0b000000#6 ++ 0b01010#5 ++ 0b11#2 ++ 0b0#1) (.fnew ⟨9, 0, 0, 3, false⟩) ∧
    Reads (0b100001#6 ++ 0b000101#6 ++ 0b000000#6 ++ 0b000010#6 ++ 0b01011#5 ++ 0b00#2 ++ 0b0#1) (.ftaskQ ⟨5, 0, 2, 0, false⟩) :=
  by unfold Reads; and_intros <;> rfl

/-- Opcode 0x22 (R287). -/
theorem test_decode_22 :
    Reads (0b100010#6 ++ 0b101110#6 ++ 0b001001#6 ++ 0b000101#6 ++ 0b00000#5 ++ 0b11#2 ++ 0b1#1) (.qpush ⟨46, 9, 5, 3, true⟩) ∧
    Reads (0b100010#6 ++ 0b101110#6 ++ 0b000010#6 ++ 0b001100#6 ++ 0b00001#5 ++ 0b11#2 ++ 0b1#1) (.qpop ⟨46, 2, 12, 3, true⟩) ∧
    Reads (0b100010#6 ++ 0b000000#6 ++ 0b000010#6 ++ 0b000001#6 ++ 0b00010#5 ++ 0b00#2 ++ 0b0#1) (.qtail ⟨0, 2, 1, 0, false⟩) ∧
    Reads (0b100010#6 ++ 0b000000#6 ++ 0b000010#6 ++ 0b001001#6 ++ 0b00011#5 ++ 0b11#2 ++ 0b1#1) (.chsend ⟨0, 2, 9, 3, true⟩) ∧
    Reads (0b100010#6 ++ 0b001001#6 ++ 0b001100#6 ++ 0b000010#6 ++ 0b00100#5 ++ 0b11#2 ++ 0b1#1) (.chrecv ⟨9, 12, 2, 3, true⟩) ∧
    Reads (0b100010#6 ++ 0b000000#6 ++ 0b001001#6 ++ 0b000000#6 ++ 0b00101#5 ++ 0b00#2 ++ 0b0#1) (.chclose ⟨0, 9, 0, 0, false⟩) ∧
    Reads (0b100010#6 ++ 0b000101#6 ++ 0b000001#6 ++ 0b000000#6 ++ 0b00110#5 ++ 0b00#2 ++ 0b0#1) (.chq ⟨5, 1, 0, 0, false⟩) :=
  by unfold Reads; and_intros <;> rfl

/-- Opcode 0x23 (R330). -/
theorem test_decode_23 :
    Reads (0b100011#6 ++ 0b0000#4 ++ 0b101#3 ++ 0b101#3 ++ 0b1#1 ++ 0b101110#6 ++ 0b001001#6 ++ 0b011#3) (.mma ⟨5, 5, 1, 46, 9, 3⟩) ∧
    Reads (0b100011#6 ++ 0b0001#4 ++ 0b101#3 ++ 0b011#3 ++ 0b1#1 ++ 0b101110#6 ++ 0b001001#6 ++ 0b011#3) (.mmac ⟨5, 3, 1, 46, 9, 3⟩) ∧
    Reads (0b100011#6 ++ 0b0010#4 ++ 0b011#3 ++ 0b000#3 ++ 0b1#1 ++ 0b110010#6 ++ 0b000101#6 ++ 0b000#3) (.mdrain ⟨3, 0, 1, 50, 5, 0⟩) :=
  by unfold Reads; and_intros <;> rfl

/-- Opcode 0x24 (R328). -/
theorem test_decode_24 :
    Reads (0b100100#6 ++ 0b0000#4 ++ 0b101#3 ++ 0b000#3 ++ 0b0#1 ++ 0b000000#6 ++ 0b000010#6 ++ 0b000#3) (.tld ⟨5, 0, 0, 0, 2, 0⟩) ∧
    Reads (0b100100#6 ++ 0b0001#4 ++ 0b011#3 ++ 0b000#3 ++ 0b0#1 ++ 0b000000#6 ++ 0b000101#6 ++ 0b000#3) (.tst ⟨3, 0, 0, 0, 5, 0⟩) ∧
    Reads (0b100100#6 ++ 0b0010#4 ++ 0b011#3 ++ 0b000#3 ++ 0b0#1 ++ 0b000000#6 ++ 0b000000#6 ++ 0b000#3) (.tzero ⟨3, 0, 0, 0, 0, 0⟩) ∧
    Reads (0b100100#6 ++ 0b0011#4 ++ 0b000#3 ++ 0b000#3 ++ 0b1#1 ++ 0b000000#6 ++ 0b000000#6 ++ 0b000#3) (.azero ⟨0, 0, 1, 0, 0, 0⟩) ∧
    Reads (0b100100#6 ++ 0b0100#4 ++ 0b000#3 ++ 0b000#3 ++ 0b0#1 ++ 0b000000#6 ++ 0b000010#6 ++ 0b011#3) (.ebind ⟨0, 0, 0, 0, 2, 3⟩) ∧
    Reads (0b100100#6 ++ 0b0101#4 ++ 0b000#3 ++ 0b000#3 ++ 0b0#1 ++ 0b000000#6 ++ 0b000000#6 ++ 0b000#3) (.efree ⟨0, 0, 0, 0, 0, 0⟩) ∧
    Reads (0b100100#6 ++ 0b0110#4 ++ 0b000#3 ++ 0b000#3 ++ 0b0#1 ++ 0b000000#6 ++ 0b000001#6 ++ 0b000#3) (.tlwait ⟨0, 0, 0, 0, 1, 0⟩) ∧
    Reads (0b100100#6 ++ 0b0111#4 ++ 0b000#3 ++ 0b000#3 ++ 0b0#1 ++ 0b000000#6 ++ 0b001001#6 ++ 0b011#3) (.tlread ⟨0, 0, 0, 0, 9, 3⟩) :=
  by unfold Reads; and_intros <;> rfl

/-- Opcode 0x25 (R348). -/
theorem test_decode_25 :
    Reads (0b100101#6 ++ 0b101110#6 ++ 0b000101#6 ++ 0b001001#6 ++ 0b01#2 ++ 0b000000#6) (.dpmLoad ⟨46, 5, 9, 1⟩) ∧
    Reads (0b100101#6 ++ 0b101110#6 ++ 0b000001#6 ++ 0b000000#6 ++ 0b10#2 ++ 0b000001#6) (.dpmFree ⟨46, 1, 0, 2⟩) :=
  by unfold Reads; and_intros <;> rfl

/-- Opcode 0x26 (R379). -/
theorem test_decode_26 :
    Reads (0b100110#6 ++ 0b001001#6 ++ 0b000010#6 ++ 0b000000#6 ++ 0b00#2 ++ 0b000000#6) (.mrowZero ⟨9, 2, 0, 0⟩) ∧
    Reads (0b100110#6 ++ 0b000110#6 ++ 0b001001#6 ++ 0b000001#6 ++ 0b00#2 ++ 0b000001#6) (.mrowCopy ⟨6, 9, 1, 0⟩) ∧
    Reads (0b100110#6 ++ 0b000000#6 ++ 0b101110#6 ++ 0b000000#6 ++ 0b01#2 ++ 0b000010#6) (.mrowWait ⟨0, 46, 0, 1⟩) ∧
    Reads (0b100110#6 ++ 0b101110#6 ++ 0b000000#6 ++ 0b000000#6 ++ 0b11#2 ++ 0b000011#6) (.mrowTl ⟨46, 0, 0, 3⟩) ∧
    Reads (0b100110#6 ++ 0b101110#6 ++ 0b000000#6 ++ 0b000000#6 ++ 0b10#2 ++ 0b000100#6) (.mrowIss ⟨46, 0, 0, 2⟩) :=
  by unfold Reads; and_intros <;> rfl

/-- Opcode 0x27 (R399). -/
theorem test_decode_27 :
    Reads (0b100111#6 ++ 0b101110#6 ++ 0b001100#6 ++ 0b000000#6 ++ 0b11#2 ++ 0b000000#6) (.aqPost ⟨46, 12, 0, 3⟩) ∧
    Reads (0b100111#6 ++ 0b101110#6 ++ 0b000010#6 ++ 0b000101#6 ++ 0b01#2 ++ 0b000001#6) (.aqMerge ⟨46, 2, 5, 1⟩) ∧
    Reads (0b100111#6 ++ 0b101110#6 ++ 0b001001#6 ++ 0b001100#6 ++ 0b11#2 ++ 0b000010#6) (.aqNorm ⟨46, 9, 12, 3⟩) ∧
    Reads (0b100111#6 ++ 0b101110#6 ++ 0b000010#6 ++ 0b001100#6 ++ 0b01#2 ++ 0b000011#6) (.aqNormB ⟨46, 2, 12, 1⟩) ∧
    Reads (0b100111#6 ++ 0b000000#6 ++ 0b101110#6 ++ 0b000000#6 ++ 0b10#2 ++ 0b000100#6) (.aqWait ⟨0, 46, 0, 2⟩) ∧
    Reads (0b100111#6 ++ 0b101110#6 ++ 0b000000#6 ++ 0b000000#6 ++ 0b11#2 ++ 0b000101#6) (.aqTl ⟨46, 0, 0, 3⟩) ∧
    Reads (0b100111#6 ++ 0b101110#6 ++ 0b000000#6 ++ 0b000000#6 ++ 0b10#2 ++ 0b000110#6) (.aqIss ⟨46, 0, 0, 2⟩) :=
  by unfold Reads; and_intros <;> rfl

/-- Opcode 0x28 (R437). -/
theorem test_decode_28 :
    Reads (0b101000#6 ++ 0b000101#6 ++ 0b000001#6 ++ 0b101110#6 ++ 0b10#2 ++ 0b000000#6) (.encPost ⟨5, 1, 46, 2⟩) ∧
    Reads (0b101000#6 ++ 0b000000#6 ++ 0b000101#6 ++ 0b101110#6 ++ 0b10#2 ++ 0b000001#6) (.encWait ⟨0, 5, 46, 2⟩) ∧
    Reads (0b101000#6 ++ 0b101110#6 ++ 0b000010#6 ++ 0b000000#6 ++ 0b01#2 ++ 0b000010#6) (.encTl ⟨46, 2, 0, 1⟩) ∧
    Reads (0b101000#6 ++ 0b000000#6 ++ 0b000010#6 ++ 0b000000#6 ++ 0b00#2 ++ 0b000011#6) (.fabPut ⟨0, 2, 0, 0⟩) :=
  by unfold Reads; and_intros <;> rfl

/-- Opcode 0x29 (R445). -/
theorem test_decode_29 :
    Reads (0b101001#6 ++ 0b001100#6 ++ 0b000010#6 ++ 0b000000#6 ++ 0b00#2 ++ 0b000000#6) (.ownGrant ⟨12, 2, 0, 0⟩) ∧
    Reads (0b101001#6 ++ 0b000110#6 ++ 0b001100#6 ++ 0b000000#6 ++ 0b00#2 ++ 0b000001#6) (.ownRevoke ⟨6, 12, 0, 0⟩) ∧
    Reads (0b101001#6 ++ 0b001100#6 ++ 0b000110#6 ++ 0b101110#6 ++ 0b01#2 ++ 0b000010#6) (.pinv ⟨12, 6, 46, 1⟩) ∧
    Reads (0b101001#6 ++ 0b001100#6 ++ 0b000010#6 ++ 0b000000#6 ++ 0b00#2 ++ 0b000011#6) (.pzero ⟨12, 2, 0, 0⟩) :=
  by unfold Reads; and_intros <;> rfl

/-- Opcode 0x2A (R53). -/
theorem test_decode_2A :
    Reads (0b101010#6 ++ 0b0111#4 ++ 0b0011#4 ++ 0b1001#4 ++ 0b10#2 ++ 0b1#1 ++ 0x0#11) (.fmt ⟨7, 3, 9, 2, 1, 0⟩) :=
  ⟨rfl, by decide⟩
/-- One term for each check of a field (R17, R45-R47, R98): it breaks that check alone. -/
theorem test_wf_refuses :
    (([.add ⟨40, 1, 46, 3⟩, .add ⟨2, 48, 46, 3⟩, .add ⟨2, 1, 1, 1⟩, .and_ ⟨46, 5, 48, 2⟩,
      .clz ⟨46, 9, 40, 3⟩, .rclr ⟨40, 46, 0, 3⟩, .slli ⟨5, 1, 2047⟩, .shlim ⟨40, 678975⟩,
      .addpc ⟨40, 678975⟩, .csrr ⟨1, 40, 2467⟩, .vadd ⟨40, 53, 12, 3⟩, .vadd ⟨50, 40, 12, 3⟩,
      .vclt ⟨40, 53, 12, 3⟩, .vext ⟨5, 50, 46, 1⟩, .vperm ⟨50, 53, 40, 5⟩, .bp ⟨1, 1, 0, 10843⟩,
      .jal ⟨40, 678975⟩, .jr ⟨5, 40, 10843⟩, .pnez ⟨40, 46, 0, 3⟩, .pand ⟨2, 40, 2, 0⟩,
      .pand ⟨2, 1, 40, 0⟩, .ldlB ⟨5, 40, 1443⟩, .xput ⟨9, 40, 12, 5⟩, .xput ⟨9, 1, 40, 5⟩,
      .barInit ⟨0, 48, 46, 3⟩, .stgRel ⟨48, 5, 46, 1⟩, .amoSwap ⟨40, 9, 46, 1, 2⟩, .amoCas ⟨40, 9, 46, 1, 3⟩,
      .touch ⟨6, 12, 0, 1, false⟩, .touch ⟨6, 12, 0, 0, true⟩, .ftaskQ ⟨5, 0, 40, 0, false⟩, .qpush ⟨46, 9, 40, 3, true⟩,
      .mma ⟨5, 5, 1, 46, 9, 7⟩, .mma ⟨5, 5, 1, 46, 40, 3⟩, .mdrain ⟨3, 1, 1, 50, 5, 0⟩, .mdrain ⟨3, 0, 1, 50, 5, 7⟩,
      .tld ⟨5, 0, 1, 0, 2, 0⟩, .tld ⟨5, 0, 0, 40, 2, 0⟩, .tld ⟨5, 0, 0, 0, 2, 1⟩, .azero ⟨1, 0, 1, 0, 0, 0⟩,
      .fmt ⟨15, 3, 9, 2, 1, 0⟩, .fmt ⟨7, 15, 9, 2, 1, 0⟩, .fmt ⟨7, 3, 15, 2, 1, 0⟩, .fmt ⟨7, 3, 9, 2, 1, 40⟩,
      .mvt ⟨2, 0, 0, 0⟩, .rclr ⟨0, 40, 0, 0⟩, .amoSwap ⟨1, 1, 1, 0, 0⟩, .amoSwap ⟨1, 1, 48, 0, 1⟩,
      .vclt ⟨0, 53, 12, 3⟩, .jr ⟨5, 0, 0⟩, .amoCas ⟨3, 9, 1, 0, 1⟩, .barInit ⟨0, 0, 1, 0⟩, .mma ⟨5, 5, 1, 46, 0, 0⟩] : List Instr).all fun i => !i.wf) = true := by decide
/-! ## The digest and the signature (log 134) -/

/-- An image of version 9 with a body of four bytes, made for these tests with the private key 0x1234567. -/
def signedImage : List Host.Cell :=
  [(0, 16, 0x0000000000000004000000094e474657),
   (64, 64, 0x4b38af6ae42d71cf1c286802f0e19683095c601f49d02d0f0dc0f92c6f473f64f3ef468ae8b442fc4f47bd8d52dc0dff96d52bb6e8aa575a59dde572e82dcb63),
   (128, 64, 0x6753f724c28d730ac6e301794db36630b52843a24849deeb18d9fcd97fdab4d84811f1658753d05d72b08fb0bda9b1df94cf560363477640d5ce43b3a751873a),
   (192, 32, 0xb3c4ec2bf8ab0dac31dac6ff0ea400e9ba9fd42c3c35fd8ff15d084b95cb8315),
   (256, 4, 0x04030201)].foldl (fun m w => Memory.write m w.1 w.2.1 w.2.2) []
/-- The digest of its key, as KEYDIG holds it. -/
def signedKey : Vector Word 4 := #v[0x4f4d0b356f69d8a8#64, 0x1c5daeece8d4b227#64, 0x392c2d6db7a58bb8#64, 0xae2c75304f65fc6b#64]

theorem test_sm3_abc : sm3 [0x61#8, 0x62#8, 0x63#8] = 0x66C7F0F462EEEDD9D1F2D46BDC10E4E24167C4875CF2F7A2297DA02B8F4BA8E0 := by
  rw [sm3_eq]; decide +kernel
/-- The digest of the signer's identity. -/
theorem test_sm3_signer : sm3 ([0x00, 0x80] ++ sm2Id
    ++ [sm2A, sm2B, sm2G.1, sm2G.2, 0x63cb2de872e5dd595a57aae8b62bd596ff0ddc528dbd474ffc42b4e88a46eff3, 0x643f476f2cf9c00d0f2dd0491f605c098396e1f00268281ccf712de46aaf384b].flatMap (bigBytes 32))
    = 0xf9debddfc30e0bf60f4403e068230e1cbb22906618ff5e9b65eb5b80f2edd39f := by
  rw [sm3_eq]; decide +kernel
theorem test_sm2_digest : sm2Digest 0x63cb2de872e5dd595a57aae8b62bd596ff0ddc528dbd474ffc42b4e88a46eff3 0x643f476f2cf9c00d0f2dd0491f605c098396e1f00268281ccf712de46aaf384b
    (bytesOf 128 (Memory.read signedImage 0 128) ++ bytesOf 64 (Memory.read signedImage 192 64)) = 0xf83f93604ae40b97b3a25afb05e9e5c3493a8920778cc4aea8c6dd43340c4810 := by
  rw [sm2Digest, test_sm3_signer, show bytesOf 128 (Memory.read signedImage 0 128) ++ bytesOf 64 (Memory.read signedImage 192 64)
        = bytesOf 192 0xb3c4ec2bf8ab0dac31dac6ff0ea400e9ba9fd42c3c35fd8ff15d084b95cb83154b38af6ae42d71cf1c286802f0e19683095c601f49d02d0f0dc0f92c6f473f64f3ef468ae8b442fc4f47bd8d52dc0dff96d52bb6e8aa575a59dde572e82dcb630000000000000000000000000000000000000000000000000000000000000000000000000000000000000000000000000000000000000004000000094e474657 by decide +kernel, sm3_eq]
  decide +kernel
theorem test_sm2_verify : sm2Verify 0x63cb2de872e5dd595a57aae8b62bd596ff0ddc528dbd474ffc42b4e88a46eff3 0x643f476f2cf9c00d0f2dd0491f605c098396e1f00268281ccf712de46aaf384b
    (bytesOf 128 (Memory.read signedImage 0 128) ++ bytesOf 64 (Memory.read signedImage 192 64))
    0x3a8751a7b343ced5407647630356cf94dfb1a9bdb08fb0725dd0538765f11148 0xd8b4da7fd9fcd918ebde4948a24328b53066b34d7901e3c60a738dc224f75367 = true := by
  rw [sm2Verify_eq test_sm2_digest]; decide +kernel
/-- A state that holds the image and the digest of its key has a signed image. -/
theorem imageSigned {s : State} (h : s.staged = signedImage) (k : s.keydig = signedKey) : s.stagedSigned = true := by
  have k1 : bigBytes 32 (sm3 (bytesOf 64 (Memory.read signedImage 64 64))) = signedKey.toList.flatMap fun w => bytesOf 8 w.toNat := by
    rw [sm3_eq]; decide +kernel
  have k2 : bigBytes 32 (sm3 (bytesOf (Memory.read signedImage 8 4) (Memory.read signedImage 256 (Memory.read signedImage 8 4))))
      = bytesOf 32 (Memory.read signedImage 192 32) := by
    rw [sm3_eq]; decide +kernel
  have n1 : ofBig (bytesOf 32 (Memory.read signedImage 64 32)) = 0x63cb2de872e5dd595a57aae8b62bd596ff0ddc528dbd474ffc42b4e88a46eff3 := by decide +kernel
  have n2 : ofBig (bytesOf 32 (Memory.read signedImage 96 32)) = 0x643f476f2cf9c00d0f2dd0491f605c098396e1f00268281ccf712de46aaf384b := by decide +kernel
  have n3 : ofBig (bytesOf 32 (Memory.read signedImage 128 32)) = 0x3a8751a7b343ced5407647630356cf94dfb1a9bdb08fb0725dd0538765f11148 := by decide +kernel
  have n4 : ofBig (bytesOf 32 (Memory.read signedImage 160 32)) = 0xd8b4da7fd9fcd918ebde4948a24328b53066b34d7901e3c60a738dc224f75367 := by decide +kernel
  simp only [State.stagedSigned, State.keyDigest, State.stagedBytes, State.stagedField, h, k, k1, k2, n1, n2, n3, n4, test_sm2_verify,
    beq_self_eq_true, Bool.and_self]
/-- A signature whose first number is 0 is none. -/
theorem imageUnsigned {s : State} (h : ofBig (s.stagedBytes 128 32) = 0) : s.stagedSigned = false := by
  simp [State.stagedSigned, sm2Verify, h]
theorem imageHeader {s : State} (h : s.staged = signedImage) (l : s.stagedLen = 260) : GoodHeader s :=
  ⟨by rw [l]; decide, by rw [h]; decide +kernel, by rw [h]; decide +kernel, by rw [h, l]; decide +kernel⟩


/-! ## Words that name no instruction (R48, R49) -/

theorem test_decode_refuses_opcode : decode 0x00000000#32 = .error .reservedOpcode := rfl
theorem test_decode_refuses_unassigned : decode 0xAC000000#32 = .error .unassignedOpcode := rfl
theorem test_decode_refuses_function : decode 0x0400003F#32 = .error .undefinedFunction := rfl

/-! ## Witnesses of the statements about a step, reset and rounding -/

namespace Plain

/-- `add r5, r1, r2`, where the next step fetches it, with and without a schedule. -/
def addW : W32 := 0b000001#6 ++ 5#6 ++ 1#6 ++ 2#6 ++ 0#2 ++ 0b000000#6
def sIdle : State := { State.reset.withFetchWord 32 addW.toNat with agenda := [], booted := true }
def sDue : State := { sIdle with agenda := [.issue 1] }
def tIdle : Thread := (sIdle.thread? 1).getD T0
def sZero : State := { State.reset.withFetchWord 32 0 with agenda := [], booted := true }
def tZero : Thread := (sZero.thread? 1).getD T0
def sFar : State := { sIdle with threads := [{ tIdle with pc := 0x10000000000000#64 }] }
def tFar : Thread := { tIdle with pc := 0x10000000000000#64 }
def sCold : State := { sIdle with icache := [] }
def sBad : State := { sIdle with poison := [65536] }

theorem test_wit_StepRunsDecoded_word :
    SlotTaken sDue sIdle tIdle ∧ SlotTaken sIdle sIdle tIdle ∧ (sIdle.atSlot tIdle).overrun tIdle.resume = false ∧
      tIdle.resume.due = none ∧ (sIdle.atSlot tIdle).fetch tIdle.resume = .word addW ∧ decode addW = .ok (.add ⟨5, 1, 2, 0⟩) :=
  ⟨.inl ⟨[], rfl, rfl, rfl, by decide +kernel, by decide +kernel⟩,
   .inr ⟨rfl, rfl, rfl, by decide +kernel, by decide +kernel⟩, by decide +kernel, by decide +kernel, by decide +kernel, rfl⟩
theorem test_wit_StepRunsDecoded_illegal :
    SlotTaken { sZero with agenda := [.issue 1] } sZero tZero ∧ (sZero.atSlot tZero).overrun tZero.resume = false ∧
      tZero.resume.due = none ∧ (sZero.atSlot tZero).fetch tZero.resume = .word 0#32 ∧ decode 0#32 = .error .reservedOpcode :=
  ⟨.inl ⟨[], rfl, rfl, rfl, by decide +kernel, by decide +kernel⟩, by decide +kernel, by decide +kernel, by decide +kernel, rfl⟩
theorem test_wit_StepRunsDecoded_access :
    SlotTaken { sFar with agenda := [.issue 1] } sFar tFar ∧ (sFar.atSlot tFar).overrun tFar.resume = false ∧
      tFar.resume.due = none ∧ (sFar.atSlot tFar).fetch tFar.resume = .access :=
  ⟨.inl ⟨[], rfl, rfl, rfl, by decide +kernel, by decide +kernel⟩, by decide +kernel, by decide +kernel, by decide +kernel⟩
theorem test_wit_StepRunsDecoded_ue :
    SlotTaken { sBad with agenda := [.issue 1] } sBad tIdle ∧ (sBad.atSlot tIdle).overrun tIdle.resume = false ∧
      tIdle.resume.due = none ∧ (sBad.atSlot tIdle).fetch tIdle.resume = .ue :=
  ⟨.inl ⟨[], rfl, rfl, rfl, by decide +kernel, by decide +kernel⟩, by decide +kernel, by decide +kernel, by decide +kernel⟩
theorem test_wit_StepRunsDecoded_miss :
    SlotTaken { sCold with agenda := [.issue 1] } sCold tIdle ∧ (sCold.atSlot tIdle).overrun tIdle.resume = false ∧
      tIdle.resume.due = none ∧ Uncancelled tIdle ∧ (sCold.atSlot tIdle).fetch tIdle.resume = .miss (.fetch 65536#64) :=
  ⟨.inl ⟨[], rfl, rfl, rfl, by decide +kernel, by decide +kernel⟩, by decide +kernel, by decide +kernel, by unfold Uncancelled; decide +kernel,
   by decide +kernel⟩
theorem test_wit_StepRunsDecoded_bytes :
    sIdle.access tIdle .fetch tIdle.pc.toNat 4 = .ok 65536 0x1001F#64 ∧ sIdle.present 65536 = true ∧
      sIdle.translated tIdle .fetch tIdle.pc.toNat = true ∧ sIdle.cached tIdle.unit 65536 = true ∧ sIdle.poisonAt 65536 4 = none ∧
      (tIdle.unit, 65536 / 4 * 4) ∉ sIdle.icacheUE :=
  ⟨by decide +kernel, by decide +kernel, by decide +kernel, by decide +kernel, by decide +kernel, by decide +kernel⟩
def nextOf (r : Host.Outcome State Fault Refusal) (f : State → Bool) : Bool :=
  match r with
  | .next s => f s
  | _ => false
theorem nextOf_some {r : Host.Outcome State Fault Refusal} {f : State → Bool} (h : nextOf r f = true) : ∃ s', r = .next s' ∧ f s' = true := by
  cases r with
  | next s => exact ⟨s, rfl, h⟩
  | fault _ => cases h
  | refused _ => cases h
theorem test_wit_StepKeepsMemory : memoryOk sIdle ∧ ∃ s', step sIdle = .next s' ∧ ((s'.thread? 1).any fun t => t.pc == 0x10004#64) = true :=
  ⟨⟨by decide +kernel, by decide +kernel⟩, nextOf_some (by decide +kernel)⟩
theorem test_wit_ScalarFrame :
    r99 (.add ⟨5, 1, 2, 0⟩) = some (0, [1, 2], 5, fun v => dn ((v 1).toNat + (v 2).toNat)) ∧
      Clear (.add ⟨5, 1, 2, 0⟩) (st (regs [(1, 7)])) (regs [(1, 7)]) ∧ Readable (regs [(1, 7)]) (st (regs [(1, 7)])) 0 [1, 2] [5] :=
  ⟨rfl, clearOf rfl (by decide +kernel), readableOf (by decide +kernel)⟩
theorem test_wit_RoundKeepsF8 :
    (∃ ff, floatFmt 5 = some ff ∧ (∃ sign m e, decodeFloat ff 0x81 = .fin sign m e) ∧ decodeFloat ff 0x80 = .nan) ∧
      ∃ ff, floatFmt 6 = some ff ∧ (∃ sign m e, decodeFloat ff 0x7B = .fin sign m e) ∧ decodeFloat ff 0xFC = .inf true ∧
        decodeFloat ff 0x7F = .nan :=
  ⟨⟨_, rfl, ⟨_, _, _, rfl⟩, rfl⟩, ⟨_, rfl, ⟨_, _, _, rfl⟩, rfl, rfl⟩⟩
theorem test_wit_RoundTrip : (Instr.fmt ⟨1, 2, 3, 1, 1, 0⟩).isWord = true ∧ decode 0x0400003E#32 ≠ .ok (.fmt ⟨1, 2, 3, 1, 1, 0⟩) :=
  ⟨rfl, by rw [show decode 0x0400003E#32 = .error .undefinedFunction from rfl]; nofun⟩

theorem test_wit_UnassignedOpcodes :
    ((0xAC000000#32).toNat / 2 ^ 26 = 0 ∨ 0x2B ≤ (0xAC000000#32).toNat / 2 ^ 26) ∧ (0#32).toNat / 2 ^ 26 = 0 ∧ S0.current = some T0 :=
  ⟨by decide, by decide, by decide +kernel⟩
theorem test_wit_CauseCodes : Cause.ue.code = Cause.ue.code ∧ 1 ≤ 20 ∧ 20 ≤ 20 := ⟨rfl, by decide, by decide⟩
theorem test_wit_ResetState : 11 < 12 ∧ 2047 < 2048 := by decide

end Plain


/-! ## Worked examples of the manual

The expected values are the manual's own (the "For instance" of each rule named). -/

/-- R99, R101, R104, R107, R120, R119, R121, R128. -/
theorem test_example_encodings_1 :
    decode 0x04310500#32 = .ok (.add ⟨3, 4, 5, 0⟩) ∧ decode 0x06F08080#32 = .ok (.add ⟨47, 2, 0, 2⟩) ∧
    decode 0x084003F8#32 = .ok (.addi ⟨4, 0, 1016⟩) ∧ decode 0x10400000#32 = .ok (.shlim ⟨4, 0⟩) ∧
    decode 0x1C700025#32 = .ok (.csrr ⟨7, 0, 0x025⟩) ∧ decode 0x272D7663#32 = .ok (.vfma ⟨50, 53, 54, 3⟩) ∧
    decode 0x34303FFD#32 = .ok (.bne ⟨3, 0, 0x3FFD⟩) ∧ decode 0x44600005#32 = .ok (.bnp ⟨0, 2, 0, 5⟩) ∧
    decode 0x49F00010#32 = .ok (.jal ⟨31, 16⟩) ∧ decode 0x50000014#32 = .ok (.eret ⟨0, 0, 0, 0⟩) ∧
    decode 0x50014011#32 = .ok (.exit_ ⟨0, 5, 0, 0⟩) :=
  ⟨rfl, rfl, rfl, rfl, rfl, rfl, rfl, rfl, rfl, rfl, rfl⟩
/-- R170, R209, R215, R216, R218, R220, R353. -/
theorem test_example_encodings_2 :
    decode 0x6D105183#32 = .ok (.xget ⟨4, 5, 6, 3⟩) ∧ decode 0x74511802#32 = .ok (.ldgD ⟨5, 4, 2⟩) ∧
    decode 0x78205800#32 = .ok (.stgD ⟨2, 1, 0⟩) ∧ decode 0x7C510606#32 = .ok (.stgRel ⟨5, 4, 6, 0⟩) ∧
    decode 0x7C204008#32 = .ok (.amoSwap ⟨2, 1, 0, 0, 0⟩) ∧ decode 0x80018001#32 = .ok (.fenceRel ⟨0, 6, 0, 0⟩) ∧
    decode 0x800A0004#32 = .ok (.fenceRcpt ⟨0, 40, 0, 0⟩) ∧ decode 0x94518700#32 = .ok (.dpmLoad ⟨5, 6, 7, 0⟩) ∧
    decode 0x94518001#32 = .ok (.dpmFree ⟨5, 6, 0, 0⟩) :=
  ⟨rfl, rfl, rfl, rfl, rfl, rfl, rfl, rfl, rfl⟩
/-- R101, R102: `addi g4, g0, 1016` and then `shlim g4, 0` leave 0x3F80_0000. -/
theorem test_example_constant :
    (Plain.nextOf (exec (.addi ⟨4, 0, 1016⟩) (st T0)) fun s => (s.thread? 1).any fun t => t.c.reg 4 == 1016#64) = true ∧
    (Plain.nextOf (exec (.shlim ⟨4, 0⟩) (st (regs [(4, 1016)]))) fun s => (s.thread? 1).any fun t => t.c.reg 4 == 0x3F800000#64) = true := by
  decide +kernel
/-- R103: −7 / 2 gives −3 and the remainder −1; a zero divisor gives all ones and the dividend (R19). -/
theorem test_example_division :
    (Plain.nextOf (exec (.div ⟨5, 1, 2, 0⟩) (st (regs [(1, 2 ^ 64 - 7), (2, 2)]))) fun s =>
      (s.thread? 1).any fun t => t.c.reg 5 == 0xFFFFFFFFFFFFFFFD#64) = true ∧
    (Plain.nextOf (exec (.rem ⟨5, 1, 2, 0⟩) (st (regs [(1, 2 ^ 64 - 7), (2, 2)]))) fun s =>
      (s.thread? 1).any fun t => t.c.reg 5 == 0xFFFFFFFFFFFFFFFF#64) = true ∧
    (Plain.nextOf (exec (.div ⟨5, 1, 2, 0⟩) (st (regs [(1, 7)]))) fun s =>
      (s.thread? 1).any fun t => t.c.reg 5 == 0xFFFFFFFFFFFFFFFF#64) = true ∧
    (Plain.nextOf (exec (.rem ⟨5, 1, 2, 0⟩) (st (regs [(1, 7)]))) fun s => (s.thread? 1).any fun t => t.c.reg 5 == 7#64) = true := by
  decide +kernel
/-- R21 (−0.0009 is 0xBA6BEDFA in F32 and converts to 0x00), R27 (70,000 converts to the infinity of H16). -/
theorem test_example_conversions : convert 9 5 0 false 0xBA6BEDFA = 0 ∧ convert 3 8 0 false 70000 = 0x7C00 := by decide +kernel
/-- R30, R31: sixteen products of 2^−30 added to 1.0 leave 1.0; sixteen products of 127 and 127 sum to 258,064. -/
theorem test_example_accumulate :
    accumulate 0x3F800000 (List.replicate 16 (.fin false 1 (-30))) = 0x3F800000 ∧ accumulateInt 0 (16 * (127 * 127)) = 258064 := by
  decide +kernel
/-- R38-R42: the helpers at −3, 2^−130, 2^−127, 0.25 and 0. -/
theorem test_example_helpers :
    exp2Def 0xC0400000 = 0x3E000000 ∧ rcpDef 0x00080000 = 0x7F800000 ∧ rcpDef 0x00400000 = 0x7F000000 ∧ rsqDef 0x3E800000 = 0x40000000 ∧
    geluDef 0 = 0 ∧ expeDef 0 = 0x3F800000 := by decide +kernel
/-- R32-R34: the block of thirty ones, a two and a zero is the manual's 27 bytes, and reads back. -/
theorem test_example_exb8 :
    exb8Encode (List.replicate 30 0x38 ++ [0x40, 0]) =
      (8 + 0xAAAAAAAAAAAAAA * 2 ^ 8 + 0xCA * 2 ^ 64 + 3 * 2 ^ 72 + 0x0360 * 2 ^ 200, 27) ∧
    exb8Decode (8 + 0xAAAAAAAAAAAAAA * 2 ^ 8 + 0xCA * 2 ^ 64 + 3 * 2 ^ 72 + 0x0360 * 2 ^ 200) =
      (List.replicate 30 0x38 ++ [0x40, 0], 27, false) := by decide +kernel
/-- R3, R372 (the home of 0x80000480), R246 (a handle). -/
theorem test_example_places :
    coreAt 43 21 = clusterCore (64 + 42) (4 * 1 + 3) ∧ coreCluster (coreAt 43 21) % 64 = 42 ∧ homeOf 0x80000480 = 9 ∧
    makeHandle 0 (64 + 42) 7 3 = 0x000D4000E0000076#64 := by decide +kernel
/-- R369: 30 channels with LOCALSA 4 give 52 granules. -/
theorem test_example_granules : ({ State.reset.stack 0 with dies := 0x7FFF, localsa := 4 } : Stack).granules = 52 := by
  decide +kernel
/-- R106: under `fmt.sat i8, i8, i8` lanes of 100 and 50 add to 127, and without `.sat` to 0x96. -/
theorem test_example_vadd : deliverInt 1 true (100 + 50) = 127 ∧ deliverInt 1 false (100 + 50) = 0x96 := by decide
/-- R112: 2^9 delivered to F8A with saturation is 0x7F. -/
theorem test_example_vexp2 : convert 9 5 0 true (exp2Def 0x41100000) = 0x7F := by decide +kernel

/-! ## Witnesses

For every clause of a statement that has hypotheses, concrete operands and a concrete state that meet all of them together. -/

namespace W1

def A : Thread := regs [(1,7),(2,0xFFFFFFFFFFFFFFF0),(3,3),(4,0x8000000000000000),(6,0xFFFFFFFFFFFFFFFF)]
def o5 : OpR := ⟨5,1,2,0⟩
def o7 : OpR := ⟨7,2,3,0⟩
def u7 : OpR := ⟨7,4,0,0⟩
def AE : Thread := { A with c := A.c.setEmpty 9 }
def AP : Thread := csr A fun c => { c with pfx := true, latch := 5 }
def AT : Thread := csr A fun c => { c with tbase := 0x8000, pfx := true, latch := 0x1234 }
def AT2 : Thread := csr A fun c => { c with tbase := 0x8000 }
def AR : Thread := csr A fun c => { c with trap := true, tepc := 0x1000, tpfx := 0x1A95A5800, tq0 := 5, tstatus := 0x80, tcause := 4 }
def AR2 : Thread := csr A fun c => { c with trap := true, tepc := 0x1000, tpfx := 0x1A95A5801, tq0 := 5, tstatus := 0x80, tcause := 4 }
def AH : Thread := { A with handler := some ⟨1, true, 77, 5, 0⟩ }
def fmtLatches_0 : OpF := ⟨1,2,3,1,1,0⟩
def placeCsrs_2 : Thread := { A with loc := .phase (64*(4*3+2)+(32*1+4*5+3)) 4 }

theorem test_wit_ScalarRowsGive :
    (r99 (Instr.add o5) = some (o5.w, [o5.a, o5.b], o5.d, fun (v : Reg → Word) => dn (BitVec.toNat (v o5.a) + BitVec.toNat (v o5.b)))) ∧
      Clear (Instr.add o5) (st A) A ∧
      Readable A (st A) o5.w [o5.a, o5.b] [o5.d] :=
  ⟨rfl, clearOf rfl (by decide +kernel), readableOf (by decide +kernel)⟩

theorem test_wit_ScalarCountsGive :
    (r99bits (Instr.clz u7) = some (u7.w, [u7.a], u7.d, fun (v : Reg → Word) => dn ((List.find? (fun (k : Nat) => BitVec.toNat (v u7.a) / 2 ^ (63 - k) % 2 == 1) (List.range 64)).getD 64))) ∧
      Clear (Instr.clz u7) (st A) A ∧
      Readable A (st A) u7.w [u7.a] [u7.d] :=
  ⟨rfl, clearOf rfl (by decide +kernel), readableOf (by decide +kernel)⟩

theorem test_wit_ImmediateRowsGive :
    (r101 (Instr.addi (OpI.mk 5#6 1#6 2047#11)) = some (0#2, [1#6], 5#6, fun (v : Reg → Word) => dw (↑(BitVec.toNat (v 1#6)) + signedOf 11 (BitVec.toNat 2047#11)))) ∧
      Clear (Instr.addi (OpI.mk 5#6 1#6 2047#11)) (st A) A ∧
      Readable A (st A) 0#2 [1#6] [5#6] :=
  ⟨rfl, clearOf rfl (by decide +kernel), readableOf (by decide +kernel)⟩

theorem test_wit_MultiplyDivideGive :
    (r103 (Instr.mulh o7) = some (o7.w, [o7.a, o7.b], o7.d, fun (v : Reg → Word) => dw (BitVec.toInt (v o7.a) * BitVec.toInt (v o7.b) / (2 : Int) ^ 64))) ∧
      Clear (Instr.mulh o7) (st A) A ∧
      Readable A (st A) o7.w [o7.a, o7.b] [o7.d] :=
  ⟨rfl, clearOf rfl (by decide +kernel), readableOf (by decide +kernel)⟩

theorem test_wit_BranchesGo :
    branches (Instr.bltz (OpB.mk 1#6 2#6 16382#14)) = some (OpB.mk 1#6 2#6 16382#14, fun (a b : Word) => decide (BitVec.toNat a < BitVec.toNat b)) ∧
      Clear (Instr.bltz (OpB.mk 1#6 2#6 16382#14)) (st A) A ∧
      Readable A (st A) 0#2 [1#6, 2#6] [] :=
  ⟨rfl, clearOf rfl (by decide +kernel), readableOf (by decide +kernel)⟩

theorem test_wit_PredicateBranches :
    (Clear (Instr.bp (OpP.mk 0#3 0#2 0#6 5#14)) (st A) A) ∧
    (Clear (Instr.bnp (OpP.mk 0#3 2#2 0#6 5#14)) (st A) A) ∧
    ((st A).current = some A ∧
      (1#3 ≠ 0#3 ∨ 0#6 ≠ 0#6)) :=
  ⟨clearOf rfl (by decide +kernel),
   clearOf rfl (by decide +kernel),
   ⟨rfl, by decide +kernel⟩⟩

theorem test_wit_JumpsGo :
    (Clear (Instr.jal (OpJ.mk 5#6 1048575#20)) (st A) A) ∧
    (Clear (Instr.jr (OpJr.mk 5#6 1#6 1#14)) (st A) A ∧
      Readable A (st A) 0#2 [1#6] [] ∧
      BitVec.toNat (dw (↑(BitVec.toNat (srcVal A (st A) 0#2 1#6)) + signedOf 14 (BitVec.toNat 1#14))) % 4 = 0) ∧
    (Clear (Instr.jr (OpJr.mk 5#6 1#6 2#14)) (st A) A ∧
      Readable A (st A) 0#2 [1#6] [] ∧
      BitVec.toNat (dw (↑(BitVec.toNat (srcVal A (st A) 0#2 1#6)) + signedOf 14 (BitVec.toNat 2#14))) % 4 ≠ 0) :=
  ⟨clearOf rfl (by decide +kernel),
   ⟨clearOf rfl (by decide +kernel), readableOf (by decide +kernel), by decide +kernel⟩,
   ⟨clearOf rfl (by decide +kernel), readableOf (by decide +kernel), by decide +kernel⟩⟩

theorem test_wit_PredicatesGive :
    ((predicates (Instr.plt (OpR.mk 1#6 2#6 1#6 0#2)) = some (0#2, [2#6, 1#6], 1#6, fun (x : Nat → Bool) (v : Reg → Word) => decide (BitVec.toInt (v 2#6) < BitVec.toInt (v 1#6)))) ∧
      Clear (Instr.plt (OpR.mk 1#6 2#6 1#6 0#2)) (st A) A ∧
      Readable A (st A) 0#2 [2#6, 1#6] []) ∧
    (Clear (Instr.pget (OpR.mk 2#6 0#6 0#6 0#2)) (st A) A) :=
  ⟨⟨rfl, clearOf rfl (by decide +kernel), readableOf (by decide +kernel)⟩,
   clearOf rfl (by decide +kernel)⟩

theorem test_wit_FullEmptyMoves :
    (Clear (Instr.mvt (OpR.mk 9#6 1#6 0#6 0#2)) (st AE) AE ∧
      (∀ (r : Reg), r = 1#6 ∨ r = 9#6 → isPort r = true → ((st AE).portTarget AE r).isSome = true) ∧
      (∀ (e : Nat × Nat), e ∈ AE.c.ue → e.fst ≠ BitVec.toNat 1#6) ∧
      nowFull AE (st AE) 0#2 1#6 = true ∧
      destBusy AE (st AE) 9#6 = false) ∧
    (Clear (Instr.mvp (OpR.mk 9#6 1#6 0#6 0#2)) (st AE) AE ∧
      (∀ (r : Reg), r = 1#6 ∨ r = 9#6 → isPort r = true → ((st AE).portTarget AE r).isSome = true) ∧
      (∀ (e : Nat × Nat), e ∈ AE.c.ue → e.fst ≠ BitVec.toNat 1#6) ∧
      nowFull AE (st AE) 0#2 1#6 = true ∧
      destBusy AE (st AE) 9#6 = false ∧
      (isPort 9#6 = false → nowFull AE (st AE) 0#2 9#6 = false)) ∧
    (Clear (Instr.rclr (OpR.mk 0#6 1#6 0#6 0#2)) (st AE) AE ∧
      (isPort 1#6 = true → ((st AE).portTarget AE 1#6).isSome = true)) ∧
    (Clear (Instr.rful (OpR.mk 3#6 9#6 0#6 0#2)) (st AE) AE ∧
      Readable AE (st AE) 0#2 [] [3#6] ∧
      (isPort 9#6 = true → ((st AE).portTarget AE 9#6).isSome = true)) ∧
    (Clear (Instr.rclr (OpR.mk 0#6 44#6 0#6 0#2)) (st A) A ∧
      (Instr.rclr (OpR.mk 0#6 44#6 0#6 0#2) = Instr.mvt (OpR.mk 0#6 44#6 0#6 0#2) ∨   Instr.rclr (OpR.mk 0#6 44#6 0#6 0#2) = Instr.mvp (OpR.mk 0#6 44#6 0#6 0#2) ∨     Instr.rclr (OpR.mk 0#6 44#6 0#6 0#2) = Instr.rclr (OpR.mk 0#6 44#6 0#6 0#2) ∨       Instr.rclr (OpR.mk 0#6 44#6 0#6 0#2) = Instr.rful (OpR.mk 0#6 44#6 0#6 0#2)) ∧
      isPort 44#6 = true ∧
      (st A).portTarget A 44#6 = none) :=
  ⟨⟨clearOf rfl (by decide +kernel), by decide +kernel⟩,
   ⟨clearOf rfl (by decide +kernel), by decide +kernel⟩,
   ⟨clearOf rfl (by decide +kernel), by decide +kernel⟩,
   ⟨clearOf rfl (by decide +kernel), readableOf (by decide +kernel), by decide +kernel⟩,
   ⟨clearOf rfl (by decide +kernel), by decide +kernel⟩⟩

theorem test_wit_AddpcGives :
    (Clear (Instr.addpc (OpU.mk 3#6 1048575#20)) (st A) A) ∧
    ((st A).current = some A ∧
      32 ≤ BitVec.toNat 32#6) ∧
    ((st AP).current = some AP ∧
      BitVec.toNat 3#6 < 32 ∧
      AP.handler = none ∧
      AP.csr.pfx = true) :=
  ⟨clearOf rfl (by decide +kernel),
   ⟨rfl, by decide +kernel⟩,
   ⟨rfl, by decide +kernel⟩⟩

theorem test_wit_FmtLatches :
    (Clear (Instr.fmt fmtLatches_0) (st A) A) ∧
    ((st AP).current = some AP ∧
      (Instr.fmt fmtLatches_0).wf = true ∧
      AP.handler = none ∧
      AP.csr.pfx = true) :=
  ⟨⟨rfl, rfl, rfl, fun h => absurd h (by decide +kernel), rfl, fun h => absurd h (by decide +kernel), by decide +kernel⟩,
   ⟨rfl, rfl, by decide +kernel⟩⟩

theorem test_wit_CsrReads :
    Clear (Instr.csrr (OpC.mk 5#6 0#6 34#12)) (st A) A ∧
      Readable A (st A) 0#2 [] [5#6] :=
  ⟨clearOf rfl (by decide +kernel), readableOf (by decide +kernel)⟩

theorem test_wit_CsrWrites :
    csrNew (Instr.csrx (OpC.mk 5#6 2#6 3#12)) = some (OpC.mk 5#6 2#6 3#12, fun (x v : Word) => some v) ∧
      Clear (Instr.csrx (OpC.mk 5#6 2#6 3#12)) (st A) A ∧
      Readable A (st A) 0#2 [2#6] [5#6] :=
  ⟨rfl, clearOf rfl (by decide +kernel), readableOf (by decide +kernel)⟩

theorem test_wit_PlaceCsrs :
    placeCsrs_2.loc = Loc.phase (64 * (4 * 3 + 2) + (32 * 1 + 4 * 5 + 3)) 4 ∧
      1 < 2 ∧
      5 < 8 ∧
      3 < 8 ∧
      3 < 4 ∧
      2 < 4 :=
  by decide +kernel

theorem test_wit_TrapEntry :
    ((st AT).thread? AT.tid = some AT ∧
      AT.isFw = false ∧
      AT.handler = none ∧
      (¬(AT.csr.tbase = 0#64 ∨ AT.csr.trap = true ∧ A.pc = AT.csr.tbase))) ∧
    ((st A).thread? A.tid = some A ∧
      A.isFw = false ∧
      A.handler = none ∧
      (A.csr.tbase = 0#64 ∨ A.csr.trap = true ∧ A.pc = A.csr.tbase)) :=
  ⟨⟨rfl, by decide +kernel⟩,
   ⟨rfl, by decide +kernel⟩⟩

theorem test_wit_BreakAndEcallTrap :
    (Clear (Instr.brk (OpR.mk 0#6 0#6 0#6 0#2)) (st AT2) AT2 ∧
      AT2.isFw = false ∧
      AT2.handler = none ∧
      AT2.csr.tbase ≠ 0#64 ∧
      (¬(AT2.csr.trap = true ∧ AT2.pc = AT2.csr.tbase)) ∧
      BitVec.toNat AT2.pc % 4 = 0) ∧
    (Clear (Instr.ecall (OpR.mk 0#6 2#6 0#6 0#2)) (st AT2) AT2 ∧
      Readable AT2 (st AT2) 0#2 [2#6] [] ∧
      AT2.isFw = false ∧
      AT2.handler = none ∧
      AT2.csr.tbase ≠ 0#64 ∧
      (¬(AT2.csr.trap = true ∧ AT2.pc = AT2.csr.tbase)) ∧
      BitVec.toNat AT2.pc % 4 = 0) :=
  ⟨⟨clearOf rfl (by decide +kernel), by decide +kernel⟩,
   ⟨clearOf rfl (by decide +kernel), readableOf (by decide +kernel), by decide +kernel⟩⟩

theorem test_wit_EretReturns :
    ((st AT).current = some AT ∧
      (Instr.eret (OpR.mk 0#6 0#6 0#6 0#2)).wf = true ∧
      AT.handler = none ∧
      AT.csr.pfx = true) ∧
    ((st AR2).current = some AR2 ∧
      (Instr.eret (OpR.mk 0#6 0#6 0#6 0#2)).wf = true ∧
      AR2.handler = none ∧
      AR2.csr.pfx = false ∧
      BitVec.getLsbD AR2.csr.tpfx 32 = true ∧
      validFmt (BitVec.extractLsb' 0 32 AR2.csr.tpfx) = false) ∧
    ((st AR).current = some AR ∧
      (Instr.eret (OpR.mk 0#6 0#6 0#6 0#2)).wf = true ∧
      AR.handler = none ∧
      AR.csr.pfx = false ∧
      (BitVec.getLsbD AR.csr.tpfx 32 = true → validFmt (BitVec.extractLsb' 0 32 AR.csr.tpfx) = true)) :=
  ⟨⟨rfl, by decide +kernel⟩,
   ⟨rfl, by decide +kernel⟩,
   ⟨rfl, by decide +kernel⟩⟩

theorem test_wit_DecodeOrder :
    ((st A).current = some A ∧
      (Instr.add (OpR.mk 40#6 1#6 1#6 0#2)).isWord = true ∧
      ((Instr.add (OpR.mk 40#6 1#6 1#6 0#2)).wf = false ∨ illegalHere (Instr.add (OpR.mk 40#6 1#6 1#6 0#2)) A = true)) ∧
    ((Instr.pinv (OpR.mk 1#6 1#6 1#6 0#2)).isWord = true ∧
      (st A).current = some A ∧
      (Instr.pinv (OpR.mk 1#6 1#6 1#6 0#2)).wf = true ∧
      illegalHere (Instr.pinv (OpR.mk 1#6 1#6 1#6 0#2)) A = false ∧
      (A.handler.isSome = true → barred (Instr.pinv (OpR.mk 1#6 1#6 1#6 0#2)) = false) ∧
      unprivileged (Instr.pinv (OpR.mk 1#6 1#6 1#6 0#2)) A = true) ∧
    ((st AP).current = some AP ∧
      (Instr.add (OpR.mk 1#6 1#6 1#6 0#2)).isWord = true ∧
      (Instr.add (OpR.mk 1#6 1#6 1#6 0#2)).wf = true ∧
      illegalHere (Instr.add (OpR.mk 1#6 1#6 1#6 0#2)) AP = false ∧
      (AP.handler.isSome = true → barred (Instr.add (OpR.mk 1#6 1#6 1#6 0#2)) = false) ∧
      unprivileged (Instr.add (OpR.mk 1#6 1#6 1#6 0#2)) AP = false ∧
      AP.csr.pfx = true ∧
      (takesPrefix (Instr.add (OpR.mk 1#6 1#6 1#6 0#2)) = false ∨ rejectsFmts (Instr.add (OpR.mk 1#6 1#6 1#6 0#2)) AP.csr.latch = true)) ∧
    ((st AH).current = some AH ∧
      (Instr.tagWany (OpR.mk 1#6 1#6 0#6 0#2)).isWord = true ∧
      (Instr.tagWany (OpR.mk 1#6 1#6 0#6 0#2)).wf = true ∧
      illegalHere (Instr.tagWany (OpR.mk 1#6 1#6 0#6 0#2)) AH = false ∧
      AH.handler.isSome = true ∧
      barred (Instr.tagWany (OpR.mk 1#6 1#6 0#6 0#2)) = true) :=
  ⟨⟨rfl, by decide +kernel⟩,
   ⟨rfl, rfl, rfl, rfl, fun h => absurd h (by decide +kernel), rfl⟩,
   ⟨rfl, by decide +kernel⟩,
   ⟨rfl, by decide +kernel⟩⟩

theorem test_wit_YieldParks :
    Clear (Instr.yield_ (OpR.mk 0#6 0#6 0#6 0#2)) (st A) A ∧
      A.handler = none ∧
      (A.csr.creq = true → A.creqAck = true) :=
  ⟨clearOf rfl (by decide +kernel), by decide +kernel⟩

theorem test_wit_ExitEnds :
    Clear (Instr.exit_ (OpR.mk 0#6 2#6 0#6 0#2)) (st A) A ∧
      Readable A (st A) 0#2 [2#6] [] ∧
      A.exiting = none ∧
      A.caller = none ∧
      A.handler = none ∧
      A.unretired = [] ∧
      A.region.homes = [] ∧
      (st A).xfersOf A.tid = [] ∧
      (st A).storesOf A.tid = [] ∧
      (st A).engineOf A = none :=
  ⟨clearOf rfl (by decide +kernel), readableOf (by decide +kernel), by decide +kernel⟩

theorem test_wit_UnassignedOpcodes :
    (st A).current = some A ∧
      ((0#32).toNat / 2 ^ 26 = 0 ∨ 43 ≤ (0#32).toNat / 2 ^ 26) :=
  ⟨rfl, by decide +kernel⟩

end W1

namespace W2

def v1 : VReg := Vector.ofFn fun i => BitVec.ofNat 32 (i.val * 0x11111111)
def v2 : VReg := Vector.ofFn fun i => BitVec.ofNat 32 (0x40000000 + i.val * 0x1234567)
def A0 : Thread := regs [(1,7),(2,0xFFFFFFFFFFFFFFF0),(3,3)]
def A : Thread := { A0 with c := ((A0.c.setVec 48 v1).setVec 49 v2).setMask 3 0xF0F0F0F0 }
def L : Thread := regs [(1,0x2000),(2,0xFFFFFFFFFFFFFFF0),(3,131072),(4,0x3FFF8),(5,208*1024-8), (6, 131076)]
def SL : State := spad (st L) 0x2000 128 0x89ABCDEF0123456789ABCDEF0123456789ABCDEF
def TT : Thread := regs [(1,0x1000),(2,0xFFFFFFFFFFFFFFF0)]
def SST : State := (spad (st TT) 0x1000 8 0x1122334455667788).modCore 0 fun c => { c with tagFull := [0x1000] }
def LB : Thread := regs [(1,5),(2,3),(3,1), (4,0xFFFFFFFFFFFFFFFD)]
def SB : State := (st LB).modCore 0 fun c => { c with barriers := [(5, ⟨3,2,0,true,false⟩)] }
def LG : Thread := csr (regs [(1,5),(2,0x14)]) fun c => { c with done := 0x24 }
def LG2 : Thread := { LG with csr := { LG.csr with done := 0x34 } }
def LM : Thread := regs [(1,0x12340000),(2,77),(3,131072),(6,131080), (8,5), (9,6)]
def LA : Thread := regs [(3,131072),(8,5),(9,6),(2, 0)]
def LL : Thread := regs [(1,0x2001),(2,5),(9,4194304),(5,208*1024),(10,2^40),(12,0x30000),(13,0x40000),(14,2^52),(15,2^50),(16,0x2040)]
def sT2 (t : Thread) : State := { st t with tlb := ⟨.dtlb 0, 0, 3, 0x30000, BitVec.ofNat 64 (0x30000 + 3)⟩ :: ⟨.dtlb 0, 0, 3, 0x40000, 0⟩ :: S0.tlb }
def SBad : State := SL.modCore 0 fun c => { c with spadUE := [0x2010, 0x2050] }
def hR : Handler := ⟨1, true, 0, 5, 1⟩
def tHr : Thread := { regs [(3, 77)] with tid := 2, loc := .phase 5 7, pc := 0x10040, handler := some hR }
def tV : Thread := outT (.amsg 7 none)
def sHr : State := ({ S0 with threads := [tV, tHr], cur := 2, nextTid := 3 } : State).modCore 5 fun c => { c with owner := some 0 }
def sSt : State := { st LM with stores := [⟨5, 1, 0, 0, 131072, 131072, 8, 7, 2⟩, ⟨6, 1, 0, 0, 131072, 131072, 8, 7, 3⟩], nextId := 9 }
def fences_1 : State := { sSt with threads := [reg LM 6 3] }

theorem test_wit_VectorLanes :
    lanes (Instr.vadd (OpV.mk 50#6 48#6 49#6 3#3)) =   some (OpV.mk 50#6 48#6 49#6 3#3, [48#6, 49#6], intLane (OpV.mk 50#6 48#6 49#6 3#3) fun (f : Fmts) (x y : Int) => f.putInt (x + y)) ∧
      Clear (Instr.vadd (OpV.mk 50#6 48#6 49#6 3#3)) (st A) A ∧
      Readable A (st A) 0#2 [48#6, 49#6] [] :=
  ⟨rfl, clearOf rfl (by decide +kernel), readableOf (by decide +kernel)⟩

theorem test_wit_VectorMasks :
    (compares (Instr.vclt (OpV.mk 2#6 48#6 49#6 3#3)) =   some (OpV.mk 2#6 48#6 49#6 3#3, fun (t : Thread) (s : State) (i : Nat) => decide (intValue (t.fmts 3).fa ((t.c.vec 48#6).lane i) < intValue (t.fmts 3).fb (bLane t s 49#6 i))) ∧
      Clear (Instr.vclt (OpV.mk 2#6 48#6 49#6 3#3)) (st A) A ∧
      Readable A (st A) 0#2 [48#6, 49#6] []) ∧
    (Clear (Instr.kset (OpV.mk 2#6 2#6 0#6 0#3)) (st A) A ∧
      Readable A (st A) 0#2 [2#6] []) ∧
    ((Instr.kset (OpV.mk 2#6 2#6 0#6 0#3)).wf = true) :=
  ⟨⟨rfl, clearOf rfl (by decide +kernel), readableOf (by decide +kernel)⟩,
   ⟨clearOf rfl (by decide +kernel), readableOf (by decide +kernel)⟩,
   by decide +kernel⟩

theorem test_wit_VectorReductions :
    reductions (Instr.vext (OpV.mk 5#6 49#6 3#6 0#3)) =   some (OpV.mk 5#6 49#6 3#6 0#3, [49#6, 3#6], fun (t : Thread) (s : State) => dn ((t.c.vec 49#6).lane (BitVec.toNat (srcVal t s 0#2 3#6) % 32))) ∧
      Clear (Instr.vext (OpV.mk 5#6 49#6 3#6 0#3)) (st A) A ∧
      Readable A (st A) 0#2 [49#6, 3#6] [5#6] :=
  ⟨rfl, clearOf rfl (by decide +kernel), readableOf (by decide +kernel)⟩

theorem test_wit_VectorInt32 :
    int32 (Instr.vmulh (OpV.mk 50#6 48#6 49#6 0#3)) = some (OpV.mk 50#6 48#6 49#6 0#3, fun (a b : W32) => BitVec.ofInt 32 (BitVec.toInt a * BitVec.toInt b / (2 : Int) ^ 32)) ∧
      lanes (Instr.vmulh (OpV.mk 50#6 48#6 49#6 0#3)) =   some (OpV.mk 50#6 48#6 49#6 0#3, [48#6, 49#6], intLane (OpV.mk 50#6 48#6 49#6 0#3) fun (f : Fmts) (x y : Int) => f.putInt (x * y / ↑(2 ^ fmtBits f.fr))) ∧
      A.csr.pfx = false ∧
      isVec 49#6 = true ∧
      7 < 32 :=
  ⟨rfl, rfl, by decide +kernel⟩

theorem test_wit_ScratchpadLoads :
    (nearLoads (Instr.ldlB (OpI.mk 5#6 1#6 1#11)) = some (OpI.mk 5#6 1#6 1#11, 1, How.signed) ∧
      Clear (Instr.ldlB (OpI.mk 5#6 1#6 1#11)) SL L ∧
      Readable L SL 0#2 [1#6] [5#6] ∧
      soundRange (SL.near L).bad 8 (BitVec.toNat (address (srcVal L SL 0#2 1#6) 1#11 1)) 1 ∧
      BitVec.toNat (address (srcVal L SL 0#2 1#6) 1#11 1) % 1 = 0 ∧
      BitVec.toNat (address (srcVal L SL 0#2 1#6) 1#11 1) + 1 ≤ (SL.near L).size) ∧
    (nearLoads (Instr.ldlV (OpI.mk 50#6 5#6 0#11)) = some (OpI.mk 50#6 5#6 0#11, 128, How.vector) ∧
      Clear (Instr.ldlV (OpI.mk 50#6 5#6 0#11)) SL L ∧
      Readable L SL 0#2 [5#6] [50#6] ∧
      BitVec.toNat (address (srcVal L SL 0#2 5#6) 0#11 128) % 128 ≠ 0) ∧
    (nearLoads (Instr.ldlD (OpI.mk 7#6 5#6 1#11)) = some (OpI.mk 7#6 5#6 1#11, 8, How.zero) ∧
      Clear (Instr.ldlD (OpI.mk 7#6 5#6 1#11)) SL L ∧
      Readable L SL 0#2 [5#6] [7#6] ∧
      BitVec.toNat (address (srcVal L SL 0#2 5#6) 1#11 8) % 8 = 0 ∧
      (SL.near L).size < BitVec.toNat (address (srcVal L SL 0#2 5#6) 1#11 8) + 8) ∧
    (nearLoads (Instr.ldlV (OpI.mk 50#6 1#6 0#11)) = some (OpI.mk 50#6 1#6 0#11, 128, How.vector) ∧
      Clear (Instr.ldlV (OpI.mk 50#6 1#6 0#11)) SBad L ∧
      Readable L SBad 0#2 [1#6] [50#6] ∧
      badFirst (SBad.near L).bad 8 (BitVec.toNat (address (srcVal L SBad 0#2 1#6) 0#11 128)) 128 16 ∧
      BitVec.toNat (address (srcVal L SBad 0#2 1#6) 0#11 128) % 128 = 0 ∧
      BitVec.toNat (address (srcVal L SBad 0#2 1#6) 0#11 128) + 128 ≤ (SBad.near L).size) :=
  ⟨⟨rfl, clearOf rfl (by decide +kernel), readableOf (by decide +kernel), (by unfold soundRange; exact (by decide +kernel)), by decide +kernel⟩,
   ⟨rfl, clearOf rfl (by decide +kernel), readableOf (by decide +kernel), by decide +kernel⟩,
   ⟨rfl, clearOf rfl (by decide +kernel), readableOf (by decide +kernel), by decide +kernel⟩,
   ⟨rfl, clearOf rfl (by decide +kernel), readableOf (by decide +kernel), (by unfold badFirst; exact (by decide +kernel)), by decide +kernel⟩⟩

theorem test_wit_ScratchpadStores :
    (Clear (Instr.stlW (OpS.mk 2#6 1#6 2047#11)) SL L ∧
      Readable L SL 0#2 [1#6, 2#6] [] ∧
      nearStores (Instr.stlW (OpS.mk 2#6 1#6 2047#11)) = some (OpS.mk 2#6 1#6 2047#11, 4) ∧
      BitVec.toNat (address (srcVal L SL 0#2 1#6) 2047#11 4) % 4 = 0 ∧
      BitVec.toNat (address (srcVal L SL 0#2 1#6) 2047#11 4) + 4 ≤ (SL.near L).size) ∧
    (Clear (Instr.stlW (OpS.mk 2#6 1#6 0#11)) (st LL) LL ∧
      Readable LL (st LL) 0#2 [1#6, 2#6] [] ∧
      nearStores (Instr.stlW (OpS.mk 2#6 1#6 0#11)) = some (OpS.mk 2#6 1#6 0#11, 4) ∧
      BitVec.toNat (address (srcVal LL (st LL) 0#2 1#6) 0#11 4) % 4 ≠ 0) ∧
    (Clear (Instr.stlD (OpS.mk 2#6 5#6 0#11)) (st LL) LL ∧
      Readable LL (st LL) 0#2 [5#6, 2#6] [] ∧
      nearStores (Instr.stlD (OpS.mk 2#6 5#6 0#11)) = some (OpS.mk 2#6 5#6 0#11, 8) ∧
      BitVec.toNat (address (srcVal LL (st LL) 0#2 5#6) 0#11 8) % 8 = 0 ∧
      ((st LL).near LL).size < BitVec.toNat (address (srcVal LL (st LL) 0#2 5#6) 0#11 8) + 8) :=
  ⟨⟨clearOf rfl (by decide +kernel), readableOf (by decide +kernel), by decide +kernel⟩,
   ⟨clearOf rfl (by decide +kernel), readableOf (by decide +kernel), by decide +kernel⟩,
   ⟨clearOf rfl (by decide +kernel), readableOf (by decide +kernel), by decide +kernel⟩⟩

theorem test_wit_TileStoreLoads :
    (tileLoads (Instr.ldcD (OpI.mk 7#6 1#6 1#11)) = some (OpI.mk 7#6 1#6 1#11, 8, How.zero) ∧
      Clear (Instr.ldcD (OpI.mk 7#6 1#6 1#11)) SL L ∧
      Readable L SL 0#2 [1#6] [7#6] ∧
      Stays L SL ∧
      BitVec.toNat (address (srcVal L SL 0#2 1#6) 1#11 8) % 8 = 0 ∧
      BitVec.toNat (address (srcVal L SL 0#2 1#6) 1#11 8) + 8 ≤ 4194304 ∧
      SL.holds L.ctx L.cluster = true) ∧
    (tileLoads (Instr.ldcD (OpI.mk 7#6 1#6 0#11)) = some (OpI.mk 7#6 1#6 0#11, 8, How.zero) ∧
      Clear (Instr.ldcD (OpI.mk 7#6 1#6 0#11)) (st LL) LL ∧
      Readable LL (st LL) 0#2 [1#6] [7#6] ∧
      Stays LL (st LL) ∧
      BitVec.toNat (address (srcVal LL (st LL) 0#2 1#6) 0#11 8) % 8 ≠ 0) ∧
    (tileLoads (Instr.ldcD (OpI.mk 7#6 9#6 0#11)) = some (OpI.mk 7#6 9#6 0#11, 8, How.zero) ∧
      Clear (Instr.ldcD (OpI.mk 7#6 9#6 0#11)) (st LL) LL ∧
      Readable LL (st LL) 0#2 [9#6] [7#6] ∧
      Stays LL (st LL) ∧
      BitVec.toNat (address (srcVal LL (st LL) 0#2 9#6) 0#11 8) % 8 = 0 ∧
      (4194304 < BitVec.toNat (address (srcVal LL (st LL) 0#2 9#6) 0#11 8) + 8 ∨ (st LL).holds LL.ctx LL.cluster = false)) :=
  ⟨⟨rfl, clearOf rfl (by decide +kernel), readableOf (by decide +kernel), by refine Stays.mk (⟨_, rfl⟩) ?_ ((by unfold Uncancelled; exact (by decide +kernel))) ?_ ?_ ?_ <;> decide +kernel, by decide +kernel⟩,
   ⟨rfl, clearOf rfl (by decide +kernel), readableOf (by decide +kernel), by refine Stays.mk (⟨_, rfl⟩) ?_ ((by unfold Uncancelled; exact (by decide +kernel))) ?_ ?_ ?_ <;> decide +kernel, by decide +kernel⟩,
   ⟨rfl, clearOf rfl (by decide +kernel), readableOf (by decide +kernel), by refine Stays.mk (⟨_, rfl⟩) ?_ ((by unfold Uncancelled; exact (by decide +kernel))) ?_ ?_ ?_ <;> decide +kernel, by decide +kernel⟩⟩

theorem test_wit_TileStoreStores :
    (Clear (Instr.stcH (OpS.mk 2#6 1#6 1#11)) SL L ∧
      Readable L SL 0#2 [1#6, 2#6] [] ∧
      Stays L SL ∧
      tileStores (Instr.stcH (OpS.mk 2#6 1#6 1#11)) = some (OpS.mk 2#6 1#6 1#11, 2) ∧
      BitVec.toNat (address (srcVal L SL 0#2 1#6) 1#11 2) % 2 = 0 ∧
      BitVec.toNat (address (srcVal L SL 0#2 1#6) 1#11 2) + 2 ≤ 4194304 ∧
      SL.holds L.ctx L.cluster = true) ∧
    (Clear (Instr.stcD (OpS.mk 7#6 1#6 0#11)) (st LL) LL ∧
      Readable LL (st LL) 0#2 [1#6, 7#6] [] ∧
      Stays LL (st LL) ∧
      tileStores (Instr.stcD (OpS.mk 7#6 1#6 0#11)) = some (OpS.mk 7#6 1#6 0#11, 8) ∧
      BitVec.toNat (address (srcVal LL (st LL) 0#2 1#6) 0#11 8) % 8 ≠ 0) ∧
    (Clear (Instr.stcD (OpS.mk 7#6 9#6 0#11)) (st LL) LL ∧
      Readable LL (st LL) 0#2 [9#6, 7#6] [] ∧
      Stays LL (st LL) ∧
      tileStores (Instr.stcD (OpS.mk 7#6 9#6 0#11)) = some (OpS.mk 7#6 9#6 0#11, 8) ∧
      BitVec.toNat (address (srcVal LL (st LL) 0#2 9#6) 0#11 8) % 8 = 0 ∧
      (4194304 < BitVec.toNat (address (srcVal LL (st LL) 0#2 9#6) 0#11 8) + 8 ∨ (st LL).holds LL.ctx LL.cluster = false)) :=
  ⟨⟨clearOf rfl (by decide +kernel), readableOf (by decide +kernel), by refine Stays.mk (⟨_, rfl⟩) ?_ ((by unfold Uncancelled; exact (by decide +kernel))) ?_ ?_ ?_ <;> decide +kernel, by decide +kernel⟩,
   ⟨clearOf rfl (by decide +kernel), readableOf (by decide +kernel), by refine Stays.mk (⟨_, rfl⟩) ?_ ((by unfold Uncancelled; exact (by decide +kernel))) ?_ ?_ ?_ <;> decide +kernel, by decide +kernel⟩,
   ⟨clearOf rfl (by decide +kernel), readableOf (by decide +kernel), by refine Stays.mk (⟨_, rfl⟩) ?_ ((by unfold Uncancelled; exact (by decide +kernel))) ?_ ?_ ?_ <;> decide +kernel, by decide +kernel⟩⟩

theorem test_wit_TaggedWords :
    tagged (Instr.ldlFr (OpR.mk 7#6 1#6 0#6 0#2)) = some (OpR.mk 7#6 1#6 0#6 0#2, [], [7#6], some true, true, fun (v : Word) (x : Bool) (x_1 : Word) => (v, true, some v)) ∧
      Clear (Instr.ldlFr (OpR.mk 7#6 1#6 0#6 0#2)) SST TT ∧
      Readable TT SST 0#2 [1#6] [7#6] ∧
      RegionsDone TT SST ∧
      (true = true → soundRange (SST.near TT).bad 8 (BitVec.toNat (srcVal TT SST 0#2 1#6)) 8) ∧
      BitVec.toNat (srcVal TT SST 0#2 1#6) % 8 = 0 ∧
      BitVec.toNat (srcVal TT SST 0#2 1#6) < (SST.near TT).tagged ∧
      (∀ (b : Bool), some true = some b → fullAt (SST.near TT) (BitVec.toNat (srcVal TT SST 0#2 1#6)) = b) :=
  ⟨rfl, clearOf rfl (by decide +kernel), readableOf (by decide +kernel), (by unfold RegionsDone; exact (by decide +kernel)), fun _ => (by unfold soundRange; exact (by decide +kernel)), by decide +kernel⟩

theorem test_wit_TaggedWordsPark :
    tagged (Instr.ldlFr (OpR.mk 7#6 1#6 0#6 0#2)) = some (OpR.mk 7#6 1#6 0#6 0#2, [], [7#6], some true, true, fun (v : Word) (x : Bool) (x_1 : Word) => (v, true, some v)) ∧
      Clear (Instr.ldlFr (OpR.mk 7#6 1#6 0#6 0#2)) (st TT) TT ∧
      Readable TT (st TT) 0#2 [1#6] [7#6] ∧
      Stays TT (st TT) ∧
      BitVec.toNat (srcVal TT (st TT) 0#2 1#6) % 8 = 0 ∧
      BitVec.toNat (srcVal TT (st TT) 0#2 1#6) < ((st TT).near TT).tagged ∧
      fullAt ((st TT).near TT) (BitVec.toNat (srcVal TT (st TT) 0#2 1#6)) = !true :=
  ⟨rfl, clearOf rfl (by decide +kernel), readableOf (by decide +kernel), by refine Stays.mk (⟨_, rfl⟩) ?_ ((by unfold Uncancelled; exact (by decide +kernel))) ?_ ?_ ?_ <;> decide +kernel, by decide +kernel⟩

theorem test_wit_Barriers :
    (Clear (Instr.barInit (OpR.mk 0#6 1#6 2#6 0#2)) SB LB ∧
      Readable LB SB 0#2 [1#6, 2#6] [] ∧
      BitVec.toNat (srcVal LB SB 0#2 1#6) < 256) ∧
    (Clear (Instr.barExp (OpR.mk 0#6 1#6 2#6 0#2)) SB LB ∧
      Readable LB SB 0#2 [1#6, 2#6] [] ∧
      BitVec.toNat (srcVal LB SB 0#2 1#6) < 256 ∧
      (((SB.near LB).barrier (BitVec.toNat (srcVal LB SB 0#2 1#6))).pend + BitVec.toInt (srcVal LB SB 0#2 2#6)).natAbs < 2 ^ 55) ∧
    (Clear (Instr.barArr (OpR.mk 7#6 1#6 0#6 0#2)) SB LB ∧
      Readable LB SB 0#2 [1#6] [7#6] ∧
      RegionsDone LB SB ∧
      BitVec.toNat (srcVal LB SB 0#2 1#6) < 256 ∧
      ((SB.near LB).barrier (BitVec.toNat (srcVal LB SB 0#2 1#6))).arr.toNat < 65535) ∧
    (Clear (Instr.barWait (OpR.mk 0#6 1#6 0#6 0#2)) SB LB ∧
      Readable LB SB 0#2 [1#6, 0#6] [] ∧
      RegionsDone LB SB ∧
      BitVec.toNat (srcVal LB SB 0#2 1#6) < 256 ∧
      ((SB.near LB).barrier (BitVec.toNat (srcVal LB SB 0#2 1#6))).ph ≠ BitVec.getLsbD (srcVal LB SB 0#2 0#6) 0) ∧
    (Clear (Instr.barWait (OpR.mk 0#6 1#6 3#6 0#2)) SB LB ∧
      Readable LB SB 0#2 [1#6, 3#6] [] ∧
      Stays LB SB ∧
      BitVec.toNat (srcVal LB SB 0#2 1#6) < 256 ∧
      ((SB.near LB).barrier (BitVec.toNat (srcVal LB SB 0#2 1#6))).ph = BitVec.getLsbD (srcVal LB SB 0#2 3#6) 0) ∧
    (Clear (Instr.barQ (OpR.mk 0#6 1#6 0#6 0#2)) SB LB ∧
      Readable LB SB 0#2 [1#6, 0#6] [0#6] ∧
      BitVec.toNat (srcVal LB SB 0#2 1#6) < 256 ∧
      BitVec.toNat (srcVal LB SB 0#2 0#6) < 2) ∧
    (Clear (Instr.barSync (OpR.mk 0#6 1#6 0#6 0#2)) SB LB ∧
      Readable LB SB 0#2 [1#6] [] ∧
      RegionsDone LB SB ∧
      LB.synced = none ∧
      BitVec.toNat (srcVal LB SB 0#2 1#6) < 256 ∧
      ((SB.near LB).barrier (BitVec.toNat (srcVal LB SB 0#2 1#6))).arr.toNat < 65535 ∧
      ((SB.near LB).barrier (BitVec.toNat (srcVal LB SB 0#2 1#6))).expect.toNat ≤ ((SB.near LB).barrier (BitVec.toNat (srcVal LB SB 0#2 1#6))).arr.toNat + 1 ∧
      ((SB.near LB).barrier (BitVec.toNat (srcVal LB SB 0#2 1#6))).pend ≤ (0 : Int)) ∧
    (Clear (Instr.barInit (OpR.mk 0#6 4#6 2#6 0#2)) SB LB ∧
      Readable LB SB 0#2 [4#6, 2#6] [0#6] ∧
      (Instr.barInit (OpR.mk 0#6 4#6 2#6 0#2) = Instr.barInit (OpR.mk 0#6 4#6 2#6 0#2) ∨   Instr.barInit (OpR.mk 0#6 4#6 2#6 0#2) = Instr.barExp (OpR.mk 0#6 4#6 2#6 0#2) ∨     Instr.barInit (OpR.mk 0#6 4#6 2#6 0#2) = Instr.barArr (OpR.mk 0#6 4#6 2#6 0#2) ∨       Instr.barInit (OpR.mk 0#6 4#6 2#6 0#2) = Instr.barWait (OpR.mk 0#6 4#6 2#6 0#2) ∨         Instr.barInit (OpR.mk 0#6 4#6 2#6 0#2) = Instr.barQ (OpR.mk 0#6 4#6 2#6 0#2)) ∧
      256 ≤ BitVec.toNat (srcVal LB SB 0#2 4#6)) :=
  ⟨⟨clearOf rfl (by decide +kernel), readableOf (by decide +kernel), by decide +kernel⟩,
   ⟨clearOf rfl (by decide +kernel), readableOf (by decide +kernel), by decide +kernel⟩,
   ⟨clearOf rfl (by decide +kernel), readableOf (by decide +kernel), (by unfold RegionsDone; exact (by decide +kernel)), by decide +kernel⟩,
   ⟨clearOf rfl (by decide +kernel), readableOf (by decide +kernel), (by unfold RegionsDone; exact (by decide +kernel)), by decide +kernel⟩,
   ⟨clearOf rfl (by decide +kernel), readableOf (by decide +kernel), by refine Stays.mk (⟨_, rfl⟩) ?_ ((by unfold Uncancelled; exact (by decide +kernel))) ?_ ?_ ?_ <;> decide +kernel, by decide +kernel⟩,
   ⟨clearOf rfl (by decide +kernel), readableOf (by decide +kernel), by decide +kernel⟩,
   ⟨clearOf rfl (by decide +kernel), readableOf (by decide +kernel), (by unfold RegionsDone; exact (by decide +kernel)), by decide +kernel⟩,
   ⟨clearOf rfl (by decide +kernel), readableOf (by decide +kernel), by decide +kernel⟩⟩

theorem test_wit_TagWaits :
    (Clear (Instr.tagWany (OpR.mk 7#6 2#6 0#6 0#2)) (st LG2) LG2 ∧
      Readable LG2 (st LG2) 0#2 [2#6] [7#6] ∧
      RegionsDone LG2 (st LG2) ∧
      (Instr.tagWany (OpR.mk 7#6 2#6 0#6 0#2) = Instr.tagWany (OpR.mk 7#6 2#6 0#6 0#2) ∧ false = false ∨   Instr.tagWany (OpR.mk 7#6 2#6 0#6 0#2) = Instr.tagWall (OpR.mk 7#6 2#6 0#6 0#2) ∧ false = true) ∧
      (if false = true then LG2.csr.done &&& srcVal LG2 (st LG2) 0#2 2#6 = srcVal LG2 (st LG2) 0#2 2#6 else LG2.csr.done &&& srcVal LG2 (st LG2) 0#2 2#6 ≠ 0#64 ∨ srcVal LG2 (st LG2) 0#2 2#6 = 0#64)) ∧
    (Clear (Instr.tagFfr (OpR.mk 7#6 1#6 0#6 0#2)) (st LG) LG ∧
      Readable LG (st LG) 0#2 [1#6] [7#6] ∧
      RegionsDone LG (st LG) ∧
      2 < 64 ∧
      BitVec.getLsbD (LG.csr.done &&& srcVal LG (st LG) 0#2 1#6) 2 = true ∧
      (∀ (j : Nat), j < 2 → BitVec.getLsbD (LG.csr.done &&& srcVal LG (st LG) 0#2 1#6) j = false)) ∧
    (Clear (Instr.tagWall (OpR.mk 7#6 2#6 0#6 0#2)) (st LG) LG ∧
      Readable LG (st LG) 0#2 [2#6] [7#6] ∧
      Stays LG (st LG) ∧
      (Instr.tagWall (OpR.mk 7#6 2#6 0#6 0#2) = Instr.tagWany (OpR.mk 7#6 2#6 0#6 0#2) ∧ true = false ∨   Instr.tagWall (OpR.mk 7#6 2#6 0#6 0#2) = Instr.tagWall (OpR.mk 7#6 2#6 0#6 0#2) ∧ true = true ∨     Instr.tagWall (OpR.mk 7#6 2#6 0#6 0#2) = Instr.tagFfr (OpR.mk 7#6 2#6 0#6 0#2) ∧ true = false) ∧
      (if true = true then LG.csr.done &&& srcVal LG (st LG) 0#2 2#6 ≠ srcVal LG (st LG) 0#2 2#6 else LG.csr.done &&& srcVal LG (st LG) 0#2 2#6 = 0#64 ∧ srcVal LG (st LG) 0#2 2#6 ≠ 0#64)) ∧
    (Clear (Instr.tagFfr (OpR.mk 7#6 0#6 0#6 0#2)) (st LG) LG ∧
      Readable LG (st LG) 0#2 [0#6] [7#6] ∧
      RegionsDone LG (st LG) ∧
      srcVal LG (st LG) 0#2 0#6 = 0#64) :=
  ⟨⟨clearOf rfl (by decide +kernel), readableOf (by decide +kernel), (by unfold RegionsDone; exact (by decide +kernel)), by decide +kernel⟩,
   ⟨clearOf rfl (by decide +kernel), readableOf (by decide +kernel), (by unfold RegionsDone; exact (by decide +kernel)), by decide +kernel⟩,
   ⟨clearOf rfl (by decide +kernel), readableOf (by decide +kernel), by refine Stays.mk (⟨_, rfl⟩) ?_ ((by unfold Uncancelled; exact (by decide +kernel))) ?_ ?_ ?_ <;> decide +kernel, by decide +kernel⟩,
   ⟨clearOf rfl (by decide +kernel), readableOf (by decide +kernel), (by unfold RegionsDone; exact (by decide +kernel)), by decide +kernel⟩⟩

theorem test_wit_Messages :
    (Clear (Instr.amsgN (OpR.mk 0#6 1#6 2#6 0#2)) (st LM) LM ∧
      Readable LM (st LM) 0#2 [1#6, 2#6] [] ∧
      RegionsDone LM (st LM) ∧
      LM.handler = none ∧
      LM.isFw = false ∧
      (st LM).msgOk LM.ctx (srcVal LM (st LM) 0#2 1#6) = true ∧
      ((st LM).core LM.coreId).outb.length < 8 ∧
      (st LM).othersBefore LM Res.outb LM.coreId = false) ∧
    (Clear (Instr.amsg (OpR.mk 7#6 1#6 2#6 0#2)) (st LM) LM ∧
      Readable LM (st LM) 0#2 [1#6, 2#6] [7#6] ∧
      RegionsDone LM (st LM) ∧
      Stays LM (st LM) ∧
      LM.isFw = false ∧
      (st LM).msgOk LM.ctx (srcVal LM (st LM) 0#2 1#6) = true ∧
      ((st LM).core LM.coreId).outb.length < 8 ∧
      (st LM).othersBefore LM Res.outb LM.coreId = false) ∧
    (Clear (Instr.amret (OpR.mk 0#6 3#6 0#6 0#2)) sHr tHr ∧
      Readable tHr sHr 0#2 [3#6] [] ∧
      sHr.thread? hR.sender = some tV ∧
      Stays tV sHr ∧
      tHr.handler = some hR ∧
      hR.wantReply = true ∧
      hR.sender ≠ tHr.tid ∧
      hR.charge = hR.sender ∧
      tV.run = Run.out W0 (Pending.amsg 7#6 none) ∧
      destBusy tV sHr 7#6 = false) ∧
    (Clear (Instr.amsgN (OpR.mk 0#6 15#6 2#6 0#2)) (st LL) LL ∧
      Readable LL (st LL) 0#2 [15#6, 2#6] [] ∧
      (Instr.amsgN (OpR.mk 0#6 15#6 2#6 0#2) = Instr.amsg (OpR.mk 0#6 15#6 2#6 0#2) ∧ [] = [0#6] ∨   Instr.amsgN (OpR.mk 0#6 15#6 2#6 0#2) = Instr.amsgN (OpR.mk 0#6 15#6 2#6 0#2) ∧ ([] : List Reg) = []) ∧
      (part (srcVal LL (st LL) 0#2 15#6) 48 16 ≠ 0 ∨ part (srcVal LL (st LL) 0#2 15#6) 16 2 ≠ 0)) :=
  ⟨⟨clearOf rfl (by decide +kernel), readableOf (by decide +kernel), (by unfold RegionsDone; exact (by decide +kernel)), by decide +kernel⟩,
   ⟨clearOf rfl (by decide +kernel), readableOf (by decide +kernel), (by unfold RegionsDone; exact (by decide +kernel)), by refine Stays.mk (⟨_, rfl⟩) ?_ ((by unfold Uncancelled; exact (by decide +kernel))) ?_ ?_ ?_ <;> decide +kernel, by decide +kernel⟩,
   ⟨clearOf rfl (by decide +kernel), readableOf (by decide +kernel), rfl, by refine Stays.mk (⟨_, rfl⟩) ?_ ((by unfold Uncancelled; exact (by decide +kernel))) ?_ ?_ ?_ <;> decide +kernel, by decide +kernel⟩,
   ⟨clearOf rfl (by decide +kernel), readableOf (by decide +kernel), by decide +kernel⟩⟩

theorem test_wit_OrderedAccesses :
    (Clear (Instr.ldgAcq (OpR.mk 7#6 3#6 2#6 0#2)) (st LA) LA ∧
      Readable LA (st LA) 0#2 [3#6, 2#6] [7#6] ∧
      Alone LA (st LA) ∧
      Reaches LA (st LA) Need.read (srcVal LA (st LA) 0#2 3#6) 131072 ∧
      scopeOk LA (srcVal LA (st LA) 0#2 2#6) = true) ∧
    (Clear (Instr.stgRel (OpR.mk 8#6 3#6 2#6 0#2)) (st LA) LA ∧
      Readable LA (st LA) 0#2 [3#6, 2#6, 8#6] [] ∧
      Alone LA (st LA) ∧
      Reaches LA (st LA) Need.write (srcVal LA (st LA) 0#2 3#6) 131072 ∧
      scopeOk LA (srcVal LA (st LA) 0#2 2#6) = true) ∧
    (Clear (Instr.ldgSc (OpR.mk 7#6 3#6 2#6 0#2)) (st LA) LA ∧
      Readable LA (st LA) 0#2 [3#6, 2#6] [7#6] ∧
      Alone LA (st LA) ∧
      Reaches LA (st LA) Need.read (srcVal LA (st LA) 0#2 3#6) 131072 ∧
      scopeOk LA (srcVal LA (st LA) 0#2 2#6) = true ∧
      (st LA).threads = [LA]) ∧
    (Clear (Instr.stgSc (OpR.mk 8#6 3#6 2#6 0#2)) (st LA) LA ∧
      Readable LA (st LA) 0#2 [3#6, 2#6, 8#6] [] ∧
      Alone LA (st LA) ∧
      Reaches LA (st LA) Need.write (srcVal LA (st LA) 0#2 3#6) 131072 ∧
      scopeOk LA (srcVal LA (st LA) 0#2 2#6) = true ∧
      (st LA).threads = [LA]) :=
  ⟨⟨clearOf rfl (by decide +kernel), readableOf (by decide +kernel), by refine Alone.mk (by refine Stays.mk (⟨_, rfl⟩) ?_ ((by unfold Uncancelled; exact (by decide +kernel))) ?_ ?_ ?_ <;> decide +kernel) ?_ ((by unfold RegionsDone; exact (by decide +kernel))) ?_ (noStoreBefore (by decide +kernel)) <;> decide +kernel, by refine Reaches.mk ?_ ?_ (⟨_, rfl, by decide +kernel⟩) ?_ ?_ ?_ <;> decide +kernel, by decide +kernel⟩,
   ⟨clearOf rfl (by decide +kernel), readableOf (by decide +kernel), by refine Alone.mk (by refine Stays.mk (⟨_, rfl⟩) ?_ ((by unfold Uncancelled; exact (by decide +kernel))) ?_ ?_ ?_ <;> decide +kernel) ?_ ((by unfold RegionsDone; exact (by decide +kernel))) ?_ (noStoreBefore (by decide +kernel)) <;> decide +kernel, by refine Reaches.mk ?_ ?_ (⟨_, rfl, by decide +kernel⟩) ?_ ?_ ?_ <;> decide +kernel, by decide +kernel⟩,
   ⟨clearOf rfl (by decide +kernel), readableOf (by decide +kernel), by refine Alone.mk (by refine Stays.mk (⟨_, rfl⟩) ?_ ((by unfold Uncancelled; exact (by decide +kernel))) ?_ ?_ ?_ <;> decide +kernel) ?_ ((by unfold RegionsDone; exact (by decide +kernel))) ?_ (noStoreBefore (by decide +kernel)) <;> decide +kernel, by refine Reaches.mk ?_ ?_ (⟨_, rfl, by decide +kernel⟩) ?_ ?_ ?_ <;> decide +kernel, by decide +kernel⟩,
   ⟨clearOf rfl (by decide +kernel), readableOf (by decide +kernel), by refine Alone.mk (by refine Stays.mk (⟨_, rfl⟩) ?_ ((by unfold Uncancelled; exact (by decide +kernel))) ?_ ?_ ?_ <;> decide +kernel) ?_ ((by unfold RegionsDone; exact (by decide +kernel))) ?_ (noStoreBefore (by decide +kernel)) <;> decide +kernel, by refine Reaches.mk ?_ ?_ (⟨_, rfl, by decide +kernel⟩) ?_ ?_ ?_ <;> decide +kernel, by decide +kernel⟩⟩

theorem test_wit_Fences :
    (Clear (Instr.fenceAcq (OpR.mk 0#6 2#6 0#6 0#2)) (st LA) LA ∧
      Readable LA (st LA) 0#2 [2#6] [] ∧
      Alone LA (st LA) ∧
      (Instr.fenceAcq (OpR.mk 0#6 2#6 0#6 0#2) = Instr.fenceAcq (OpR.mk 0#6 2#6 0#6 0#2) ∧ true = true ∨   Instr.fenceAcq (OpR.mk 0#6 2#6 0#6 0#2) = Instr.fenceRel (OpR.mk 0#6 2#6 0#6 0#2) ∧ true = false ∨     Instr.fenceAcq (OpR.mk 0#6 2#6 0#6 0#2) = Instr.fenceAr (OpR.mk 0#6 2#6 0#6 0#2) ∧ true = true) ∧
      scopeOk LA (srcVal LA (st LA) 0#2 2#6) = true) ∧
    (Clear (Instr.fenceSc (OpR.mk 0#6 2#6 0#6 0#2)) (st LA) LA ∧
      Readable LA (st LA) 0#2 [2#6] [] ∧
      Alone LA (st LA) ∧
      scopeOk LA (srcVal LA (st LA) 0#2 2#6) = true ∧
      (st LA).threads = [LA] ∧
      (st LA).cleared ≤ (st LA).now / 32) ∧
    (Clear (Instr.fenceRcpt (OpR.mk 0#6 2#6 0#6 0#2)) (st LA) LA ∧
      Readable LA (st LA) 0#2 [2#6] [] ∧
      Stays LA (st LA) ∧
      ((st LA).storesOf LA.tid).length ≤   (BitVec.toNat (srcVal LA (st LA) 0#2 2#6) % 2 ^ 16 + 2 ^ 16 -       (match (st LA).storesOf LA.tid with         | y :: tail => y.receipt         | [] => LA.next).toNat) %     2 ^ 16) ∧
    (Clear (Instr.rcptQ (OpR.mk 7#6 0#6 0#6 0#2)) (st LA) LA ∧
      Readable LA (st LA) 0#2 [] [7#6]) ∧
    (Clear (Instr.fenceSc (OpR.mk 0#6 10#6 0#6 0#2)) (st LL) LL ∧
      Readable LL (st LL) 0#2 [10#6] [] ∧
      (Instr.fenceSc (OpR.mk 0#6 10#6 0#6 0#2) = Instr.fenceAcq (OpR.mk 0#6 10#6 0#6 0#2) ∨   Instr.fenceSc (OpR.mk 0#6 10#6 0#6 0#2) = Instr.fenceRel (OpR.mk 0#6 10#6 0#6 0#2) ∨     Instr.fenceSc (OpR.mk 0#6 10#6 0#6 0#2) = Instr.fenceAr (OpR.mk 0#6 10#6 0#6 0#2) ∨       Instr.fenceSc (OpR.mk 0#6 10#6 0#6 0#2) = Instr.fenceSc (OpR.mk 0#6 10#6 0#6 0#2)) ∧
      scopeOk LL (srcVal LL (st LL) 0#2 10#6) = false) ∧
    (Clear (Instr.fenceRcpt (OpR.mk 0#6 6#6 0#6 0#2)) fences_1 (reg LM 6 (3 : Word)) ∧
      Readable (reg LM 6 (3 : Word)) fences_1 0#2 [6#6] [] ∧
      Stays (reg LM 6 (3 : Word)) fences_1 ∧
      (BitVec.toNat (srcVal (reg LM 6 (3 : Word)) fences_1 0#2 6#6) % 2 ^ 16 + 2 ^ 16 -       (match fences_1.storesOf (reg LM 6 (3 : Word)).tid with         | y :: tail => y.receipt         | [] => (reg LM 6 (3 : Word)).next).toNat) %     2 ^ 16 <   (fences_1.storesOf (reg LM 6 (3 : Word)).tid).length) :=
  ⟨⟨clearOf rfl (by decide +kernel), readableOf (by decide +kernel), by refine Alone.mk (by refine Stays.mk (⟨_, rfl⟩) ?_ ((by unfold Uncancelled; exact (by decide +kernel))) ?_ ?_ ?_ <;> decide +kernel) ?_ ((by unfold RegionsDone; exact (by decide +kernel))) ?_ (noStoreBefore (by decide +kernel)) <;> decide +kernel, by decide +kernel⟩,
   ⟨clearOf rfl (by decide +kernel), readableOf (by decide +kernel), by refine Alone.mk (by refine Stays.mk (⟨_, rfl⟩) ?_ ((by unfold Uncancelled; exact (by decide +kernel))) ?_ ?_ ?_ <;> decide +kernel) ?_ ((by unfold RegionsDone; exact (by decide +kernel))) ?_ (noStoreBefore (by decide +kernel)) <;> decide +kernel, by decide +kernel⟩,
   ⟨clearOf rfl (by decide +kernel), readableOf (by decide +kernel), by refine Stays.mk (⟨_, rfl⟩) ?_ ((by unfold Uncancelled; exact (by decide +kernel))) ?_ ?_ ?_ <;> decide +kernel, by decide +kernel⟩,
   ⟨clearOf rfl (by decide +kernel), readableOf (by decide +kernel)⟩,
   ⟨clearOf rfl (by decide +kernel), readableOf (by decide +kernel), by decide +kernel⟩,
   ⟨clearOf rfl (by decide +kernel), readableOf (by decide +kernel), by refine Stays.mk (⟨_, rfl⟩) ?_ ((by unfold Uncancelled; exact (by decide +kernel))) ?_ ?_ ?_ <;> decide +kernel, by decide +kernel⟩⟩

theorem test_wit_FenceTlbRemoves :
    (Clear (Instr.fenceTlb (OpR.mk 0#6 3#6 2#6 0#2)) (st LA) LA ∧
      Readable LA (st LA) 0#2 [3#6, 2#6] [] ∧
      Alone LA (st LA) ∧
      BitVec.toNat (srcVal LA (st LA) 0#2 3#6) < 2 ^ 52 ∧
      (st LA).threads = [LA] ∧
      (st LA).stores = [] ∧
      (st LA).tails = [] ∧
      (st LA).queries = []) ∧
    (Clear (Instr.fenceTlb (OpR.mk 0#6 14#6 2#6 0#2)) (st LL) LL ∧
      Readable LL (st LL) 0#2 [14#6, 2#6] [] ∧
      2 ^ 52 ≤ BitVec.toNat (srcVal LL (st LL) 0#2 14#6)) :=
  ⟨⟨clearOf rfl (by decide +kernel), readableOf (by decide +kernel), by refine Alone.mk (by refine Stays.mk (⟨_, rfl⟩) ?_ ((by unfold Uncancelled; exact (by decide +kernel))) ?_ ?_ ?_ <;> decide +kernel) ?_ ((by unfold RegionsDone; exact (by decide +kernel))) ?_ (noStoreBefore (by decide +kernel)) <;> decide +kernel, by decide +kernel⟩,
   ⟨clearOf rfl (by decide +kernel), readableOf (by decide +kernel), by decide +kernel⟩⟩

theorem test_wit_TaggedWordsTrap :
    (tagged (Instr.ldlFr (OpR.mk 7#6 1#6 0#6 0#2)) = some (OpR.mk 7#6 1#6 0#6 0#2, [], [7#6], some true, true, fun (v : Word) (x : Bool) (x_1 : Word) => (v, true, some v)) ∧
      Clear (Instr.ldlFr (OpR.mk 7#6 1#6 0#6 0#2)) (st LL) LL ∧
      Readable LL (st LL) 0#2 [1#6] [7#6] ∧
      BitVec.toNat (srcVal LL (st LL) 0#2 1#6) % 8 ≠ 0) ∧
    (tagged (Instr.stlXf (OpR.mk 0#6 9#6 2#6 0#2)) = some (OpR.mk 0#6 9#6 2#6 0#2, [2#6], [], none, false, fun (x : Word) (x_1 : Bool) (b : Word) => (b, true, none)) ∧
      Clear (Instr.stlXf (OpR.mk 0#6 9#6 2#6 0#2)) (st LL) LL ∧
      Readable LL (st LL) 0#2 [9#6, 2#6] [] ∧
      BitVec.toNat (srcVal LL (st LL) 0#2 9#6) % 8 = 0 ∧
      ((st LL).near LL).tagged ≤ BitVec.toNat (srcVal LL (st LL) 0#2 9#6)) :=
  ⟨⟨rfl, clearOf rfl (by decide +kernel), readableOf (by decide +kernel), by decide +kernel⟩,
   ⟨rfl, clearOf rfl (by decide +kernel), readableOf (by decide +kernel), by decide +kernel⟩⟩

theorem test_wit_GlobalLoads :
    (globalLoads (Instr.ldgD (OpI.mk 7#6 1#6 0#11)) = some (OpI.mk 7#6 1#6 0#11, 8, How.zero) ∧
      Clear (Instr.ldgD (OpI.mk 7#6 1#6 0#11)) (st LL) LL ∧
      Readable LL (st LL) 0#2 [1#6] [7#6] ∧
      LL.handler = none ∧
      BitVec.toNat (address (srcVal LL (st LL) 0#2 1#6) 0#11 8) % 8 ≠ 0) ∧
    (globalLoads (Instr.ldgD (OpI.mk 7#6 12#6 0#11)) = some (OpI.mk 7#6 12#6 0#11, 8, How.zero) ∧
      Clear (Instr.ldgD (OpI.mk 7#6 12#6 0#11)) (sT2 LL) LL ∧
      Readable LL (sT2 LL) 0#2 [12#6] [7#6] ∧
      LL.handler = none ∧
      BitVec.toNat (address (srcVal LL (sT2 LL) 0#2 12#6) 0#11 8) % 8 = 0 ∧
      (sT2 LL).translated LL Need.read (BitVec.toNat (address (srcVal LL (sT2 LL) 0#2 12#6) 0#11 8)) = true ∧
      (sT2 LL).access LL Need.read (BitVec.toNat (address (srcVal LL (sT2 LL) 0#2 12#6) 0#11 8)) 8 = Xlate.access) ∧
    (globalLoads (Instr.ldgD (OpI.mk 7#6 15#6 0#11)) = some (OpI.mk 7#6 15#6 0#11, 8, How.zero) ∧
      Clear (Instr.ldgD (OpI.mk 7#6 15#6 0#11)) (sT2 LL) LL ∧
      Readable LL (sT2 LL) 0#2 [15#6] [7#6] ∧
      Stays LL (sT2 LL) ∧
      LL.handler = none ∧
      BitVec.toNat (address (srcVal LL (sT2 LL) 0#2 15#6) 0#11 8) % 8 = 0 ∧
      (sT2 LL).translated LL Need.read (BitVec.toNat (address (srcVal LL (sT2 LL) 0#2 15#6) 0#11 8)) = false) ∧
    (globalLoads (Instr.ldgB (OpI.mk 7#6 3#6 3#11)) = some (OpI.mk 7#6 3#6 3#11, 1, How.signed) ∧
      Clear (Instr.ldgB (OpI.mk 7#6 3#6 3#11)) (st LM) LM ∧
      Readable LM (st LM) 0#2 [3#6] [7#6] ∧
      Stays LM (st LM) ∧
      LM.handler = none ∧
      (st LM).bufferOf LM.coreId = [] ∧
      (st LM).copyOf LM.coreId 131075 = none ∧
      (st LM).loadBefore LM.unit 131075 (st LM).nextId = false ∧
      BitVec.toNat (address (srcVal LM (st LM) 0#2 3#6) 3#11 1) % 1 = 0 ∧
      (st LM).translated LM Need.read (BitVec.toNat (address (srcVal LM (st LM) 0#2 3#6) 3#11 1)) = true ∧
      (st LM).access LM Need.read (BitVec.toNat (address (srcVal LM (st LM) 0#2 3#6) 3#11 1)) 1 = Xlate.ok 131075 Leaf2 ∧
      leafChk Leaf2 = false ∧
      (st LM).awake 131075 = true ∧
      (st LM).poison = []) :=
  ⟨⟨rfl, clearOf rfl (by decide +kernel), readableOf (by decide +kernel), by decide +kernel⟩,
   ⟨rfl, clearOf rfl (by decide +kernel), readableOf (by decide +kernel), by decide +kernel⟩,
   ⟨rfl, clearOf rfl (by decide +kernel), readableOf (by decide +kernel), by refine Stays.mk (⟨_, rfl⟩) ?_ ((by unfold Uncancelled; exact (by decide +kernel))) ?_ ?_ ?_ <;> decide +kernel, by decide +kernel⟩,
   ⟨rfl, clearOf rfl (by decide +kernel), readableOf (by decide +kernel), by refine Stays.mk (⟨_, rfl⟩) ?_ ((by unfold Uncancelled; exact (by decide +kernel))) ?_ ?_ ?_ <;> decide +kernel, by decide +kernel⟩⟩

theorem test_wit_GlobalStores :
    (Clear (Instr.stgD (OpS.mk 7#6 1#6 0#11)) (st LL) LL ∧
      Readable LL (st LL) 0#2 [1#6, 7#6] [] ∧
      globalStores (Instr.stgD (OpS.mk 7#6 1#6 0#11)) = some (OpS.mk 7#6 1#6 0#11, 8) ∧
      LL.handler = none ∧
      BitVec.toNat (address (srcVal LL (st LL) 0#2 1#6) 0#11 8) % 8 ≠ 0) ∧
    (Clear (Instr.stgD (OpS.mk 7#6 12#6 0#11)) (sT2 LL) LL ∧
      Readable LL (sT2 LL) 0#2 [12#6, 7#6] [] ∧
      globalStores (Instr.stgD (OpS.mk 7#6 12#6 0#11)) = some (OpS.mk 7#6 12#6 0#11, 8) ∧
      LL.handler = none ∧
      BitVec.toNat (address (srcVal LL (sT2 LL) 0#2 12#6) 0#11 8) % 8 = 0 ∧
      (sT2 LL).translated LL Need.write (BitVec.toNat (address (srcVal LL (sT2 LL) 0#2 12#6) 0#11 8)) = true ∧
      (sT2 LL).access LL Need.write (BitVec.toNat (address (srcVal LL (sT2 LL) 0#2 12#6) 0#11 8)) 8 = Xlate.access) ∧
    (Clear (Instr.stgD (OpS.mk 7#6 15#6 0#11)) (sT2 LL) LL ∧
      Readable LL (sT2 LL) 0#2 [15#6, 7#6] [] ∧
      Stays LL (sT2 LL) ∧
      globalStores (Instr.stgD (OpS.mk 7#6 15#6 0#11)) = some (OpS.mk 7#6 15#6 0#11, 8) ∧
      LL.handler = none ∧
      BitVec.toNat (address (srcVal LL (sT2 LL) 0#2 15#6) 0#11 8) % 8 = 0 ∧
      (sT2 LL).translated LL Need.write (BitVec.toNat (address (srcVal LL (sT2 LL) 0#2 15#6) 0#11 8)) = false) ∧
    (Clear (Instr.stgW (OpS.mk 2#6 6#6 0#11)) (st LM) LM ∧
      Readable LM (st LM) 0#2 [6#6, 2#6] [] ∧
      Stays LM (st LM) ∧
      globalStores (Instr.stgW (OpS.mk 2#6 6#6 0#11)) = some (OpS.mk 2#6 6#6 0#11, 4) ∧
      LM.handler = none ∧
      LM.coreId < 2048 ∧
      ((st LM).storesOf LM.tid).length < 64 ∧
      (∀ (x : Store), x ∈ (st LM).stores → x.id < (st LM).nextId) ∧
      (st LM).storeBefore LM.coreId 131080 (st LM).nextId = false ∧
      BitVec.toNat (address (srcVal LM (st LM) 0#2 6#6) 0#11 4) % 4 = 0 ∧
      (st LM).translated LM Need.write (BitVec.toNat (address (srcVal LM (st LM) 0#2 6#6) 0#11 4)) = true ∧
      (st LM).access LM Need.write (BitVec.toNat (address (srcVal LM (st LM) 0#2 6#6) 0#11 4)) 4 = Xlate.ok 131080 Leaf2 ∧
      leafChk Leaf2 = false ∧
      (st LM).bufferRoom 131080 = true) :=
  ⟨⟨clearOf rfl (by decide +kernel), readableOf (by decide +kernel), by decide +kernel⟩,
   ⟨clearOf rfl (by decide +kernel), readableOf (by decide +kernel), by decide +kernel⟩,
   ⟨clearOf rfl (by decide +kernel), readableOf (by decide +kernel), by refine Stays.mk (⟨_, rfl⟩) ?_ ((by unfold Uncancelled; exact (by decide +kernel))) ?_ ?_ ?_ <;> decide +kernel, by decide +kernel⟩,
   ⟨clearOf rfl (by decide +kernel), readableOf (by decide +kernel), by refine Stays.mk (⟨_, rfl⟩) ?_ ((by unfold Uncancelled; exact (by decide +kernel))) ?_ ?_ ?_ <;> decide +kernel, by decide +kernel⟩⟩

theorem test_wit_AtomicsPerform :
    (atomic (Instr.amoAdd (OpA.mk 8#6 1#6 0#6 0#2 0#2)) = some (OpA.mk 8#6 1#6 0#6 0#2 0#2, fun (old x x_1 : Word) => dn (BitVec.toNat old + BitVec.toNat x)) ∧
      Clear (Instr.amoAdd (OpA.mk 8#6 1#6 0#6 0#2 0#2)) (st LL) LL ∧
      Readable LL (st LL) 0#2 (1#6 :: atomicReads (Instr.amoAdd (OpA.mk 8#6 1#6 0#6 0#2 0#2)) (OpA.mk 8#6 1#6 0#6 0#2 0#2)) [] ∧
      0#2 ≠ 3#2 ∧
      BitVec.toNat (srcVal LL (st LL) 0#2 1#6) % 8 ≠ 0) ∧
    (atomic (Instr.amoAdd (OpA.mk 8#6 12#6 10#6 0#2 1#2)) = some (OpA.mk 8#6 12#6 10#6 0#2 1#2, fun (old x x_1 : Word) => dn (BitVec.toNat old + BitVec.toNat x)) ∧
      Clear (Instr.amoAdd (OpA.mk 8#6 12#6 10#6 0#2 1#2)) (st LL) LL ∧
      Readable LL (st LL) 0#2 (12#6 :: atomicReads (Instr.amoAdd (OpA.mk 8#6 12#6 10#6 0#2 1#2)) (OpA.mk 8#6 12#6 10#6 0#2 1#2)) [] ∧
      1#2 ≠ 3#2 ∧
      BitVec.toNat (srcVal LL (st LL) 0#2 12#6) % 8 = 0 ∧
      1#2 ≠ 0#2 ∧
      scopeOk LL (srcVal LL (st LL) 0#2 10#6) = false) ∧
    (atomic (Instr.amoAdd (OpA.mk 8#6 3#6 0#6 0#2 0#2)) = some (OpA.mk 8#6 3#6 0#6 0#2 0#2, fun (old x x_1 : Word) => dn (BitVec.toNat old + BitVec.toNat x)) ∧
      Clear (Instr.amoAdd (OpA.mk 8#6 3#6 0#6 0#2 0#2)) (st LA) LA ∧
      Readable LA (st LA) 0#2 (3#6 :: atomicReads (Instr.amoAdd (OpA.mk 8#6 3#6 0#6 0#2 0#2)) (OpA.mk 8#6 3#6 0#6 0#2 0#2)) [] ∧
      Alone LA (st LA) ∧
      Reaches LA (st LA) Need.atomic (srcVal LA (st LA) 0#2 3#6) 131072 ∧
      0#2 ≠ 3#2 ∧
      (0#2 ≠ 0#2 → scopeOk LA (srcVal LA (st LA) 0#2 0#6) = true)) :=
  ⟨⟨rfl, clearOf rfl (by decide +kernel), readableOf (by decide +kernel), by decide +kernel⟩,
   ⟨rfl, clearOf rfl (by decide +kernel), readableOf (by decide +kernel), by decide +kernel⟩,
   ⟨rfl, clearOf rfl (by decide +kernel), readableOf (by decide +kernel), by refine Alone.mk (by refine Stays.mk (⟨_, rfl⟩) ?_ ((by unfold Uncancelled; exact (by decide +kernel))) ?_ ?_ ?_ <;> decide +kernel) ?_ ((by unfold RegionsDone; exact (by decide +kernel))) ?_ (noStoreBefore (by decide +kernel)) <;> decide +kernel, by refine Reaches.mk ?_ ?_ (⟨_, rfl, by decide +kernel⟩) ?_ ?_ ?_ <;> decide +kernel, by decide +kernel⟩⟩

end W2

namespace W3

def H : Word := makeHandle 0 0 5 3
def note : Note := ⟨5, 0, .pending, 0, 0, false, none, [], [], false, 0⟩
def withN (n : Note) (s : State := S0) : State := cl0 s fun c => { c with notes := [n], gens := [(5,3)] }
def t1 : Thread := regs [(1, H.toNat), (2, 99), (3, 0x2000), (4, 5)]
def s1 : State := withN note (st t1)
def p1 : Pending := .touch true 1 5 H (some (.resolved 77))
def p2 : Pending := .touch true 1 5 H (some (.poisoned 4 77))
def p2c : Pending := .touch true 1 5 H (some .cancelled)
def p3 : Pending := .touch false 0 5 H (some (.poisoned 4 77))
def op (k : NoteKind) (w : Bool) : NoteOp := ⟨k, H, 42, 6, 1, 0, 0, w, [], false, none⟩
def sN (k : NoteKind) (w : Bool) (n : Note := note) (p : Pending := .note H 1 none) : State := { withN n (pend p) with noteOps := [op k w] }
def noteR : Note := { note with state := .resolved, value := 9 }
def pT : Pending := .touch true 1 5 H none
def wf : Wake := ⟨.future, 0, H, 0, false, false⟩
def noteW : Note := { note with waiters := [.thread 1] }
def tW : Thread := { T0 with run := .parked wf false }
def img : Nat := 16 + 2^32 * 0 + 2^192 * 11 + 2^224 * 22 + 2^256 * 33 + 2^288 * 44
def sS : State := spad (st t1) 0x2000 64 img
def rS : TaskRec := taskRecord img
def pS : Pending := .spawn false 1 5 0x2000 rS []
def J : Job := (S0.job? 0).getD (placedJob 0)
def held : Held := ⟨50, 0, 0x2000, rS, some H, 0, [], [], [], 1, 0, some 0, 3, 0, none, none, false⟩
def sH : State := cl0 S0 fun c => { c with records := [held] }
def p3h : Thread := csr (outT p3) fun c => { c with tbase := 0x8000 }
def sFull : State := cl0 (pend (.fnew 1 5)) fun c => { c with notes := List.replicate 65536 note }
def noteAnswers_0 : State := st (csr t1 fun c => { c with creq := true })
def noteAnswers_1 : Thread := csr t1 fun c => { c with creq := true }
def noteAnswers_3 : State := st { t1 with in1 := 8 }
def noteAnswers_4 : Thread := { t1 with in1 := 8 }
def notesChange_7 : State := { withN noteW (st tW) with noteOps := [op .resolve false] }

theorem test_wit_NoteOperations :
    (Clear (Instr.fres (OpQ.mk 0#6 4#6 2#6 0#2 false)) s1 t1 ∧
      Readable t1 s1 0#2 [4#6, 2#6] [] ∧
      Alone t1 s1 ∧
      transitions (Instr.fres (OpQ.mk 0#6 4#6 2#6 0#2 false)) = some (OpQ.mk 0#6 4#6 2#6 0#2 false, NoteKind.resolve, [2#6]) ∧
      s1.handleOk (srcVal t1 s1 0#2 4#6) = false) ∧
    (Clear (Instr.fres (OpQ.mk 0#6 1#6 2#6 0#2 false)) s1 t1 ∧
      Readable t1 s1 0#2 [1#6, 2#6] [] ∧
      Alone t1 s1 ∧
      transitions (Instr.fres (OpQ.mk 0#6 1#6 2#6 0#2 false)) = some (OpQ.mk 0#6 1#6 2#6 0#2 false, NoteKind.resolve, [2#6]) ∧
      s1.handleOk (srcVal t1 s1 0#2 1#6) = true) ∧
    (Awaits (Pending.note H 1#2 (some (NoteReply.won true))) (outT (Pending.note H 1#2 (some (NoteReply.won true)))) (pend (Pending.note H 1#2 (some (NoteReply.won true))))) ∧
    (Clear (Instr.frel (OpQ.mk 0#6 1#6 0#6 0#2 false)) s1 t1 ∧
      Readable t1 s1 0#2 [1#6] [] ∧
      s1.handleOk (srcVal t1 s1 0#2 1#6) = true) ∧
    (Clear (Instr.touch (OpQ.mk 5#6 1#6 0#6 0#2 false)) s1 t1 ∧
      Readable t1 s1 0#2 [1#6] [5#6] ∧
      Alone t1 s1 ∧
      (Instr.touch (OpQ.mk 5#6 1#6 0#6 0#2 false) = Instr.touch (OpQ.mk 5#6 1#6 0#6 0#2 false) ∧ false = false ∨   Instr.touch (OpQ.mk 5#6 1#6 0#6 0#2 false) = Instr.touchP (OpQ.mk 5#6 1#6 0#6 0#2 false) ∧ false = true) ∧
      s1.handleOk (srcVal t1 s1 0#2 1#6) = true) ∧
    (Clear (Instr.touch (OpQ.mk 5#6 4#6 0#6 0#2 false)) s1 t1 ∧
      Readable t1 s1 0#2 [4#6] [5#6] ∧
      (Instr.touch (OpQ.mk 5#6 4#6 0#6 0#2 false) = Instr.touch (OpQ.mk 5#6 4#6 0#6 0#2 false) ∨   Instr.touch (OpQ.mk 5#6 4#6 0#6 0#2 false) = Instr.touchP (OpQ.mk 5#6 4#6 0#6 0#2 false)) ∧
      s1.handleOk (srcVal t1 s1 0#2 4#6) = false) :=
  ⟨⟨clearOf rfl (by decide +kernel), readableOf (by decide +kernel), by refine Alone.mk (by refine Stays.mk (⟨_, rfl⟩) ?_ ((by unfold Uncancelled; exact (by decide +kernel))) ?_ ?_ ?_ <;> decide +kernel) ?_ ((by unfold RegionsDone; exact (by decide +kernel))) ?_ (noStoreBefore (by decide +kernel)) <;> decide +kernel, by decide +kernel⟩,
   ⟨clearOf rfl (by decide +kernel), readableOf (by decide +kernel), by refine Alone.mk (by refine Stays.mk (⟨_, rfl⟩) ?_ ((by unfold Uncancelled; exact (by decide +kernel))) ?_ ?_ ?_ <;> decide +kernel) ?_ ((by unfold RegionsDone; exact (by decide +kernel))) ?_ (noStoreBefore (by decide +kernel)) <;> decide +kernel, by decide +kernel⟩,
   awaitsOf rfl rfl (by decide +kernel),
   ⟨clearOf rfl (by decide +kernel), readableOf (by decide +kernel), by decide +kernel⟩,
   ⟨clearOf rfl (by decide +kernel), readableOf (by decide +kernel), by refine Alone.mk (by refine Stays.mk (⟨_, rfl⟩) ?_ ((by unfold Uncancelled; exact (by decide +kernel))) ?_ ?_ ?_ <;> decide +kernel) ?_ ((by unfold RegionsDone; exact (by decide +kernel))) ?_ (noStoreBefore (by decide +kernel)) <;> decide +kernel, by decide +kernel⟩,
   ⟨clearOf rfl (by decide +kernel), readableOf (by decide +kernel), by decide +kernel⟩⟩

theorem test_wit_NoteAnswers :
    (Awaits (Pending.touch true 1#2 5#6 H (some (NoteReply.resolved (77 : Word)))) (outT p1) (pend p1) ∧
      Writable (outT p1) (pend p1) 5#6) ∧
    (Awaits (Pending.touch true 1#2 5#6 H (some (NoteReply.poisoned 4#8 (77 : Word)))) (outT p2) (pend p2) ∧
      Writable (outT p2) (pend p2) 5#6) ∧
    (Awaits (Pending.touch true 1#2 5#6 H (some NoteReply.cancelled)) (outT p2c) (pend p2c) ∧
      Writable (outT p2c) (pend p2c) 5#6) ∧
    (Clear (Instr.fcanq (OpQ.mk 0#6 0#6 0#6 1#2 false)) noteAnswers_0 noteAnswers_1) ∧
    (Clear (Instr.fq (OpQ.mk 5#6 1#6 0#6 0#2 false)) s1 t1 ∧
      Readable t1 s1 0#2 [1#6] [5#6] ∧
      Alone t1 s1 ∧
      s1.handleOk (srcVal t1 s1 0#2 1#6) = true) ∧
    (Awaits (Pending.fq H 5#6) (outT (Pending.fq H 5#6)) (pend (Pending.fq H 5#6) (withN note)) ∧
      Writable (outT (Pending.fq H 5#6)) (pend (Pending.fq H 5#6) (withN note)) 5#6 ∧
      (pend (Pending.fq H 5#6) (withN note)).isHere H = true) ∧
    (Clear (Instr.ftaskQ (OpQ.mk 5#6 0#6 2#6 0#2 false)) noteAnswers_3 noteAnswers_4 ∧
      Readable noteAnswers_4 noteAnswers_3 0#2 [] [5#6]) ∧
    (Awaits (Pending.touch false 0#2 5#6 H (some (NoteReply.poisoned 4#8 (77 : Word)))) p3h (st p3h) ∧
      HasHandler p3h ∧
      (NoteReply.poisoned 4#8 (77 : Word) = NoteReply.poisoned 4#8 (77 : Word) ∧ false = false ∧ 8#8 = 8#8 ∨   NoteReply.poisoned 4#8 (77 : Word) = NoteReply.cancelled ∧ false = false ∧ 8#8 = 9#8 ∨ NoteReply.poisoned 4#8 (77 : Word) = NoteReply.badHandle ∧ 8#8 = 10#8)) :=
  ⟨⟨awaitsOf rfl rfl (by decide +kernel), (by unfold Writable; exact (by decide +kernel))⟩,
   ⟨awaitsOf rfl rfl (by decide +kernel), (by unfold Writable; exact (by decide +kernel))⟩,
   ⟨awaitsOf rfl rfl (by decide +kernel), (by unfold Writable; exact (by decide +kernel))⟩,
   clearOf rfl (by decide +kernel),
   ⟨clearOf rfl (by decide +kernel), readableOf (by decide +kernel), by refine Alone.mk (by refine Stays.mk (⟨_, rfl⟩) ?_ ((by unfold Uncancelled; exact (by decide +kernel))) ?_ ?_ ?_ <;> decide +kernel) ?_ ((by unfold RegionsDone; exact (by decide +kernel))) ?_ (noStoreBefore (by decide +kernel)) <;> decide +kernel, by decide +kernel⟩,
   ⟨awaitsOf rfl rfl (by decide +kernel), (by unfold Writable; exact (by decide +kernel)), by decide +kernel⟩,
   ⟨clearOf rfl (by decide +kernel), readableOf (by decide +kernel)⟩,
   ⟨awaitsOf rfl rfl (by decide +kernel), by refine HasHandler.mk ?_ ?_ ?_ ?_ ?_ <;> decide +kernel, by decide +kernel⟩⟩

theorem test_wit_NotesChange :
    (Arriving (sN NoteKind.resolve true) 0 (op NoteKind.resolve true) note ∧
      newNote (op NoteKind.resolve true) = some (NoteState.resolved, 0#8, (op NoteKind.resolve true).value) ∧
      note.state = NoteState.pending ∧
      note.waiters = [] ∧
      note.relq = false ∧
      note.task = none) ∧
    (Arriving (sN NoteKind.resolveFirst true noteR) 0 (op NoteKind.resolveFirst true) noteR ∧
      (newNote (op NoteKind.resolveFirst true)).isSome = true ∧
      noteR.state ≠ NoteState.pending) ∧
    (Arriving (sN NoteKind.free false noteR) 0 (op NoteKind.free false) noteR ∧
      (op NoteKind.free false).kind = NoteKind.free ∧
      (op NoteKind.free false).wants = false ∧
      noteR.state ≠ NoteState.pending) ∧
    (Arriving (sN NoteKind.touch true note pT) 0 (op NoteKind.touch true) note ∧
      (sN NoteKind.touch true note pT).thread? (op NoteKind.touch true).tid = some (outT pT) ∧
      (op NoteKind.touch true).kind = NoteKind.touch ∧
      (outT pT).run = Run.out W0 (Pending.touch true 1#2 5#6 (op NoteKind.touch true).handle none) ∧
      (outT pT).evicted = false ∧
      note.state = NoteState.pending ∧
      note.waiters = []) ∧
    (Arriving (sN NoteKind.touch true noteR pT) 0 (op NoteKind.touch true) noteR ∧
      (sN NoteKind.touch true noteR pT).thread? (op NoteKind.touch true).tid = some (outT pT) ∧
      (op NoteKind.touch true).kind = NoteKind.touch ∧
      (outT pT).run = Run.out W0 (Pending.touch true 1#2 5#6 (op NoteKind.touch true).handle none) ∧
      (outT pT).evicted = false ∧
      noteR.state = NoteState.resolved) ∧
    (Arriving notesChange_7 0 (op NoteKind.resolve false) noteW ∧
      notesChange_7.thread? tW.tid = some tW ∧
      newNote (op NoteKind.resolve false) = some (NoteState.resolved, 0#8, (op NoteKind.resolve false).value) ∧
      noteW.state = NoteState.pending ∧
      noteW.waiters = [Waiter.thread tW.tid] ∧
      noteW.relq = false ∧
      noteW.task = none ∧
      tW.run = Run.parked wf false ∧
      wf.kind = WakeKind.future ∧
      wf.operand = (op NoteKind.resolve false).handle ∧
      (op NoteKind.resolve false).wants = false) :=
  ⟨⟨by refine Arriving.mk ?_ ?_ ?_ ?_ ?_ ?_ ?_ <;> decide +kernel, by decide +kernel⟩,
   ⟨by refine Arriving.mk ?_ ?_ ?_ ?_ ?_ ?_ ?_ <;> decide +kernel, by decide +kernel⟩,
   ⟨by refine Arriving.mk ?_ ?_ ?_ ?_ ?_ ?_ ?_ <;> decide +kernel, by decide +kernel⟩,
   ⟨by refine Arriving.mk ?_ ?_ ?_ ?_ ?_ ?_ ?_ <;> decide +kernel, rfl, by decide +kernel⟩,
   ⟨by refine Arriving.mk ?_ ?_ ?_ ?_ ?_ ?_ ?_ <;> decide +kernel, rfl, by decide +kernel⟩,
   ⟨by refine Arriving.mk ?_ ?_ ?_ ?_ ?_ ?_ ?_ <;> decide +kernel, rfl, by decide +kernel⟩⟩

theorem test_wit_FnewAllocates :
    (Clear (Instr.fnew (OpQ.mk 5#6 0#6 0#6 1#2 false)) s1 t1 ∧
      Readable t1 s1 0#2 [] [5#6] ∧
      Alone t1 s1) ∧
    (Awaits (Pending.fnew 1#2 5#6) (outT (Pending.fnew 1#2 5#6)) (pend (Pending.fnew 1#2 5#6) (withN note)) ∧
      Writable (outT (Pending.fnew 1#2 5#6)) (pend (Pending.fnew 1#2 5#6) (withN note)) 5#6 ∧
      (∀ (i : Nat), lookupD ((pend (Pending.fnew 1#2 5#6) (withN note)).cluster (outT (Pending.fnew 1#2 5#6)).cluster).gens i 0 < 2 ^ 24) ∧
      (outT (Pending.fnew 1#2 5#6)).cluster < 128 ∧
      ((pend (Pending.fnew 1#2 5#6) (withN note)).cluster (outT (Pending.fnew 1#2 5#6)).cluster).owner = some (outT (Pending.fnew 1#2 5#6)).ctx ∧
      ((pend (Pending.fnew 1#2 5#6) (withN note)).cluster (outT (Pending.fnew 1#2 5#6)).cluster).notes.length < 65536 ∧
      (List.filter (fun (n : Note) => !n.spilled) ((pend (Pending.fnew 1#2 5#6) (withN note)).cluster (outT (Pending.fnew 1#2 5#6)).cluster).notes).length < 4096) ∧
    (Awaits (Pending.fnew 1#2 5#6) (outT (Pending.fnew 1#2 5#6)) sFull ∧
      Writable (outT (Pending.fnew 1#2 5#6)) sFull 5#6 ∧
      65536 ≤ (sFull.cluster (outT (Pending.fnew 1#2 5#6)).cluster).notes.length) :=
  ⟨⟨clearOf rfl (by decide +kernel), readableOf (by decide +kernel), by refine Alone.mk (by refine Stays.mk (⟨_, rfl⟩) ?_ ((by unfold Uncancelled; exact (by decide +kernel))) ?_ ?_ ?_ <;> decide +kernel) ?_ ((by unfold RegionsDone; exact (by decide +kernel))) ?_ (noStoreBefore (by decide +kernel)) <;> decide +kernel⟩,
   ⟨awaitsOf rfl rfl (by decide +kernel), (by unfold Writable; exact (by decide +kernel)), gensSmall _ (by decide +kernel), by decide +kernel⟩,
   ⟨awaitsOf rfl rfl (by decide +kernel), (by unfold Writable; exact (by decide +kernel)), by decide +kernel⟩⟩

theorem test_wit_SpawnStarts :
    (Clear (Instr.spawn (OpQ.mk 5#6 3#6 0#6 1#2 false)) sS t1 ∧
      Readable t1 sS 0#2 [3#6] [5#6] ∧
      Alone t1 sS ∧
      recordStop (srcVal t1 sS 0#2 3#6) t1 sS = none) ∧
    (Awaits (Pending.spawn false 1#2 5#6 8192 rS []) (outT pS) (pend pS sS) ∧
      Writable (outT pS) (pend pS sS) 5#6 ∧
      (pend pS sS).job? (outT pS).ctx = some J ∧
      (outT pS).isFw = false ∧
      rS.subs = [] ∧
      rS.deps = [] ∧
      (∀ (u : Thread), u ∈ (pend pS sS).threads → u.tid < (pend pS sS).nextTid) ∧
      ((pend pS sS).cluster (outT pS).cluster).owner = some (outT pS).ctx ∧
      ((pend pS sS).cluster (outT pS).cluster).notes.length < 65536 ∧
      (List.filter (fun (n : Note) => !n.spilled) ((pend pS sS).cluster (outT pS).cluster).notes).length < 4096 ∧
      (pend pS sS).walkPlace (outT pS).ctx rS (rS.hintCore (outT pS).coreId) (outT pS).cluster = some (0, 0)) :=
  ⟨⟨clearOf rfl (by decide +kernel), readableOf (by decide +kernel), by refine Alone.mk (by refine Stays.mk (⟨_, rfl⟩) ?_ ((by unfold Uncancelled; exact (by decide +kernel))) ?_ ?_ ?_ <;> decide +kernel) ?_ ((by unfold RegionsDone; exact (by decide +kernel))) ?_ (noStoreBefore (by decide +kernel)) <;> decide +kernel, by decide +kernel⟩,
   ⟨awaitsOf rfl rfl (by decide +kernel), (by unfold Writable; exact (by decide +kernel)), rfl, by decide +kernel⟩⟩

theorem test_wit_RecordDispatch :
    sH.job? held.ctx = some J ∧
      List.find? (fun (x : Held) => x.id == 50) (sH.cluster 0).records = some held ∧
      held.id = 50 ∧
      held.readyAt.isSome = true ∧
      0 < 7 ∧
      sH.storePlace held.ctx held.r held.hint = some (0, 0) ∧
      foremost (sH.recordKey 0 held) (sH.rivals held.ctx 0 0 true) = true ∧
      sH.thread? held.id = none :=
  ⟨rfl, by decide +kernel⟩

end W3

namespace W4

def x0 : Xfer := ⟨9, 0, 1, 0, 5, .put, 0, 0x2000, 0, 0, false, 64, none, 0, [⟨131072, 64, 0⟩], 0, [], 0, 0, []⟩
def tX : Thread := { T0 with tagCount := [(5,1)] }
def sX (x : Xfer) : State := (spad (st tX) 0x2000 64 0x1122334455667788990011223344).modCore 0 fun c => { c with xq := [x] }
def tE : Thread := regs [(1,0x2000),(2,131072 + 64),(3,300), (4, 2*2^36+5)]
def Q : Nat := 0x40000
def qd (s : State) (resv tail head base cfg map wake : Nat) : State := wm s Q 56 (resv + 2^64*tail + 2^128*head + 2^192*base + 2^256*cfg + 2^320*map + 2^384*wake)
def sQ (s : State) : State := qd s 1 1 0 0x50000 2 (2^63 + 5) 0
def dq (s : State) : QDesc := (s.qdesc 0 Q).getD ⟨0,0,0,0,0,0,0⟩
def tQ : Thread := regs [(1,Q),(2,0x3000),(3,5)]
def Qp : Nat := Q
def pP : Pending := .qpush false 1 5 0x40000 Qp 3 0x3000 false (0x50000, 0x50000) []
def pPn : Pending := .qpush true 1 5 0x40000 Qp 3 0x3000 false (0x50000, 0x50000) []
def sQf (s : State) : State := qd s 4 4 0 0x50000 2 (2^63 + 5) 0
def pW : Pending := .qput 1 5 0x40000 Qp 3 1 0xABCDEF (0x50040, 0x50040)
def sQp (s : State) : State := qd s 2 1 0 0x50000 2 (2^63 + 5) 0
def pO : Pending := .qpop false 1 5 0x40000 Qp 3 0x3000 false
def pOn : Pending := .qpop true 1 5 0x40000 Qp 3 0x3000 false
def sQo (s : State) : State := wm (sQ s) 0x50000 64 (2^64 * 0xFEED)
def sQe (s : State) : State := qd s 1 1 1 0x50000 2 (2^63 + 5) 0
def sQu (s : State) : State := qd s 1 1 1 0x50000 2 0 0
def J : Job := (S0.job? 0).getD (placedJob 0)
def tailop : TailOp := ⟨0, Q, 2, some Q, 1, 1, []⟩
def sTl : State := { sQ S0 with tails := [tailop] }
def wq : Wake := ⟨.queue, 0, 0x40000, 0, false, false⟩
def tP : Thread := { T0 with run := .parked wq false }
def sPoll : State := cl0 { sQo (st tP) with qwaits := [⟨.pop 0 Q, 1, none, none, false⟩] } fun c => { c with slots := [⟨5, 0, Q, 0⟩] }
def sMap : State := { sQu S0 with jobs := [{ J with mapAsked := [Q] }] }
def slots64 : List MapSlot := (List.range 64).map fun i => ⟨i, 0, Q + 64 * i, i⟩
def Q2 : Nat := Q + 64 * 100
def sUn : State := cl0 { wm (sQ S0) Q2 56 (1 + 2^64 + 2^128 + 2^192*0x50000 + 2^256*2) with jobs := [{ J with mapAsked := [Q2] }] } fun c => { c with slots := slots64 }
def sSp : State := cl0 (wm (qd S0 1 1 0 0x50000 (2 + 256) (2^63 + 5) 0) 0x50000 64 (2^64 * (64 + 2^128 * 0x77))) fun c => { c with slots := [⟨5, 0, Q, 0⟩] }
def ch : Chan := ⟨2, 3, 4, 4, 0x10000, 0, 5, 3, 2, false, [], [], none, none⟩
def g3 : Stage := ⟨3, 64, 0, 0, 1, 0, 0, [1], false⟩
def g4 : Stage := ⟨4, 64, 0, 0, 1, 0, 0, [], false⟩
def P (c : Chan) : Pipeline := ⟨7, 0, 0x60000, 0, 8, true, 0, [g3, g4], [c], []⟩
def cT (stage : Nat) (t : Thread := T0) : Thread := csr { t with pipeline := some 7 } fun c => { c with stage := BitVec.ofNat 4 stage }
def sC (t : Thread) (c : Chan := ch) : State := { st t with pipelines := [P c] }
def t3 : Thread := cT 3 (regs [(1,2),(2,0x3000)])
def t4 : Thread := cT 4 (regs [(1,2),(2,0x3000)])
def tcq : Thread := cT 3 (outT (.chq 5 2))
def tcs (n : Bool) : Thread := cT 3 (outT (.chsend n 1 2 0x3000 []))
def tcr (n : Bool) : Thread := cT 4 (outT (.chrecv n 1 5 2 0x3000))
def sCr (t : Thread) (c : Chan := ch) : State := cl0 (sC t c) fun k => { k with tile := Memory.write [] (0x10000 + 64*3) 64 0xFEEDBEEF }
def LfQ : Word := BitVec.ofNat 64 (0x40000 + 0x1F)
def LfR : Word := BitVec.ofNat 64 (0x50000 + 0x1F)
def tlbQ (s : State) : State := { s with tlb := ⟨.dtlb 0, 0, 3, 0x40000, LfQ⟩ :: ⟨.dtlb 0, 0, 3, 0x50000, LfR⟩ :: s.tlb }
def sXn (x : Xfer) : State := { sX x with tlb := ⟨.dtlb 0, 0, 3, 0x30000, BitVec.ofNat 64 (0x30000 + 3)⟩ :: (sX x).tlb }
def xN : Xfer := { x0 with pieces := [⟨0x30000, 64, 0⟩] }
def tQm : Thread := regs [(1,Q+8),(2,0x3000),(3,5)]
def tQa : Thread := regs [(1,0x60000),(2,0x3000),(3,5)]
def sQa : State := { sQ (st tQa) with tlb := ⟨.dtlb 0, 0, 3, 0x60000, BitVec.ofNat 64 (0x60000 + 3)⟩ :: S0.tlb }
def transfersPerform_0 : Xfer := {x0 with kind := .get}
def transfersPerform_1 : State := sX {x0 with kind := .get}
def transfersPerform_2 : Xfer := {x0 with pieces := []}
def transfersPerform_3 : State := sX {x0 with pieces := []}
def queueServices_4 : State := { S0 with cycle := 5000, qwaits := [⟨.pop 0 Q, 1, some 0, none, false⟩] }
def queueServices_5 : Job := { J with mapAsked := [Q] }
def queueServices_6 : Job := { J with mapAsked := [Q2] }
def queueServices_7 : QDesc := (sUn.qdesc 0 Q2).getD ⟨0,0,0,0,0,0,0⟩
def channels_8 : Chan := {ch with gone := true}
def channels_10 : State := sC (tcs false) {ch with gone := true}
def channels_11 : Chan := {ch with sent := 7}
def channels_13 : Chan := {ch with sent := 3, opened := 0}
def channels_14 : State := sCr (tcr false) {ch with sent := 3, opened := 0}
def channels_15 : Chan := {ch with sent := 3}
def channels_16 : State := sCr (tcr true) {ch with sent := 3}
def channels_17 : State := sC (tcs false) {ch with sent := 7}
def channels_18 : State := sCr (tcr false) {ch with sent := 3}

theorem test_wit_TransfersPerform :
    (transfersPerform_3.thread? transfersPerform_2.tid = some tX ∧
      (∀ (w : Wake) (p : Option Pending) (f : Bool) (va : Nat) (m : Bool), tX.run ≠ Run.saving w p f va m) ∧
      transfersPerform_3.xfer? 0 9 = some transfersPerform_2 ∧
      transfersPerform_2.core = 0 ∧
      transfersPerform_2.pieces = [] ∧
      (transfersPerform_2.kind = XKind.put ∨ transfersPerform_2.kind = XKind.get ∨ transfersPerform_2.kind = XKind.gather ∨ transfersPerform_2.kind = XKind.scatter) ∧
      transfersPerform_2.space ≠ 2 ∧
      tX.evicted = false ∧
      lookupD tX.tagCount transfersPerform_2.tag 0 = 1 ∧
      transfersPerform_2.tag < 64) ∧
    (soundRange ((sX x0).core 0).spadUE 8 (x0.addr + 0) 64 ∧
      ((sX x0).xfer? 0 9 = some x0 ∧ x0.core = 0 ∧ x0.pieces[0]? = some (Piece.mk 131072 64 0) ∧ 0 < 64 ∧ x0.codec = false ∧ x0.space = 0 ∧ x0.bar = none ∧ x0.early = [] ∧ leafChk Leaf2 = false ∧ (sX x0).bufferRoom 131072 = true ∧ (∀ (t : Thread), (sX x0).thread? x0.tid = some t → t.evicted = false) ∧ (x0.kind = XKind.put ∨ x0.kind = XKind.scatter ∧ x0.pieces = [Piece.mk 131072 64 0])) ∧
      (sX x0).xlate x0.ctx (some 0) Need.write 131072 = Xlate.ok 131072 Leaf2) ∧
    ((transfersPerform_1.xfer? 0 9 = some transfersPerform_0 ∧ transfersPerform_0.core = 0 ∧ transfersPerform_0.pieces[0]? = some (Piece.mk 131072 64 0) ∧ 0 < 64 ∧ transfersPerform_0.codec = false ∧ transfersPerform_0.space = 0 ∧ transfersPerform_0.bar = none ∧ transfersPerform_0.early = [] ∧ leafChk Leaf2 = false ∧ transfersPerform_1.bufferRoom 131072 = true ∧ (∀ (t : Thread), transfersPerform_1.thread? transfersPerform_0.tid = some t → t.evicted = false) ∧ (transfersPerform_0.kind = XKind.get ∨ transfersPerform_0.kind = XKind.gather)) ∧
      transfersPerform_1.xlate transfersPerform_0.ctx (some 0) Need.read 131072 = Xlate.ok 131072 Leaf2 ∧
      transfersPerform_1.poison = []) ∧
    ((sXn xN).xfer? 0 9 = some xN ∧
      xN.core = 0 ∧
      xN.pieces[0]? = some (Piece.mk 196608 64 0) ∧
      0 < 64 ∧
      xN.codec = false ∧
      xN.kind = XKind.put ∧
      (sXn xN).xlate xN.ctx (some 0) Need.write 196608 = Xlate.access) :=
  ⟨⟨rfl, (fun w p f va m h => Bool.noConfusion ((show isSaving tX.run = false by decide +kernel).symm.trans (congrArg isSaving h))), by decide +kernel⟩,
   ⟨(by unfold soundRange; exact (by decide +kernel)), by decide +kernel, by decide +kernel⟩,
   ⟨by decide +kernel, by decide +kernel⟩,
   by decide +kernel⟩

theorem test_wit_TransfersEnter :
    Clear (Instr.xput (OpX.mk 1#6 2#6 3#6 5#6)) (st tE) tE ∧
      Readable tE (st tE) 0#2 [1#6, 2#6, 3#6] [] ∧
      transfers (Instr.xput (OpX.mk 1#6 2#6 3#6 5#6)) = some (OpX.mk 1#6 2#6 3#6 5#6, 0) ∧
      tE.isFw = false :=
  ⟨clearOf rfl (by decide +kernel), readableOf (by decide +kernel), by decide +kernel⟩

theorem test_wit_QueuePush :
    (Awaits (Pending.qpush false 1#2 5#6 (262144 : Word) Qp 3 12288 false (327680, 327680) []) (outT pP) (sQ (pend pP)) ∧
      soundRange ((sQ (pend pP)).near (outT pP)).bad 8 (12288 + 8) 56 ∧
      (sQ (pend pP)).bufferRoom Qp = true ∧
      (sQ (pend pP)).qwaits = [] ∧
      BitVec.toNat (((sQ (pend pP)).qdescAt Qp).resv - ((sQ (pend pP)).qdescAt Qp).head) < ((sQ (pend pP)).qdescAt Qp).slots) ∧
    (Awaits (Pending.qpush true 1#2 5#6 (262144 : Word) Qp 3 12288 false (327680, 327680) []) (outT pPn) (sQf (pend pPn)) ∧
      soundRange ((sQf (pend pPn)).near (outT pPn)).bad 8 (12288 + 8) 56 ∧
      Writable (outT pPn) (sQf (pend pPn)) 5#6 ∧
      (sQf (pend pPn)).bufferRoom Qp = true ∧
      (sQf (pend pPn)).qwaits = [] ∧
      ((sQf (pend pPn)).qdescAt Qp).slots ≤ BitVec.toNat (((sQf (pend pPn)).qdescAt Qp).resv - ((sQf (pend pPn)).qdescAt Qp).head) ∧
      true = true) ∧
    (Awaits (Pending.qpush false 1#2 5#6 (262144 : Word) Qp 3 12288 false (327680, 327680) []) (outT pP) (sQf (pend pP)) ∧
      soundRange ((sQf (pend pP)).near (outT pP)).bad 8 (12288 + 8) 56 ∧
      (sQf (pend pP)).bufferRoom Qp = true ∧
      (sQf (pend pP)).qwaits = [] ∧
      ((sQf (pend pP)).qdescAt Qp).slots ≤ BitVec.toNat (((sQf (pend pP)).qdescAt Qp).resv - ((sQf (pend pP)).qdescAt Qp).head) ∧
      false = false) ∧
    (Awaits (Pending.qput 1#2 5#6 (262144 : Word) Qp 3 1 11259375 (327744, 327744)) (outT pW) (sQp (pend pW)) ∧
      Writable (outT pW) (sQp (pend pW)) 5#6 ∧
      TablesApart (sQp (pend pW)) (outT pW).ctx [327744, Qp] (queueVas (BitVec.toNat (262144 : Word)) ((sQp (pend pW)).qdescAt Qp)) ∧
      (sQp (pend pW)).bufferRoom 327744 = true ∧
      1 < 2 ^ 64 ∧
      11259375 < 2 ^ 448 ∧
      (327744 + 64 ≤ Qp ∨ Qp + 64 ≤ 327744) ∧
      (sQp (pend pW)).qmalformed (outT pW).ctx ((sQp (pend pW)).qdescAt Qp) = false ∧
      1 ≤ BitVec.toNat (dn 1 + 1#64 - ((sQp (pend pW)).qdescAt Qp).tail) ∧
      BitVec.toNat (dn 1 + 1#64 - ((sQp (pend pW)).qdescAt Qp).tail) ≤ ((sQp (pend pW)).qdescAt Qp).slots) ∧
    (Clear (Instr.qpush (OpQ.mk 5#6 1#6 2#6 1#2 false)) (sQ (st tQm)) tQm ∧
      Readable tQm (sQ (st tQm)) 0#2 [1#6, 2#6] [5#6] ∧
      BitVec.toNat (srcVal tQm (sQ (st tQm)) 0#2 1#6) % 64 ≠ 0) ∧
    (Clear (Instr.qpush (OpQ.mk 5#6 1#6 2#6 1#2 false)) sQa tQa ∧
      Readable tQa sQa 0#2 [1#6, 2#6] [5#6] ∧
      BitVec.toNat (srcVal tQa sQa 0#2 1#6) % 64 = 0 ∧
      sQa.translated tQa Need.atomic (BitVec.toNat (srcVal tQa sQa 0#2 1#6)) = true ∧
      sQa.access tQa Need.atomic (BitVec.toNat (srcVal tQa sQa 0#2 1#6)) 64 = Xlate.access) ∧
    (Clear (Instr.qpush (OpQ.mk 5#6 1#6 2#6 1#2 false)) (tlbQ (sQ (st tQ))) tQ ∧
      Readable tQ (tlbQ (sQ (st tQ))) 0#2 [1#6, 2#6] [5#6] ∧
      Alone tQ (tlbQ (sQ (st tQ))) ∧
      QueueReady tQ (tlbQ (sQ (st tQ))) Need.atomic (srcVal tQ (tlbQ (sQ (st tQ))) 0#2 1#6) (srcVal tQ (tlbQ (sQ (st tQ))) 0#2 2#6) Q ∧
      (tlbQ (sQ (st tQ))).access tQ Need.write (BitVec.toNat ((tlbQ (sQ (st tQ))).qdescAt Q).base) (64 * ((tlbQ (sQ (st tQ))).qdescAt Q).slots) = Xlate.ok 327680 LfR) :=
  ⟨⟨awaitsOf rfl rfl (by decide +kernel), (by unfold soundRange; exact (by decide +kernel)), by decide +kernel⟩,
   ⟨awaitsOf rfl rfl (by decide +kernel), (by unfold soundRange; exact (by decide +kernel)), (by unfold Writable; exact (by decide +kernel)), by decide +kernel⟩,
   ⟨awaitsOf rfl rfl (by decide +kernel), (by unfold soundRange; exact (by decide +kernel)), by decide +kernel⟩,
   ⟨awaitsOf rfl rfl (by decide +kernel), (by unfold Writable; exact (by decide +kernel)), (by unfold TablesApart; exact (tablesApart_root _ _ _ _ _ (by decide +kernel) rfl (by decide +kernel) (by decide +kernel) (by decide +kernel))), by decide +kernel⟩,
   ⟨clearOf rfl (by decide +kernel), readableOf (by decide +kernel), by decide +kernel⟩,
   ⟨clearOf rfl (by decide +kernel), readableOf (by decide +kernel), by decide +kernel⟩,
   ⟨clearOf rfl (by decide +kernel), readableOf (by decide +kernel), by refine Alone.mk (by refine Stays.mk (⟨_, rfl⟩) ?_ ((by unfold Uncancelled; exact (by decide +kernel))) ?_ ?_ ?_ <;> decide +kernel) ?_ ((by unfold RegionsDone; exact (by decide +kernel))) ?_ (noStoreBefore (by decide +kernel)) <;> decide +kernel, by refine QueueReady.mk ?_ ?_ (⟨_, rfl⟩) ?_ ?_ ?_ <;> decide +kernel, by decide +kernel⟩⟩

theorem test_wit_QueuePop :
    (Awaits (Pending.qpop false 1#2 5#6 (262144 : Word) Qp 3 12288 false) (outT pO) (sQo (pend pO)) ∧
      Writable (outT pO) (sQo (pend pO)) 5#6 ∧
      (outT pO).isFw = false ∧
      (sQo (pend pO)).bufferRoom Qp = true ∧
      (sQo (pend pO)).qwaits = [] ∧
      (sQo (pend pO)).qdesc (outT pO).ctx (BitVec.toNat (262144 : Word)) = some ((sQo (pend pO)).qdescAt Qp) ∧
      ((sQo (pend pO)).qdescAt Qp).mapped = true ∧
      BitVec.toNat ((sQo (pend pO)).qdescAt Qp).head < BitVec.toNat ((sQo (pend pO)).qdescAt Qp).tail ∧
      (sQo (pend pO)).jobPhys (outT pO).ctx (((sQo (pend pO)).qdescAt Qp).slotVa ((sQo (pend pO)).qdescAt Qp).head) = some 327680 ∧
      (sQo (pend pO)).awake 327680 = true ∧
      (sQo (pend pO)).poison = [] ∧
      (sQo (pend pO)).jobRead (outT pO).ctx (((sQo (pend pO)).qdescAt Qp).slotVa ((sQo (pend pO)).qdescAt Qp).head) 8 = BitVec.toNat ((sQo (pend pO)).qdescAt Qp).head) ∧
    (Awaits (Pending.qpop true 1#2 5#6 (262144 : Word) Qp 3 12288 false) (outT pOn) (sQe (pend pOn)) ∧
      Writable (outT pOn) (sQe (pend pOn)) 5#6 ∧
      (outT pOn).isFw = false ∧
      (sQe (pend pOn)).bufferRoom Qp = true ∧
      (sQe (pend pOn)).qwaits = [] ∧
      (sQe (pend pOn)).qdesc (outT pOn).ctx (BitVec.toNat (262144 : Word)) = some ((sQe (pend pOn)).qdescAt Qp) ∧
      ((sQe (pend pOn)).qdescAt Qp).mapped = true ∧
      BitVec.toNat ((sQe (pend pOn)).qdescAt Qp).tail ≤ BitVec.toNat ((sQe (pend pOn)).qdescAt Qp).head ∧
      true = true) ∧
    (Awaits (Pending.qpop false 1#2 5#6 (262144 : Word) Qp 3 12288 false) (outT pO) (sQe (pend pO)) ∧
      (outT pO).isFw = false ∧
      (sQe (pend pO)).bufferRoom Qp = true ∧
      (sQe (pend pO)).qwaits = [] ∧
      (sQe (pend pO)).qdesc (outT pO).ctx (BitVec.toNat (262144 : Word)) = some ((sQe (pend pO)).qdescAt Qp) ∧
      ((sQe (pend pO)).qdescAt Qp).mapped = true ∧
      BitVec.toNat ((sQe (pend pO)).qdescAt Qp).tail ≤ BitVec.toNat ((sQe (pend pO)).qdescAt Qp).head ∧
      false = false) ∧
    (Awaits (Pending.qpop false 1#2 5#6 (262144 : Word) Qp 3 12288 false) (outT pO) (sQu (pend pO)) ∧
      (sQu (pend pO)).job? (outT pO).ctx = some J ∧
      (sQu (pend pO)).bufferRoom Qp = true ∧
      (sQu (pend pO)).qwaits = [] ∧
      ((sQu (pend pO)).qdescAt Qp).mapped = false) ∧
    (Clear (Instr.qpop (OpQ.mk 5#6 1#6 2#6 1#2 false)) (sQ (st tQm)) tQm ∧
      Readable tQm (sQ (st tQm)) 0#2 [1#6, 2#6] [5#6] ∧
      BitVec.toNat (srcVal tQm (sQ (st tQm)) 0#2 1#6) % 64 ≠ 0) ∧
    (Clear (Instr.qpop (OpQ.mk 5#6 1#6 2#6 1#2 false)) sQa tQa ∧
      Readable tQa sQa 0#2 [1#6, 2#6] [5#6] ∧
      BitVec.toNat (srcVal tQa sQa 0#2 1#6) % 64 = 0 ∧
      sQa.translated tQa Need.atomic (BitVec.toNat (srcVal tQa sQa 0#2 1#6)) = true ∧
      sQa.access tQa Need.atomic (BitVec.toNat (srcVal tQa sQa 0#2 1#6)) 64 = Xlate.access) ∧
    (Clear (Instr.qpop (OpQ.mk 5#6 1#6 2#6 1#2 false)) (tlbQ (sQ (st tQ))) tQ ∧
      Readable tQ (tlbQ (sQ (st tQ))) 0#2 [1#6, 2#6] [5#6] ∧
      Alone tQ (tlbQ (sQ (st tQ))) ∧
      QueueReady tQ (tlbQ (sQ (st tQ))) Need.atomic (srcVal tQ (tlbQ (sQ (st tQ))) 0#2 1#6) (srcVal tQ (tlbQ (sQ (st tQ))) 0#2 2#6) Q ∧
      ((tlbQ (sQ (st tQ))).qdescAt Q).kind = 0) :=
  ⟨⟨awaitsOf rfl rfl (by decide +kernel), (by unfold Writable; exact (by decide +kernel)), by decide +kernel⟩,
   ⟨awaitsOf rfl rfl (by decide +kernel), (by unfold Writable; exact (by decide +kernel)), by decide +kernel⟩,
   ⟨awaitsOf rfl rfl (by decide +kernel), by decide +kernel⟩,
   ⟨awaitsOf rfl rfl (by decide +kernel), rfl, by decide +kernel⟩,
   ⟨clearOf rfl (by decide +kernel), readableOf (by decide +kernel), by decide +kernel⟩,
   ⟨clearOf rfl (by decide +kernel), readableOf (by decide +kernel), by decide +kernel⟩,
   ⟨clearOf rfl (by decide +kernel), readableOf (by decide +kernel), by refine Alone.mk (by refine Stays.mk (⟨_, rfl⟩) ?_ ((by unfold Uncancelled; exact (by decide +kernel))) ?_ ?_ ?_ <;> decide +kernel) ?_ ((by unfold RegionsDone; exact (by decide +kernel))) ?_ (noStoreBefore (by decide +kernel)) <;> decide +kernel, by refine QueueReady.mk ?_ ?_ (⟨_, rfl⟩) ?_ ?_ ?_ <;> decide +kernel, by decide +kernel⟩⟩

theorem test_wit_QueueServices :
    (TablesApart sTl tailop.ctx [Q] (queueVas tailop.q (sTl.qdescAt Q)) ∧
      sTl.tails = [tailop] ∧
      sTl.performed tailop.after = true ∧
      tailop.pa = some Q ∧
      sTl.awake Q = true ∧
      sTl.qmalformed tailop.ctx (sTl.qdescAt Q) = false ∧
      1 ≤ BitVec.toNat (tailop.v - (sTl.qdescAt Q).tail) ∧
      BitVec.toNat (tailop.v - (sTl.qdescAt Q).tail) ≤ (sTl.qdescAt Q).slots) ∧
    (sPoll.thread? tP.tid = some tP ∧
      (∃ (c : Cluster), c ∈ sPoll.clusters ∧ ∃ (m : MapSlot), m ∈ c.slots ∧ m.ctx = 0 ∧ m.q = Q) ∧
      sPoll.qwaits = [QWait.mk (QKey.pop 0 Q) tP.tid none none false] ∧
      tP.run = Run.parked wq false ∧
      0 < sPoll.queueUnits (QKey.pop 0 Q)) ∧
    (sMap.job? 0 = some queueServices_5 ∧
      TablesApart sMap 0 [Q] (queueVas Q (sMap.qdescAt Q)) ∧
      sMap.jobPhys 0 Q = some Q ∧
      Q ∈ queueServices_5.mapAsked ∧
      (sMap.qdescAt Q).mapped = false ∧
      sMap.qmalformed 0 (sMap.qdescAt Q) = false ∧
      sMap.mapsTo 0 (sMap.qdescAt Q) 0 7 = true ∧
      0 < 128 ∧
      Q % 64 = 0) ∧
    (sUn.job? 0 = some queueServices_6 ∧
      List.find? (fun (k : Cluster) => k.slots.any fun (m : MapSlot) => m.ctx == 0 && m.q == Q) sUn.clusters = some (sUn.cluster 0) ∧
      Q2 ∈ queueServices_6.mapAsked ∧
      sUn.qdesc 0 Q2 = some queueServices_7 ∧
      queueServices_7.mapped = false ∧
      (sUn.cluster 0).owner = some 0 ∧
      (∀ (k : Cluster), k ∈ sUn.clusters → k.owner = some 0 → 64 ≤ k.slots.length ∧ hops (sUn.cluster 0).id queueServices_7.wanted ≤ hops k.id queueServices_7.wanted) ∧
      (∃ (m : MapSlot), m ∈ (sUn.cluster 0).slots ∧ m.ctx = 0 ∧ m.q = Q ∧ ∀ (n : MapSlot), n ∈ (sUn.cluster 0).slots → m.last ≤ n.last)) ∧
    ((List.find? (fun (k : Cluster) => k.slots.any fun (m : MapSlot) => m.ctx == 0 && m.q == Q) sSp.clusters = some (sSp.cluster 0) ∧ sSp.qdesc 0 Q = some (dq sSp) ∧ (dq sSp).kind = 1 ∧ (dq sSp).mapped = true ∧ BitVec.toNat (dq sSp).head < BitVec.toNat (dq sSp).tail ∧ sSp.jobRead 0 ((dq sSp).slotVa (dq sSp).head) 8 = BitVec.toNat (dq sSp).head ∧ sSp.jobPhys 0 ((dq sSp).slotVa (dq sSp).head) = some 327680 ∧ sSp.jobPhys 0 (Q + 16) = some (Q + 16) ∧ sSp.awake 327680 = true ∧ sSp.poison = [] ∧ sSp.badSpawn 0 (clusterCore (sSp.cluster 0).id 0) (Memory.read sSp.mem 327680 64) = none ∧ (taskRecord (spawnImage (Memory.read sSp.mem 327680 64))).deps = []) ∧
      sSp.walkPlace 0 (taskRecord (spawnImage (Memory.read sSp.mem 327680 64))) ((taskRecord (spawnImage (Memory.read sSp.mem 327680 64))).hintCore (clusterCore (sSp.cluster 0).id 0)) (sSp.cluster 0).id = some (0, 0) ∧
      (∀ (u : Thread), u ∈ sSp.threads → u.tid < sSp.nextTid)) ∧
    (Clear (Instr.qtail (OpQ.mk 0#6 1#6 3#6 0#2 false)) (sQ (st tQm)) tQm ∧
      Readable tQm (sQ (st tQm)) 0#2 [1#6, 3#6] [] ∧
      BitVec.toNat (srcVal tQm (sQ (st tQm)) 0#2 1#6) % 64 ≠ 0) ∧
    (Clear (Instr.qtail (OpQ.mk 0#6 1#6 3#6 0#2 false)) sQa tQa ∧
      Readable tQa sQa 0#2 [1#6, 3#6] [] ∧
      BitVec.toNat (srcVal tQa sQa 0#2 1#6) % 64 = 0 ∧
      sQa.translated tQa Need.write (BitVec.toNat (srcVal tQa sQa 0#2 1#6)) = true ∧
      sQa.access tQa Need.write (BitVec.toNat (srcVal tQa sQa 0#2 1#6)) 64 = Xlate.access) ∧
    (Clear (Instr.qtail (OpQ.mk 0#6 1#6 3#6 0#2 false)) (tlbQ (sQ (st tQ))) tQ ∧
      Readable tQ (tlbQ (sQ (st tQ))) 0#2 [1#6, 3#6] [] ∧
      Alone tQ (tlbQ (sQ (st tQ))) ∧
      BitVec.toNat (srcVal tQ (tlbQ (sQ (st tQ))) 0#2 1#6) % 64 = 0 ∧
      (tlbQ (sQ (st tQ))).translated tQ Need.write (BitVec.toNat (srcVal tQ (tlbQ (sQ (st tQ))) 0#2 1#6)) = true ∧
      (tlbQ (sQ (st tQ))).access tQ Need.write (BitVec.toNat (srcVal tQ (tlbQ (sQ (st tQ))) 0#2 1#6)) 64 = Xlate.ok Q LfQ) ∧
    (queueServices_4.qwaits = [QWait.mk (QKey.pop 0 Q) 1 (some 0) none false] ∧
      0 + 4096 ≤ queueServices_4.now) :=
  ⟨⟨(by unfold TablesApart; exact (tablesApart_root _ _ _ _ _ (by decide +kernel) rfl (by decide +kernel) (by decide +kernel) (by decide +kernel))), by decide +kernel⟩,
   ⟨rfl, by decide +kernel⟩,
   ⟨rfl, (by unfold TablesApart; exact (tablesApart_root _ _ _ _ _ (by decide +kernel) rfl (by decide +kernel) (by decide +kernel) (by decide +kernel))), by decide +kernel⟩,
   ⟨rfl, by decide +kernel⟩,
   ⟨by decide +kernel, by decide +kernel⟩,
   ⟨clearOf rfl (by decide +kernel), readableOf (by decide +kernel), by decide +kernel⟩,
   ⟨clearOf rfl (by decide +kernel), readableOf (by decide +kernel), by decide +kernel⟩,
   ⟨clearOf rfl (by decide +kernel), readableOf (by decide +kernel), by refine Alone.mk (by refine Stays.mk (⟨_, rfl⟩) ?_ ((by unfold Uncancelled; exact (by decide +kernel))) ?_ ?_ ?_ <;> decide +kernel) ?_ ((by unfold RegionsDone; exact (by decide +kernel))) ?_ (noStoreBefore (by decide +kernel)) <;> decide +kernel, by decide +kernel⟩,
   by decide +kernel⟩

theorem test_wit_Channels :
    (Clear (Instr.chsend (OpQ.mk 0#6 1#6 2#6 1#2 false)) (sC t3) t3 ∧
      Alone t3 (sC t3) ∧
      Readable t3 (sC t3) 0#2 [1#6, 2#6] [] ∧
      chanFor ChanUse.send t3 (sC t3) (srcVal t3 (sC t3) 0#2 1#6) = Except.ok (7, ch) ∧
      BitVec.toNat (srcVal t3 (sC t3) 0#2 2#6) % 64 = 0 ∧
      BitVec.toNat (srcVal t3 (sC t3) 0#2 2#6) + 64 ≤ ((sC t3).near t3).size ∧
      Instr.chsend (OpQ.mk 0#6 1#6 2#6 1#2 false) = Instr.chsend (OpQ.mk 0#6 1#6 2#6 1#2 false) ∧
      ch.toStorer = false) ∧
    (Clear (Instr.chrecv (OpQ.mk 5#6 1#6 2#6 1#2 false)) (sC t4) t4 ∧
      Alone t4 (sC t4) ∧
      Readable t4 (sC t4) 0#2 [1#6, 2#6] [5#6] ∧
      chanFor ChanUse.recv t4 (sC t4) (srcVal t4 (sC t4) 0#2 1#6) = Except.ok (7, ch) ∧
      BitVec.toNat (srcVal t4 (sC t4) 0#2 2#6) % 64 = 0 ∧
      BitVec.toNat (srcVal t4 (sC t4) 0#2 2#6) + 64 ≤ ((sC t4).near t4).size ∧
      Instr.chrecv (OpQ.mk 5#6 1#6 2#6 1#2 false) = Instr.chrecv (OpQ.mk 5#6 1#6 2#6 1#2 false)) ∧
    (Clear (Instr.chclose (OpQ.mk 0#6 1#6 0#6 0#2 false)) (sC t3) t3 ∧
      Readable t3 (sC t3) 0#2 [1#6] [] ∧
      Alone t3 (sC t3) ∧
      chanFor ChanUse.close t3 (sC t3) (srcVal t3 (sC t3) 0#2 1#6) = Except.ok (7, ch)) ∧
    (Clear (Instr.chq (OpQ.mk 5#6 1#6 0#6 0#2 false)) (sC t3) t3 ∧
      Readable t3 (sC t3) 0#2 [1#6] [5#6] ∧
      Alone t3 (sC t3) ∧
      chanFor ChanUse.query t3 (sC t3) (srcVal t3 (sC t3) 0#2 1#6) = Except.ok (7, ch)) ∧
    (Awaits (Pending.chq 5#6 2) tcq (sC tcq) ∧
      Writable tcq (sC tcq) 5#6 ∧
      tcq.pipeline = some 7 ∧
      (sC tcq).chan? 7 2 = some ch) ∧
    (Awaits (Pending.chsend false 1#2 2 12288 []) (tcs false) (spad (sC (tcs false)) 12288 64 11259375) ∧
      soundRange ((spad (sC (tcs false)) 12288 64 11259375).near (tcs false)).bad 8 12288 64 ∧
      (tcs false).pipeline = some 7 ∧
      (spad (sC (tcs false)) 12288 64 11259375).chan? 7 2 = some ch ∧
      (spad (sC (tcs false)) 12288 64 11259375).qwaits = [] ∧
      ch.gone = false ∧
      ch.sent - ch.recvd < ch.allow) ∧
    (Awaits (Pending.chsend false 1#2 2 12288 []) (tcs false) channels_10 ∧
      (tcs false).pipeline = some 7 ∧
      channels_10.chan? 7 2 = some channels_8 ∧
      channels_10.qwaits = [] ∧
      (channels_8.gone = true ∨ channels_8.allow ≤ channels_8.sent - channels_8.recvd ∧ false = true)) ∧
    (Awaits (Pending.chrecv false 1#2 5#6 2 12288) (tcr false) (sCr (tcr false)) ∧
      Writable (tcr false) (sCr (tcr false)) 5#6 ∧
      (tcr false).isFw = false ∧
      (tcr false).pipeline = some 7 ∧
      (sCr (tcr false)).chan? 7 2 = some ch ∧
      ch.gone = false ∧
      (sCr (tcr false)).qwaits = [] ∧
      ch.recvd ≤ ch.sent ∧
      ch.recvd < ch.sent ∧
      ((sCr (tcr false)).cluster ch.cluster).tileUE = []) ∧
    (Awaits (Pending.chrecv false 1#2 5#6 2 12288) (tcr false) channels_14 ∧
      Writable (tcr false) channels_14 5#6 ∧
      (tcr false).isFw = false ∧
      (tcr false).pipeline = some 7 ∧
      channels_14.chan? 7 2 = some channels_13 ∧
      channels_13.gone = false ∧
      channels_14.qwaits = [] ∧
      channels_13.recvd ≤ channels_13.sent ∧
      channels_13.sent = channels_13.recvd ∧
      channels_13.opened = 0) ∧
    (Awaits (Pending.chrecv true 1#2 5#6 2 12288) (tcr true) channels_16 ∧
      Writable (tcr true) channels_16 5#6 ∧
      (tcr true).isFw = false ∧
      (tcr true).pipeline = some 7 ∧
      channels_16.chan? 7 2 = some channels_15 ∧
      channels_15.gone = false ∧
      channels_16.qwaits = [] ∧
      channels_15.recvd ≤ channels_15.sent ∧
      channels_15.sent = channels_15.recvd ∧
      channels_15.opened ≠ 0 ∧
      true = true) ∧
    (Awaits (Pending.chsend false 1#2 2 12288 []) (tcs false) channels_17 ∧
      (tcs false).pipeline = some 7 ∧
      channels_17.chan? 7 2 = some channels_11 ∧
      channels_17.qwaits = [] ∧
      channels_11.gone = false ∧
      channels_11.allow ≤ channels_11.sent - channels_11.recvd ∧
      false = false) ∧
    (Awaits (Pending.chrecv false 1#2 5#6 2 12288) (tcr false) channels_18 ∧
      Writable (tcr false) channels_18 5#6 ∧
      (tcr false).isFw = false ∧
      (tcr false).pipeline = some 7 ∧
      channels_18.chan? 7 2 = some channels_15 ∧
      channels_15.gone = false ∧
      channels_18.qwaits = [] ∧
      channels_15.recvd ≤ channels_15.sent ∧
      channels_15.sent = channels_15.recvd ∧
      channels_15.opened ≠ 0 ∧
      false = false) :=
  ⟨⟨clearOf rfl (by decide +kernel), by refine Alone.mk (by refine Stays.mk (⟨_, rfl⟩) ?_ ((by unfold Uncancelled; exact (by decide +kernel))) ?_ ?_ ?_ <;> decide +kernel) ?_ ((by unfold RegionsDone; exact (by decide +kernel))) ?_ (noStoreBefore (by decide +kernel)) <;> decide +kernel, readableOf (by decide +kernel), rfl, by decide +kernel⟩,
   ⟨clearOf rfl (by decide +kernel), by refine Alone.mk (by refine Stays.mk (⟨_, rfl⟩) ?_ ((by unfold Uncancelled; exact (by decide +kernel))) ?_ ?_ ?_ <;> decide +kernel) ?_ ((by unfold RegionsDone; exact (by decide +kernel))) ?_ (noStoreBefore (by decide +kernel)) <;> decide +kernel, readableOf (by decide +kernel), rfl, by decide +kernel⟩,
   ⟨clearOf rfl (by decide +kernel), readableOf (by decide +kernel), by refine Alone.mk (by refine Stays.mk (⟨_, rfl⟩) ?_ ((by unfold Uncancelled; exact (by decide +kernel))) ?_ ?_ ?_ <;> decide +kernel) ?_ ((by unfold RegionsDone; exact (by decide +kernel))) ?_ (noStoreBefore (by decide +kernel)) <;> decide +kernel, rfl⟩,
   ⟨clearOf rfl (by decide +kernel), readableOf (by decide +kernel), by refine Alone.mk (by refine Stays.mk (⟨_, rfl⟩) ?_ ((by unfold Uncancelled; exact (by decide +kernel))) ?_ ?_ ?_ <;> decide +kernel) ?_ ((by unfold RegionsDone; exact (by decide +kernel))) ?_ (noStoreBefore (by decide +kernel)) <;> decide +kernel, rfl⟩,
   ⟨awaitsOf rfl rfl (by decide +kernel), (by unfold Writable; exact (by decide +kernel)), by decide +kernel⟩,
   ⟨awaitsOf rfl rfl (by decide +kernel), (by unfold soundRange; exact (by decide +kernel)), by decide +kernel⟩,
   ⟨awaitsOf rfl rfl (by decide +kernel), by decide +kernel⟩,
   ⟨awaitsOf rfl rfl (by decide +kernel), (by unfold Writable; exact (by decide +kernel)), by decide +kernel⟩,
   ⟨awaitsOf rfl rfl (by decide +kernel), (by unfold Writable; exact (by decide +kernel)), by decide +kernel⟩,
   ⟨awaitsOf rfl rfl (by decide +kernel), (by unfold Writable; exact (by decide +kernel)), by decide +kernel⟩,
   ⟨awaitsOf rfl rfl (by decide +kernel), by decide +kernel⟩,
   ⟨awaitsOf rfl rfl (by decide +kernel), (by unfold Writable; exact (by decide +kernel)), by decide +kernel⟩⟩

end W4

namespace W5

def J : Job := (S0.job? 0).getD (placedJob 0)
def r0 : TaskRec := taskRecord (16 + 2^192 * 11)
def td : Word := BitVec.ofNat 64 (0x8000 + 5*2^22 + 1*2^26 + 64*2^33)
def held : Held := ⟨50, 0, 0x2000, { r0 with subs := [(131072, td)] }, none, 0, [], [(0, ⟨131072, 64, 0⟩)], [], 1, 0, none, 3, 0, none, none, false⟩
def sH : State := cl0 S0 fun c => { c with records := [held] }
def rect : Word := BitVec.ofNat 64 (1 * 2^62)
def g3 : Stage := ⟨3, 64, 0, rect, 1, 0, 0, [], false⟩
def P0 : Pipeline := ⟨7, 0, 0x60000, 0, 8, false, 0, [g3], [], []⟩
def ch : Chan := ⟨2, 3, 4, 4, 0x10000, 0, 5, 3, 2, false, [], [], none, none⟩
def P1 : Pipeline := { P0 with placed := true, stages := [{g3 with live := [1]}, {g3 with s := 4}], chans := [ch] }
def ld : Loader := ⟨131072, 4096, td, 64, 3, 1, [], 0, false, 0, 0⟩
def chL (l : Loader) : Chan := { ch with prod := 0xFF, loader := some l, opened := 1 }
def P2 (l : Loader) : Pipeline := { P1 with chans := [chL l] }
def ld2 : Loader := { ld with active := true }
def chS (j : Option StorerJob) : Chan := { ch with cons := 0xFF, storing := j }
def P3 (j : Option StorerJob) : Pipeline := { P1 with chans := [chS j] }
def sS (j : Option StorerJob) : State := cl0 { S0 with pipelines := [P3 j] } fun k => { k with tile := Memory.write [] (0x10000 + 64*3) 16 (131072 + 2^64 * td.toNat) }
def sj : StorerJob := ⟨1, 0, 131072, td, none, [], 0⟩
def sh (f r c : Nat) : Word := BitVec.ofNat 64 (f*2^16 + r*2^8 + c)
def tE0 : Thread := csr (regs [(1,0x4000),(2,0x100)]) fun c => { c with tshape := Vector.ofFn fun i => if i.val = 1 then sh 1 4 8 else if i.val = 2 then sh 1 8 4 else sh 2 4 4 }
def E0 : Engine := Engine.blank 0 1
def sE (t : Thread) (e : Engine := E0) : State := cl0 (st t) fun c => { c with engines := [e], dslots := [⟨5, [0x78000000, 0x08000000], 0, 0, []⟩] }
def issued (i : Instr) : State := match exec i (sE tE0 E1) with | .next s => s | _ => S0
where E1 : Engine := { E0 with tiles := Vector.ofFn fun i => Memory.write [] 0 40 (0x123456789ABCDEF01122334455667788FFEEDDCC * (i.val + 1)) , acc := Vector.ofFn fun _ => [(0, 5), (65, 7)] }
def eOf (s : State) : Engine := (s.engine? 0 0).getD E0
def AR0 : ArrRec := ⟨0, 0, 0, 0, 0, 0, false, 0, 0, 0, 0, false, false, false, none, []⟩
def oOf (s : State) : ArrRec := ((eOf s).ops.head?).getD AR0
def tOf (s : State) : Thread := (s.thread? 1).getD T0
def sT : State := issued (.tzero ⟨1,0,0,0,0,0⟩)
def sA : State := issued (.azero ⟨0,0,1,0,0,1⟩)
def sL : State := cl0 (issued (.tld ⟨1,0,0,0,1,0⟩)) fun c => { c with tile := Memory.write [] 0x4000 32 0x123456789ABCDEF01122334455667788FFEEDDCC }
def sW : State := issued (.tst ⟨1,0,0,0,1,0⟩)
def sM : State := issued (.mma ⟨1,2,1,0,0,0⟩)
def sD : State := issued (.mdrain ⟨3,0,1,5,2,0⟩)
def tB : Thread := outT (.ebind 1 5)
def Eb : Engine := { E0 with tl := 2, issued := 4, ops := [{ AR0 with word := 0x90800000, pc := 0x99, num := 3, running := true }] }
def tWt : Thread := regs [(1, 3)]
def dr : DrainRec := ⟨false, false, 5, 1, 0, 0, 4, 4, 0x100, 0, false, 1, 0, []⟩
def dE (d : DrainRec) : Engine := { E0 with issued := 1, drains := Vector.ofFn fun i => if i.val = 1 then some d else none, acc := Vector.ofFn fun _ => [(64, 5), (65, 7)] }
def kE : DSlot := ⟨5, [0x08000000], 0, 0, [(1,1)]⟩
def kS : DSlot := ⟨5, [0x78000000, 0x08000000], 0, 0, [(1,1)]⟩
def sDr (d : DrainRec) (k : DSlot) : State := cl0 S0 fun c => { c with engines := [dE d], dslots := [k] }
def dr1 : DrainRec := { dr with started := true }
def dr2 : DrainRec := { dr with started := true, dword := 0xFFFF, row := 1, cols := 64, rows := 4 }
def dr3 : DrainRec := { dr with started := true, row := 4 }
def dEl : Engine := { dE dr1 with drains := Vector.replicate 2 none, landing := [(1, dr3)] }
def tBad : Thread := reg tE0 5 (2^60)
def sFullE : State := cl0 (st tB) fun c => { c with engines := (List.range 16).map fun i => Engine.blank i 99 }
def streams_0 : State := { sH with threads := [] }
def streams_1 : State := { S0 with threads := [], pipelines := [P0] }
def streams_2 : Stage := {g3 with s := 4}
def streams_3 : State := { S0 with pipelines := [P1] }
def streams_4 : State := { S0 with pipelines := [P2 ld] }
def streams_5 : State := { S0 with pipelines := [P2 ld2] }
def engineOperations_7 : Instr := .tzero ⟨1,0,0,0,0,0⟩
def engineContexts_15 : OpM := ⟨0,0,0,0,5,1⟩
def engineContexts_16 : State := cl0 (st tB) fun c => { c with owner := none }
def engineContexts_17 : OpM := ⟨0,0,0,0,0,0⟩
def engineContexts_18 : OpM := ⟨0,0,0,0,1,0⟩
def engineContexts_19 : Engine := { E0 with tl := 2, issued := 2 }
def engineContexts_20 : State := sE tWt { E0 with tl := 2, issued := 2 }
def engineContexts_21 : Engine := { E0 with tl := 3, issued := 4 }
def engineContexts_22 : State := sE tWt { E0 with tl := 3, issued := 4 }
def engineContexts_23 : OpM := ⟨0,0,0,0,5,3⟩
def engineContexts_24 : Engine := { E0 with tl := 4, issued := 4 }
def engineContexts_25 : State := sE tWt { E0 with tl := 4, issued := 4 }
def drains_26 : State := cl0 S0 fun c => { c with engines := [dEl], dslots := [kS] }
def streams_27 : State := { sH with threads := sH.threads ++ (List.range 7).map fun p => Thread.fresh (60 + p) 0 (.phase 0 p) 0 }
def engineOperations_28 : Instr := .tld ⟨1,0,0,0,5,0⟩

theorem test_wit_Streams :
    (streams_1.job? P0.ctx = some J ∧
      streams_1.pipe? 7 = some P0 ∧
      P0.placed = false ∧
      streams_1.quiesce = none ∧
      P0.stages = [g3] ∧
      g3.places = [(0, 0)] ∧
      streams_1.canPlace P0 = true ∧
      (∀ (u : Thread), u ∈ streams_1.threads → u.tid < streams_1.nextTid)) ∧
    ((List.find? (fun (x : Held) => x.id == 50) (streams_27.cluster 0).records = some held ∧ held.pieces = [(0, Piece.mk 131072 64 0)] ∧ held.r.subs[0]? = some ((131072 : Word), td) ∧ (tileDesc td).codec = false ∧ held.waits = [] ∧ held.readyAt = none ∧ streams_27.xlate held.ctx none Need.read 131072 = Xlate.ok 131072 Leaf ∧ streams_27.awake 131072 = true ∧ streams_27.poison = [] ∧ (∀ (t : Thread), streams_27.thread? held.spawner = some t → t.evicted = false) ∧ held.id = 50 ∧ streams_27.thread? 50 = none) ∧
      streams_27.storePlace held.ctx held.r held.hint = none) ∧
    ((List.find? (fun (x : Held) => x.id == 50) (streams_0.cluster 0).records = some held ∧ held.pieces = [(0, Piece.mk 131072 64 0)] ∧ held.r.subs[0]? = some ((131072 : Word), td) ∧ (tileDesc td).codec = false ∧ held.waits = [] ∧ held.readyAt = none ∧ streams_0.xlate held.ctx none Need.read 131072 = Xlate.ok 131072 Leaf ∧ streams_0.awake 131072 = true ∧ streams_0.poison = [] ∧ (∀ (t : Thread), streams_0.thread? held.spawner = some t → t.evicted = false) ∧ held.id = 50 ∧ streams_0.thread? 50 = none) ∧
      streams_0.storePlace held.ctx held.r held.hint = some (0, 0)) ∧
    ((streams_3.pipe? 7 = some P1 ∧
      List.find? (fun (h : Stage) => h.s == 4) P1.stages = some streams_2 ∧
      P1.placed = true ∧
      streams_2.released = false ∧
      streams_2.live = [] ∧
      (∀ (h : Stage), h ∈ P1.stages → 4 < h.s → h.released = true) ∧
      (∃ (h : Stage), h ∈ P1.stages ∧ h.s < 4 ∧ h.released = false))) ∧
    ((streams_4.pipe? 7 = some (P2 ld) ∧
      (P2 ld).chan? 2 = some (chL ld) ∧
      (chL ld).loader = some ld ∧
      (chL ld).gone = false ∧
      ld.active = false ∧
      ld.nextTile < ld.count ∧
      ld.nextTile < (chL ld).allow ∧
      (P2 ld).placed = true) ∧
    (streams_5.pipe? 7 = some (P2 ld2) ∧
      (P2 ld2).chan? 2 = some (chL ld2) ∧
      (chL ld2).loader = some ld2 ∧
      (chL ld2).gone = false ∧
      ld2.active = true ∧
      ld2.pieces = [])) ∧
    ((sS none).pipe? 7 = some (P3 none) ∧
      (P3 none).chan? 2 = some (chS none) ∧
      (chS none).cons = 255 ∧
      (chS none).gone = false ∧
      (chS none).storing = none ∧
      (chS none).recvd < (chS none).sent) ∧
    ((sS (some sj)).pipe? 7 = some (P3 (some sj)) ∧
      (P3 (some sj)).chan? 2 = some (chS (some sj)) ∧
      (chS (some sj)).cons = 255 ∧
      (chS (some sj)).gone = false ∧
      (chS (some sj)).storing = some sj ∧
      sj.pieces = [] ∧
      (∃ (g : Stage), g ∈ (P3 (some sj)).stages ∧ g.released = false)) :=
  ⟨⟨rfl, by decide +kernel⟩,
   ⟨by decide +kernel, by decide +kernel⟩,
   ⟨by decide +kernel, by decide +kernel⟩,
   by decide +kernel,
   by decide +kernel,
   by decide +kernel⟩

theorem test_wit_EngineOperations :
    (numberedOps engineOperations_7 = some (OpM.mk 1#3 0#3 0#1 0#6 0#6 0#3, [], fun (x : Word) (x_1 : Engine) (x_2 : Thread) (x_3 : State) => none) ∧
      Clear engineOperations_7 (st tE0) tE0 ∧
      (st tE0).engineOf tE0 = none) ∧
    (numberedOps engineOperations_7 = some (OpM.mk 1#3 0#3 0#1 0#6 0#6 0#3, [], fun (x : Word) (x_1 : Engine) (x_2 : Thread) (x_3 : State) => none) ∧
      Clear engineOperations_7 (sE tE0) tE0 ∧
      Readable tE0 (sE tE0) 0#2 [] [] ∧
      Bound tE0 (sE tE0) E0 ∧
      Uncancelled tE0 ∧
      E0.recordAt tE0.pc engineOperations_7.encode = none ∧
      (none : Option Stop) = none) ∧
    (numberedOps engineOperations_28 =   some     (OpM.mk 1#3 0#3 0#1 0#6 5#6 0#3, [5#6],       tileOpStop (Instr.tld (OpM.mk 1#3 0#3 0#1 0#6 5#6 0#3)).encode true) ∧
      Clear engineOperations_28 (sE tBad) tBad ∧
      Readable tBad (sE tBad) 0#2 [5#6] [] ∧
      Bound tBad (sE tBad) E0 ∧
      tileOpStop (Instr.tld (OpM.mk 1#3 0#3 0#1 0#6 5#6 0#3)).encode true     (if [5#6] = [] then 0#64 else srcVal tBad (sE tBad) 0#2 5#6) E0 tBad (sE tBad) =   some (Stop.trap Cause.access ((2 : Word) ^ 60))) :=
  ⟨⟨rfl, clearOf rfl (by decide +kernel), by decide +kernel⟩,
   ⟨rfl, clearOf rfl (by decide +kernel), readableOf (by decide +kernel), by refine Bound.mk ?_ ?_ ?_ <;> decide +kernel, (by unfold Uncancelled; exact (by decide +kernel)), by decide +kernel⟩,
   ⟨rfl, clearOf rfl (by decide +kernel), readableOf (by decide +kernel), by refine Bound.mk ?_ ?_ ?_ <;> decide +kernel, by decide +kernel⟩⟩

theorem test_wit_ArrayParts :
    (InPart 0 (eOf sT) (oOf sT) (tOf sT) sT ∧
      mKind (oOf sT).word = MKind.tzero) ∧
    (InPart 0 (eOf sA) (oOf sA) (tOf sA) sA ∧
      mKind (oOf sA).word = MKind.azero) ∧
    (InPart 0 (eOf sL) (oOf sL) (tOf sL) sL ∧
      mKind (oOf sL).word = MKind.tld ∧
      sL.performed (oOf sL).after = true ∧
      tilePitch (oOf sL).arg = 0 ∧
      (sL.cluster 0).tileUE = [] ∧
      shapeBytes (oOf sL).sa ≤ 4096) ∧
    (InPart 0 (eOf sW) (oOf sW) (tOf sW) sW ∧
      mKind (oOf sW).word = MKind.tst ∧
      sW.performed (oOf sW).after = true ∧
      tilePitch (oOf sW).arg = 0) ∧
    (InPart 0 (eOf sM) (oOf sM) (tOf sM) sM ∧
      mKind (oOf sM).word = MKind.mma ∧
      (oOf sM).nextk = 0 ∧
      tileInt (oOf sM).fa.toNat = true ∧
      1 ≤ shapeCols (oOf sM).sa ∧
      shapeCols (oOf sM).sa ≤ 16 ∧
      shapeRows (oOf sM).sa ≤ 64 ∧
      shapeCols (oOf sM).sb ≤ 64) ∧
    (InPart 0 (eOf sM) (oOf sM) (tOf sM) sM ∧
      (mKind (oOf sM).word = MKind.mma ∨ mKind (oOf sM).word = MKind.mmac) ∧
      (oOf sM).nextk = 0) ∧
    (InPart 0 (eOf sD) (oOf sD) (tOf sD) sD ∧
      mKind (oOf sD).word = MKind.mdrain) :=
  ⟨⟨inPartOf rfl (by decide +kernel), by decide +kernel⟩,
   ⟨inPartOf rfl (by decide +kernel), by decide +kernel⟩,
   ⟨inPartOf rfl (by decide +kernel), by decide +kernel⟩,
   ⟨inPartOf rfl (by decide +kernel), by decide +kernel⟩,
   ⟨inPartOf rfl (by decide +kernel), by decide +kernel⟩,
   ⟨inPartOf rfl (by decide +kernel), by decide +kernel⟩,
   ⟨inPartOf rfl (by decide +kernel), by decide +kernel⟩⟩

theorem test_wit_EngineContexts :
    (Clear (Instr.ebind engineContexts_15) (st T0) T0 ∧
      Readable T0 (st T0) 0#2 [] [engineContexts_15.a] ∧
      Uncancelled T0) ∧
    (Awaits (Pending.ebind 1#2 5#6) tB engineContexts_16 ∧
      Writable tB engineContexts_16 5#6 ∧
      engineContexts_16.engineOf tB = none ∧
      (engineContexts_16.cluster tB.cluster).owner ≠ some tB.ctx) ∧
    (Clear (Instr.efree engineContexts_17) (st T0) T0 ∧
      (st T0).engineOf T0 = none) ∧
    (Clear (Instr.tlwait engineContexts_18) engineContexts_20 tWt ∧
      Readable tWt engineContexts_20 0#2 [engineContexts_18.a] [] ∧
      Bound tWt engineContexts_20 engineContexts_19 ∧
      engineContexts_19.issued < srcVal tWt engineContexts_20 0#2 engineContexts_18.a) ∧
    (Clear (Instr.tlwait engineContexts_18) engineContexts_22 tWt ∧
      Readable tWt engineContexts_22 0#2 [engineContexts_18.a] [] ∧
      RegionsDone tWt engineContexts_22 ∧
      Bound tWt engineContexts_22 engineContexts_21 ∧
      srcVal tWt engineContexts_22 0#2 engineContexts_18.a ≤ engineContexts_21.issued ∧
      srcVal tWt engineContexts_22 0#2 engineContexts_18.a ≤ engineContexts_21.clearRecord.settle.tl) ∧
    (Clear (Instr.tlwait engineContexts_18) (sE tWt Eb) tWt ∧
      Readable tWt (sE tWt Eb) 0#2 [engineContexts_18.a] [] ∧
      RegionsDone tWt (sE tWt Eb) ∧
      Bound tWt (sE tWt Eb) Eb ∧
      Uncancelled tWt ∧
      srcVal tWt (sE tWt Eb) 0#2 engineContexts_18.a ≤ Eb.issued ∧
      (¬srcVal tWt (sE tWt Eb) 0#2 engineContexts_18.a ≤ Eb.clearRecord.settle.tl)) ∧
    (Clear (Instr.tlread engineContexts_23) engineContexts_25 tWt ∧
      Readable tWt engineContexts_25 0#2 [] [engineContexts_23.a] ∧
      Bound tWt engineContexts_25 engineContexts_24) ∧
    (Awaits (Pending.ebind 1#2 5#6) tB (sE tB) ∧
      Writable tB (sE tB) 5#6 ∧
      (sE tB).engineOf tB = some E0) ∧
    (Awaits (Pending.ebind 1#2 5#6) tB (st tB) ∧
      Writable tB (st tB) 5#6 ∧
      (st tB).engineOf tB = none ∧
      ((st tB).cluster tB.cluster).owner = some tB.ctx ∧
      ((st tB).cluster tB.cluster).contextFor tB.contract = some 0) ∧
    (Awaits (Pending.ebind 1#2 5#6) tB sFullE ∧
      Writable tB sFullE 5#6 ∧
      sFullE.engineOf tB = none ∧
      (sFullE.cluster tB.cluster).owner = some tB.ctx ∧
      (sFullE.cluster tB.cluster).contextFor tB.contract = none) ∧
    (Clear (Instr.efree engineContexts_17) (sE T0) T0 ∧
      Bound T0 (sE T0) E0 ∧
      (∀ (c : Nat), E0.drainOf c = none) ∧
      E0.ops = [] ∧
      E0.landing = []) ∧
    (Clear (Instr.efree engineContexts_17) (sE T0 Eb) T0 ∧
      Bound T0 (sE T0 Eb) Eb ∧
      Uncancelled T0 ∧
      Eb.clearRecord.settle.tl ≠ Eb.issued) :=
  ⟨⟨clearOf rfl (by decide +kernel), readableOf (by decide +kernel), (by unfold Uncancelled; exact (by decide +kernel))⟩,
   ⟨awaitsOf rfl rfl (by decide +kernel), (by unfold Writable; exact (by decide +kernel)), by decide +kernel⟩,
   ⟨clearOf rfl (by decide +kernel), by decide +kernel⟩,
   ⟨clearOf rfl (by decide +kernel), readableOf (by decide +kernel), by refine Bound.mk ?_ ?_ ?_ <;> decide +kernel, by decide +kernel⟩,
   ⟨clearOf rfl (by decide +kernel), readableOf (by decide +kernel), (by unfold RegionsDone; exact (by decide +kernel)), by refine Bound.mk ?_ ?_ ?_ <;> decide +kernel, by decide +kernel⟩,
   ⟨clearOf rfl (by decide +kernel), readableOf (by decide +kernel), (by unfold RegionsDone; exact (by decide +kernel)), by refine Bound.mk ?_ ?_ ?_ <;> decide +kernel, (by unfold Uncancelled; exact (by decide +kernel)), by decide +kernel⟩,
   ⟨clearOf rfl (by decide +kernel), readableOf (by decide +kernel), by refine Bound.mk ?_ ?_ ?_ <;> decide +kernel⟩,
   ⟨awaitsOf rfl rfl (by decide +kernel), (by unfold Writable; exact (by decide +kernel)), by decide +kernel⟩,
   ⟨awaitsOf rfl rfl (by decide +kernel), (by unfold Writable; exact (by decide +kernel)), by decide +kernel⟩,
   ⟨awaitsOf rfl rfl (by decide +kernel), (by unfold Writable; exact (by decide +kernel)), by decide +kernel⟩,
   ⟨clearOf rfl (by decide +kernel), by refine Bound.mk ?_ ?_ ?_ <;> decide +kernel, (fun c => by unfold Engine.drainOf; split <;> rfl), by decide +kernel⟩,
   ⟨clearOf rfl (by decide +kernel), by refine Bound.mk ?_ ?_ ?_ <;> decide +kernel, (by unfold Uncancelled; exact (by decide +kernel)), by decide +kernel⟩⟩

theorem test_wit_Drains :
    (Draining 0 (dE dr) 1 dr kE (sDr dr kE) ∧
      dr.started = false) ∧
    (Draining 0 (dE dr1) 1 dr1 kE (sDr dr1 kE) ∧
      dr1.started = true ∧
      dr1.row < dr1.rows ∧
      kE.code = [134217728#32]) ∧
    (Draining 0 (dE dr1) 1 dr1 kS (sDr dr1 kS) ∧
      dr1.started = true ∧
      dr1.row < dr1.rows ∧
      kS.code = [2013265920#32, 134217728#32] ∧
      dr1.step = 0 ∧
      dr1.col = 0 ∧
      drainSwz dr1.dword < 4 ∧
      (dE dr1).aUE = [] ∧
      drainDst dr1.dword + 4 * (dr1.row * dr1.cols + dr1.cols) ≤ 4194304) ∧
    (Draining 0 (dE dr2) 1 dr2 kS (sDr dr2 kS) ∧
      dr2.started = true ∧
      dr2.row < dr2.rows ∧
      kS.code = [2013265920#32, 134217728#32] ∧
      dr2.step = 0 ∧
      dr2.col = 0 ∧
      drainSwz dr2.dword < 4 ∧
      (dE dr2).aUE = [] ∧
      0 < dr2.cols ∧
      4194304 < drainDst dr2.dword + 4 * (dr2.row * dr2.cols + 0) + 4) ∧
    (drains_26.engine? 0 dEl.idx = some dEl ∧
      drains_26.engineRuns dEl = true ∧
      List.find? (fun (l : Nat × DrainRec) => l.fst == 1) dEl.landing = some (1, dr3)) :=
  ⟨⟨by refine Draining.mk ?_ ?_ ?_ ?_ ?_ ?_ ?_ <;> decide +kernel, by decide +kernel⟩,
   ⟨by refine Draining.mk ?_ ?_ ?_ ?_ ?_ ?_ ?_ <;> decide +kernel, by decide +kernel⟩,
   ⟨by refine Draining.mk ?_ ?_ ?_ ?_ ?_ ?_ ?_ <;> decide +kernel, by decide +kernel⟩,
   ⟨by refine Draining.mk ?_ ?_ ?_ ?_ ?_ ?_ ?_ <;> decide +kernel, by decide +kernel⟩,
   by decide +kernel⟩

end W5

namespace W6

def tR : Thread := regs [(5,2048),(1,0x20000),(2,0x40000)]
def rw (c : Bool) (l : List Nat) : RowOp := ⟨7, 1, 0, 1, c, 0x20000, 0x40000, 2048, l, [], 0, []⟩
def sR (r : RowOp) : State := (wm (wm (st { T0 with rissued := 1 }) 0x40400 16 0x1122334455667788AABBCC) 0x20400 8 0xFFFFFFFF).modCore 0 fun c => { c with rowq := [r] }
def tT : Thread := { regs [(1, 3)] with rtl := 3, rissued := 4, qtl := 2, qissued := 7 }
def qdsc (table len scale res npg dim banks : Nat) : Nat := table + 2^64*len + 2^96*scale + 2^128*res + 2^160*npg + 2^168*dim + 2^176*banks
def tA : Thread := regs [(1,0x4000),(2,0x5000)]
def QV : Nat := 0x3F80_4000_3F80_BF80_3F80
def sP : State := spad (spad (st tA) 0x4000 64 (qdsc 0x20000 70 0x3F800000 0x6000 2 64 1)) 0x4040 256 QV
def dx : AqDesc := ⟨0x20000, 70, 0x3F800000, 0x6000, 2, 64, true, QV⟩
def LLe (k : Nat) : Word := BitVec.ofNat 64 (2^60 + 2^47 + k + 0x1F)
def sLoc (s : State) : State := let s : State := { s with hbm := s.hbm.map fun k => { k with localsa := 1, igran := { k with localsa := 1}.granules }, tlb := [⟨.dtlb 0, 0, 3, 0x30000, LLe 0x1F10000⟩, ⟨.dtlb 0, 0, 3, 0x40000, LLe (0x1F10000 + 2^25)⟩] }
  wm s 0x20000 16 (0x30000 + 2^64*0x40000)
def tAo : Thread := outT (.aqPost 5 0 dx [])
def recX (e : Nat) (m s n : Nat) (err : Nat) : Nat := m + 2^32 * s + 2^64 * (e + 2*err + 2^8 * 64 + 2^16 * 3 + 2^24 * 1 + 2^32*9) + 2^128 * (2*err) + 2^192*(if err=1 then 7 else 0xFFFFFFFF) + 2^224*n + 2^256 * 5 + 2^512 * (0x3F800000 + 2^32 * 0x40000000)
def sMg (x y : Nat) : State := spad (spad (st tA) 0x4000 320 x) 0x5000 320 y
def tAb : Thread := outT (.aqBytes 0 0x4000 16 0x112233 5 77 0)
def pgs (r : Nat) : List ((Nat × Nat) × (Nat × AqRec)) := [((0x20000, 0), (r, AqRec.blank 64 0 0 0 1)), ((0x30000, 1), (r, AqRec.blank 64 0 1 1 1))]
def q0 (h : Bool) (r : Nat) : Query := ⟨4, 1, 0, 0, 0, 1, { dx with len := 6 }, h, [], pgs r, [], []⟩
def sq (q : Query) (s : State := st { T0 with qissued := 1 }) : State := { s with queries := [q] }
def sQm : State := wm (wm S0 0x20000 512 0x3F80_4000_3F80_BF80_3F803F80_4000_3F80_BF80_3F803F80_4000_3F80_BF80_3F80) 0x20080 16 0x40804080408040804080
def sQp : State := sq (q0 true 0) { sQm with poison := [0x20088] }
def dword (slot base log : Nat) : Nat := slot + 2^16 * base + 2^38 * log
def tD : Thread := regs [(1,dword 7 0x100 4),(2,0x5000)]
def tDn (a b : Nat) : Thread := regs [(1,a),(2,b)]
def gw : Nat := dword 7 0x100 4
def img : List W32 := 0x78000000#32 :: 0x08000000#32 :: List.replicate 30 0#32
def tDl (s : Nat) (l : List W32) : Thread := outT (.dpmLoad 5 (BitVec.ofNat 64 (dword s 0x100 4)) l)
def sDl (s : Nat) (l : List W32) : State := cl0 (st (tDl s l)) fun c => { c with dslots := [⟨5, [0x08000000], 0, 0, [(1,1)]⟩] }
def tDf (r : Nat) : Thread := regs [(1,r)]
def tFr (n : Nat) : Thread := outT (.dpmFree 5 n)
def sFr (n : Nat) (h : List (Nat × Word)) : State := cl0 (st (tFr n)) fun c => { c with dslots := [⟨5, [0x08000000], 0, 0, h⟩] }
def attentionOperations_0 : List (Nat × Nat) := [(2^47 + 0x1F10000, 0), (2^47 + 0x1F10000 + 2^25, 1)]
def attentionOperations_1 : Thread := { tAo with csr := {tAo.csr with tbase := 0x8000} }
def attentionOperations_2 : State := st { tAo with csr := {tAo.csr with tbase := 0x8000} }
def attentionOperations_3 : State := sMg (recX 0 0x3F800000 0x40000000 5 0) (recX 0 0x40800000 0x3F800000 6 1)
def attentionScans_6 : (Nat × Nat) × Nat × AqRec := ((0x20000, 0), (0, AqRec.blank 64 0 0 0 1))
def drainPrograms_8 : State := cl0 (st (tDn gw 0x5000)) (fun c => { c with owner := none })
def drainPrograms_9 : State := (st (tDn gw 0x5000)).modCore 0 (fun c => { c with spadUE := [0x5018] })
def drainPrograms_10 : List W32 := 0xFC000000#32 :: List.replicate 31 0#32
def drainPrograms_11 : Thread := tDl 6 (0xFC000000#32 :: List.replicate 31 0#32)
def drainPrograms_12 : State := sDl 6 (0xFC000000#32 :: List.replicate 31 0#32)

theorem test_wit_RowOperations :
    (Clear (Instr.mrowZero (OpR.mk 5#6 1#6 0#6 0#2)) (st tR) tR ∧
      Readable tR (st tR) 0#2 (5#6 :: 1#6 :: if false = true then [0#6] else []) [] ∧
      (Instr.mrowZero (OpR.mk 5#6 1#6 0#6 0#2) = Instr.mrowZero (OpR.mk 5#6 1#6 0#6 0#2) ∧ false = false ∨   Instr.mrowZero (OpR.mk 5#6 1#6 0#6 0#2) = Instr.mrowCopy (OpR.mk 5#6 1#6 0#6 0#2) ∧ false = true)) ∧
    (NotFramed (sR (rw true [0, 1])) (rw true [0, 1]).tid ∧
      (sR (rw true [0, 1])).rowOp? 0 (rw true [0, 1]).id = some (rw true [0, 1]) ∧
      1 ∈ (rw true [0, 1]).left ∧
      (rw true [0, 1]).early = [] ∧
      (sR (rw true [0, 1])).performed (rw true [0, 1]).after = true ∧
      (sR (rw true [0, 1])).xlate (rw true [0, 1]).ctx (some 0) Need.write ((rw true [0, 1]).dst + 1024 * 1) = Xlate.ok 132096 Leaf2 ∧
      (sR (rw true [0, 1])).bufferRoom 132096 = true ∧
      ((rw true [0, 1]).copy = true →   (sR (rw true [0, 1])).xlate (rw true [0, 1]).ctx (some 0) Need.read ((rw true [0, 1]).src + 1024 * 1) = Xlate.ok 263168 Leaf ∧ (sR (rw true [0, 1])).awake 263168 = true) ∧
      ((rw true [0, 1]).copy = true → (sR (rw true [0, 1])).poison = []) ∧
      ((rw true [0, 1]).copy = true → 132096 = 263168 ∨ 132096 + 1024 ≤ 263168 ∨ 263168 + 1024 ≤ 132096)) :=
  ⟨⟨clearOf rfl (by decide +kernel), readableOf (by decide +kernel), by decide +kernel⟩,
   ⟨(by unfold NotFramed; exact (by decide +kernel)), by decide +kernel⟩⟩

theorem test_wit_OwnTimelines :
    (ownReads (Instr.mrowTl (OpR.mk 5#6 0#6 0#6 0#2)) = some (OpR.mk 5#6 0#6 0#6 0#2, fun (x : Thread) => x.rtl) ∧
      Clear (Instr.mrowTl (OpR.mk 5#6 0#6 0#6 0#2)) (st tT) tT ∧
      Readable tT (st tT) 0#2 [] [5#6]) ∧
    (ownWaits (Instr.mrowWait (OpR.mk 0#6 1#6 0#6 0#2)) = some (OpR.mk 0#6 1#6 0#6 0#2, fun (x : Thread) => x.rtl, fun (x : Thread) => x.rissued) ∧
      Clear (Instr.mrowWait (OpR.mk 0#6 1#6 0#6 0#2)) (st tT) tT ∧
      Readable tT (st tT) 0#2 [1#6] [] ∧
      RegionsDone tT (st tT) ∧
      tT.isFw = false ∧
      srcVal tT (st tT) 0#2 1#6 ≤ tT.rissued ∧
      srcVal tT (st tT) 0#2 1#6 ≤ tT.rtl) ∧
    (ownWaits (Instr.aqWait (OpR.mk 0#6 1#6 0#6 0#2)) = some (OpR.mk 0#6 1#6 0#6 0#2, fun (x : Thread) => x.qtl, fun (x : Thread) => x.qissued) ∧
      Clear (Instr.aqWait (OpR.mk 0#6 1#6 0#6 0#2)) (st tT) tT ∧
      Readable tT (st tT) 0#2 [1#6] [] ∧
      Uncancelled tT ∧
      tT.isFw = false ∧
      srcVal tT (st tT) 0#2 1#6 ≤ tT.qissued ∧
      (¬srcVal tT (st tT) 0#2 1#6 ≤ tT.qtl) ∧
      tT.handler = none) ∧
    (ownWaits (Instr.mrowWait (OpR.mk 0#6 1#6 0#6 0#2)) = some (OpR.mk 0#6 1#6 0#6 0#2, fun (x : Thread) => x.rtl, fun (x : Thread) => x.rissued) ∧
      Clear (Instr.mrowWait (OpR.mk 0#6 1#6 0#6 0#2)) (st (reg tT 1 (5 : Word))) (reg tT 1 (5 : Word)) ∧
      Readable (reg tT 1 (5 : Word)) (st (reg tT 1 (5 : Word))) 0#2 [1#6] [] ∧
      (reg tT 1 (5 : Word)).isFw = false ∧
      (reg tT 1 (5 : Word)).rissued < srcVal (reg tT 1 (5 : Word)) (st (reg tT 1 (5 : Word))) 0#2 1#6) :=
  ⟨⟨rfl, clearOf rfl (by decide +kernel), readableOf (by decide +kernel)⟩,
   ⟨rfl, clearOf rfl (by decide +kernel), readableOf (by decide +kernel), (by unfold RegionsDone; exact (by decide +kernel)), by decide +kernel⟩,
   ⟨rfl, clearOf rfl (by decide +kernel), readableOf (by decide +kernel), (by unfold Uncancelled; exact (by decide +kernel)), by decide +kernel⟩,
   ⟨rfl, clearOf rfl (by decide +kernel), readableOf (by decide +kernel), by decide +kernel⟩⟩

theorem test_wit_AttentionOperations :
    (Clear (Instr.aqPost (OpR.mk 5#6 1#6 0#6 0#2)) sP tA ∧
      Readable tA sP 0#2 [1#6] [5#6] ∧
      Uncancelled tA ∧
      Unrivalled Res.query tA.coreId tA sP ∧
      GoodPost tA sP (BitVec.toNat (srcVal tA sP 0#2 1#6)) ∧
      sP.queriesOf tA.coreId < 16) ∧
    (Clear (Instr.aqPost (OpR.mk 5#6 1#6 0#6 0#2)) (spad sP 16404 1 0) tA ∧
      Readable tA (spad sP 16404 1 0) 0#2 [1#6] [5#6] ∧
      postStop (srcVal tA (spad sP 16404 1 0) 0#2 1#6) tA (spad sP 16404 1 0) = some (Stop.trap Cause.access (16384 : Word))) ∧
    (Awaits (Pending.aqPost 5#6 0 dx []) tAo (sLoc (st tAo)) ∧
      Writable tAo (sLoc (st tAo)) 5#6 ∧
      (sLoc (st tAo)).performed [] = true ∧
      (sLoc (st tAo)).posted tAo.ctx 0 dx = Posted.ok attentionOperations_0 0 [196608, 262144]) ∧
    (Awaits (Pending.aqPost 5#6 0 dx []) attentionOperations_1 attentionOperations_2 ∧
      HasHandler attentionOperations_1 ∧
      attentionOperations_2.performed [] = true ∧
      attentionOperations_2.posted attentionOperations_1.ctx 0 dx = Posted.stop Cause.access (81985529216486895 : Word)) ∧
    (Clear (Instr.aqMerge (OpR.mk 5#6 1#6 2#6 0#2)) attentionOperations_3 tA ∧
      Readable tA attentionOperations_3 0#2 [1#6, 2#6] [5#6] ∧
      Uncancelled tA ∧
      GoodRecord tA attentionOperations_3 (BitVec.toNat (srcVal tA attentionOperations_3 0#2 1#6)) 64 ∧
      GoodRecord tA attentionOperations_3 (BitVec.toNat (srcVal tA attentionOperations_3 0#2 2#6)) 64) ∧
    (Clear (Instr.aqNorm (OpR.mk 5#6 1#6 2#6 0#2)) (sMg (recX 1 1065353216 1073741824 5 0) 0) tA ∧
      Readable tA (sMg (recX 1 1065353216 1073741824 5 0) 0) 0#2 [1#6, 2#6] [5#6] ∧
      Uncancelled tA ∧
      GoodRecord tA (sMg (recX 1 1065353216 1073741824 5 0) 0) (BitVec.toNat (srcVal tA (sMg (recX 1 1065353216 1073741824 5 0) 0) 0#2 1#6)) 64 ∧
      (Instr.aqNorm (OpR.mk 5#6 1#6 2#6 0#2) = Instr.aqNorm (OpR.mk 5#6 1#6 2#6 0#2) ∧ 4 = 4 ∨   Instr.aqNorm (OpR.mk 5#6 1#6 2#6 0#2) = Instr.aqNormB (OpR.mk 5#6 1#6 2#6 0#2) ∧ 4 = 2) ∧
      BitVec.toNat (srcVal tA (sMg (recX 1 1065353216 1073741824 5 0) 0) 0#2 2#6) % 64 = 0 ∧
      BitVec.toNat (srcVal tA (sMg (recX 1 1065353216 1073741824 5 0) 0) 0#2 2#6) + 4 * 64 ≤ ((sMg (recX 1 1065353216 1073741824 5 0) 0).near tA).size) ∧
    (Awaits (Pending.aqBytes 0 16384 16 1122867 5#6 (77 : Word) 0) tAb (spad (st tAb) 16376 40 95780971304118053647396689196894323976171195136475135) ∧
      Writable tAb (spad (st tAb) 16376 40 95780971304118053647396689196894323976171195136475135) 5#6 ∧
      0 ≤ (spad (st tAb) 16376 40 95780971304118053647396689196894323976171195136475135).now) :=
  ⟨⟨clearOf rfl (by decide +kernel), readableOf (by decide +kernel), (by unfold Uncancelled; exact (by decide +kernel)), (by unfold Unrivalled; exact (by decide +kernel)), by refine GoodPost.mk ?_ ?_ ?_ ((by unfold soundRange; exact (by decide +kernel))) ?_ ?_ ?_ ?_ ?_ ?_ ?_ <;> decide +kernel, by decide +kernel⟩,
   ⟨clearOf rfl (by decide +kernel), readableOf (by decide +kernel), by decide +kernel⟩,
   ⟨awaitsOf rfl rfl (by decide +kernel), (by unfold Writable; exact (by decide +kernel)), by decide +kernel⟩,
   ⟨awaitsOf rfl rfl (by decide +kernel), by refine HasHandler.mk ?_ ?_ ?_ ?_ ?_ <;> decide +kernel, by decide +kernel⟩,
   ⟨clearOf rfl (by decide +kernel), readableOf (by decide +kernel), (by unfold Uncancelled; exact (by decide +kernel)), by refine GoodRecord.mk ?_ ?_ ?_ ?_ ?_ ?_ ((by unfold soundRange; exact (by decide +kernel))) <;> decide +kernel, by refine GoodRecord.mk ?_ ?_ ?_ ?_ ?_ ?_ ((by unfold soundRange; exact (by decide +kernel))) <;> decide +kernel⟩,
   ⟨clearOf rfl (by decide +kernel), readableOf (by decide +kernel), (by unfold Uncancelled; exact (by decide +kernel)), by refine GoodRecord.mk ?_ ?_ ?_ ?_ ?_ ?_ ((by unfold soundRange; exact (by decide +kernel))) <;> decide +kernel, by decide +kernel⟩,
   ⟨awaitsOf rfl rfl (by decide +kernel), (by unfold Writable; exact (by decide +kernel)), by decide +kernel⟩⟩

theorem test_wit_AttentionScans :
    (Scanning (sq (q0 true 0) sQm) (q0 true 0) 0 attentionScans_6 ∧
      (sq (q0 true 0) sQm).poison = []) ∧
    (Scanning sQp (q0 true 0) 0 attentionScans_6 ∧
      ((q0 true 0).desc.rowOf 0 attentionScans_6.snd.fst).head? = some 0 ∧
      (sQp.poisonAt (vectorAt (q0 true 0).desc attentionScans_6 0) (4 * (q0 true 0).desc.dim)).isSome = true) ∧
    ((sq (q0 false 0)).query? (q0 false 0).id = some (q0 false 0) ∧
      (q0 false 0).handed = false ∧
      (List.filter (fun (k : Query) => k.handed && k.stack == (q0 false 0).stack) (sq (q0 false 0)).queries).length < 256) ∧
    ((sq (q0 true 64)).query? (q0 true 64).id = some (q0 true 64) ∧
      (q0 true 64).handed = true ∧
      (q0 true 64).done = true ∧
      (sq (q0 true 64)).performed (q0 true 64).after = true) :=
  ⟨⟨by refine Scanning.mk ?_ ?_ ?_ ?_ ?_ ?_ ?_ <;> decide +kernel, by decide +kernel⟩,
   ⟨by refine Scanning.mk ?_ ?_ ?_ ?_ ?_ ?_ ?_ <;> decide +kernel, by decide +kernel⟩,
   by decide +kernel⟩

theorem test_wit_DrainPrograms :
    (Clear (Instr.dpmLoad (OpR.mk 5#6 1#6 2#6 0#2)) (st (tDn (2 ^ 63) 20480)) (tDn (2 ^ 63) 20480) ∧
      Readable (tDn (2 ^ 63) 20480) (st (tDn (2 ^ 63) 20480)) 0#2 [1#6, 2#6] [5#6] ∧
      (¬LoadWord (srcVal (tDn (2 ^ 63) 20480) (st (tDn (2 ^ 63) 20480)) 0#2 1#6))) ∧
    (Clear (Instr.dpmLoad (OpR.mk 5#6 1#6 2#6 0#2)) (spad (st tD) 20480 128 576460754316689408) tD ∧
      Readable tD (spad (st tD) 20480 128 576460754316689408) 0#2 [1#6, 2#6] [5#6] ∧
      LoadWord (srcVal tD (spad (st tD) 20480 128 576460754316689408) 0#2 1#6) ∧
      soundRange ((spad (st tD) 20480 128 576460754316689408).near tD).bad 8 (BitVec.toNat (srcVal tD (spad (st tD) 20480 128 576460754316689408) 0#2 2#6)) 128 ∧
      Uncancelled tD ∧
      BitVec.toNat (srcVal tD (spad (st tD) 20480 128 576460754316689408) 0#2 2#6) % 16 = 0 ∧
      BitVec.toNat (srcVal tD (spad (st tD) 20480 128 576460754316689408) 0#2 2#6) + 128 ≤ ((spad (st tD) 20480 128 576460754316689408).near tD).size ∧
      (spad (st tD) 20480 128 576460754316689408).holds tD.ctx tD.cluster = true) ∧
    (Awaits (Pending.dpmLoad 5#6 (BitVec.ofNat 64 (dword 5 256 4)) img) (tDl 5 img) (sDl 5 img) ∧
      Writable (tDl 5 img) (sDl 5 img) 5#6 ∧
      (((sDl 5 img).cluster (tDl 5 img).cluster).dslots.any fun (k : DSlot) => k.slot == (BitVec.ofNat 64 (dword 5 256 4)).toNat % 64) = true) ∧
    (Awaits (Pending.dpmLoad 5#6 (BitVec.ofNat 64 (dword 63 256 4)) img) (tDl 63 img) (sDl 63 img) ∧
      Writable (tDl 63 img) (sDl 63 img) 5#6 ∧
      (((sDl 63 img).cluster (tDl 63 img).cluster).dslots.any fun (k : DSlot) => k.slot == (BitVec.ofNat 64 (dword 63 256 4)).toNat % 64) = false ∧
      malformed img ((BitVec.ofNat 64 (dword 63 256 4)).toNat / 2 ^ 38 % 16) = none) ∧
    (Clear (Instr.dpmFree (OpR.mk 5#6 1#6 0#6 0#2)) (st (tDf 63)) (tDf 63) ∧
      Readable (tDf 63) (st (tDf 63)) 0#2 [1#6] [5#6] ∧
      Uncancelled (tDf 63) ∧
      (BitVec.toNat (srcVal (tDf 63) (st (tDf 63)) 0#2 1#6) < 64 ∧ (st (tDf 63)).holds (tDf 63).ctx (tDf 63).cluster = true)) ∧
    (Awaits (Pending.dpmFree 5#6 6) (tFr 6) (sFr 6 []) ∧
      Writable (tFr 6) (sFr 6 []) 5#6 ∧
      (∀ (k : DSlot), k ∈ ((sFr 6 []).cluster (tFr 6).cluster).dslots → k.slot ≠ 6)) ∧
    (Clear (Instr.dpmLoad (OpR.mk 5#6 1#6 2#6 0#2)) (st (tDn gw 20488)) (tDn gw 20488) ∧
      Readable (tDn gw 20488) (st (tDn gw 20488)) 0#2 [1#6, 2#6] [5#6] ∧
      LoadWord (srcVal (tDn gw 20488) (st (tDn gw 20488)) 0#2 1#6) ∧
      BitVec.toNat (srcVal (tDn gw 20488) (st (tDn gw 20488)) 0#2 2#6) % 16 ≠ 0) ∧
    (Clear (Instr.dpmLoad (OpR.mk 5#6 1#6 2#6 0#2)) (st (tDn gw 262144)) (tDn gw 262144) ∧
      Readable (tDn gw 262144) (st (tDn gw 262144)) 0#2 [1#6, 2#6] [5#6] ∧
      LoadWord (srcVal (tDn gw 262144) (st (tDn gw 262144)) 0#2 1#6) ∧
      BitVec.toNat (srcVal (tDn gw 262144) (st (tDn gw 262144)) 0#2 2#6) % 16 = 0 ∧
      ((st (tDn gw 262144)).near (tDn gw 262144)).size < BitVec.toNat (srcVal (tDn gw 262144) (st (tDn gw 262144)) 0#2 2#6) + 128) ∧
    (Clear (Instr.dpmLoad (OpR.mk 5#6 1#6 2#6 0#2)) drainPrograms_8 (tDn gw 20480) ∧
      Readable (tDn gw 20480) drainPrograms_8 0#2 [1#6, 2#6] [5#6] ∧
      LoadWord (srcVal (tDn gw 20480) drainPrograms_8 0#2 1#6) ∧
      BitVec.toNat (srcVal (tDn gw 20480) drainPrograms_8 0#2 2#6) % 16 = 0 ∧
      BitVec.toNat (srcVal (tDn gw 20480) drainPrograms_8 0#2 2#6) + 128 ≤ (drainPrograms_8.near (tDn gw 20480)).size ∧
      drainPrograms_8.holds (tDn gw 20480).ctx (tDn gw 20480).cluster = false) ∧
    (Clear (Instr.dpmLoad (OpR.mk 5#6 1#6 2#6 0#2)) drainPrograms_9 (tDn gw 20480) ∧
      Readable (tDn gw 20480) drainPrograms_9 0#2 [1#6, 2#6] [5#6] ∧
      LoadWord (srcVal (tDn gw 20480) drainPrograms_9 0#2 1#6) ∧
      badFirst (drainPrograms_9.near (tDn gw 20480)).bad 8 (BitVec.toNat (srcVal (tDn gw 20480) drainPrograms_9 0#2 2#6)) 128 24 ∧
      BitVec.toNat (srcVal (tDn gw 20480) drainPrograms_9 0#2 2#6) % 16 = 0 ∧
      BitVec.toNat (srcVal (tDn gw 20480) drainPrograms_9 0#2 2#6) + 128 ≤ (drainPrograms_9.near (tDn gw 20480)).size ∧
      drainPrograms_9.holds (tDn gw 20480).ctx (tDn gw 20480).cluster = true) ∧
    (Awaits (Pending.dpmLoad 5#6 (BitVec.ofNat 64 (dword 6 256 4)) drainPrograms_10) drainPrograms_11 drainPrograms_12 ∧
      Writable drainPrograms_11 drainPrograms_12 5#6 ∧
      ((drainPrograms_12.cluster drainPrograms_11.cluster).dslots.any fun (k : DSlot) => k.slot == (BitVec.ofNat 64 (dword 6 256 4)).toNat % 64) = false ∧
      malformed drainPrograms_10 ((BitVec.ofNat 64 (dword 6 256 4)).toNat / 2 ^ 38 % 16) = some 32) ∧
    (Clear (Instr.dpmFree (OpR.mk 5#6 1#6 0#6 0#2)) (st (tDf 64)) (tDf 64) ∧
      Readable (tDf 64) (st (tDf 64)) 0#2 [1#6] [5#6] ∧
      (¬(BitVec.toNat (srcVal (tDf 64) (st (tDf 64)) 0#2 1#6) < 64 ∧ (st (tDf 64)).holds (tDf 64).ctx (tDf 64).cluster = true))) ∧
    (Awaits (Pending.dpmFree 5#6 5) (tFr 5) (sFr 5 [(1, (1 : Word))]) ∧
      Writable (tFr 5) (sFr 5 [(1, (1 : Word))]) 5#6 ∧
      List.find? (fun (k : DSlot) => k.slot == 5) ((sFr 5 [(1, (1 : Word))]).cluster (tFr 5).cluster).dslots = some (DSlot.mk 5 [(134217728 : W32)] 0 0 [(1, (1 : Word))]) ∧
      [(1, (1 : Word))] ≠ []) ∧
    (Awaits (Pending.dpmFree 5#6 5) (tFr 5) (sFr 5 []) ∧
      Writable (tFr 5) (sFr 5 []) 5#6 ∧
      List.find? (fun (k : DSlot) => k.slot == 5) ((sFr 5 []).cluster (tFr 5).cluster).dslots = some (DSlot.mk 5 [(134217728 : W32)] 0 0 []) ∧
      ([] : List (Nat × Word)) = []) :=
  ⟨⟨clearOf rfl (by decide +kernel), readableOf (by decide +kernel), (by unfold LoadWord; decide +kernel)⟩,
   ⟨clearOf rfl (by decide +kernel), readableOf (by decide +kernel), (by unfold LoadWord; exact (by decide +kernel)), (by unfold soundRange; exact (by decide +kernel)), (by unfold Uncancelled; exact (by decide +kernel)), by decide +kernel⟩,
   ⟨awaitsOf rfl rfl (by decide +kernel), (by unfold Writable; exact (by decide +kernel)), by decide +kernel⟩,
   ⟨awaitsOf rfl rfl (by decide +kernel), (by unfold Writable; exact (by decide +kernel)), by decide +kernel⟩,
   ⟨clearOf rfl (by decide +kernel), readableOf (by decide +kernel), (by unfold Uncancelled; exact (by decide +kernel)), by decide +kernel⟩,
   ⟨awaitsOf rfl rfl (by decide +kernel), (by unfold Writable; exact (by decide +kernel)), by decide +kernel⟩,
   ⟨clearOf rfl (by decide +kernel), readableOf (by decide +kernel), (by unfold LoadWord; exact (by decide +kernel)), by decide +kernel⟩,
   ⟨clearOf rfl (by decide +kernel), readableOf (by decide +kernel), (by unfold LoadWord; exact (by decide +kernel)), by decide +kernel⟩,
   ⟨clearOf rfl (by decide +kernel), readableOf (by decide +kernel), (by unfold LoadWord; exact (by decide +kernel)), by decide +kernel⟩,
   ⟨clearOf rfl (by decide +kernel), readableOf (by decide +kernel), (by unfold LoadWord; exact (by decide +kernel)), (by unfold badFirst; exact (by decide +kernel)), by decide +kernel⟩,
   ⟨awaitsOf rfl rfl (by decide +kernel), (by unfold Writable; exact (by decide +kernel)), by decide +kernel⟩,
   ⟨clearOf rfl (by decide +kernel), readableOf (by decide +kernel), by decide +kernel⟩,
   ⟨awaitsOf rfl rfl (by decide +kernel), (by unfold Writable; exact (by decide +kernel)), by decide +kernel⟩,
   ⟨awaitsOf rfl rfl (by decide +kernel), (by unfold Writable; exact (by decide +kernel)), by decide +kernel⟩⟩

end W6

namespace W7

def F0 : Frame := ⟨3, 1, 0x20000, 0x30000, 0x50000, 100, 128, 0x60000, false, 20, 0, 0, []⟩
def k0 (w : Nat := 64) (fs : List Frame := [F0]) : Stream := ⟨9, 0, 1, w, 4, 30, 10, 2, 3, fs, false, 0⟩
def tE : Thread := regs [(1,0x4000),(2,9)]
def fd : Nat := 0x20000 + 2^64*0x30000 + 2^128*0x50000 + 2^192*100 + 2^224*128 + 2^256*0x60000 + 2^328 * 51
def sE (k : Stream) (t : Thread := tE) : State := { spad (st t) 0x4000 64 fd with streams := [k] }
def tW (n : Nat) : Thread := regs [(1,9),(2,n)]
def tO : Thread := outT (.encTl 5 9)
def F1 : Frame := { F0 with note := BitVec.ofNat 64 (2^40*5 + 7) }
def tF (l : List (Nat × Nat)) : Thread := l.foldl (fun t p => reg t p.1 (BitVec.ofNat 64 p.2)) (Thread.fresh 1 4096 (.fw 0 0 0) 0x1000)
def sF (t : Thread) (n : Nat := 0) : State := let s : State := { State.reset with hbm := State.reset.hbm.map trained, stage := 2, booted := true, threads := [t], cur := 1, nextTid := 2 }
  { s with fwcores := s.fwcores.map fun f => if f.die == 0 && f.n == 0 then { f with spad := Memory.write f.spad 0x40 64 n } else f }
def gr (cl mask ctx reg l1 tg v : Nat) : Nat := cl / 64 + 2^8 * (cl % 64) + 2^16 * mask + 2^32*ctx + 2^48*reg + 2^56*l1 + 2^64*tg + 2^128 * v
def tG (n : Nat) : Thread := { tF [] with run := .out W0 (.own true 5 n) }
def rel (s : State) (o : Option Nat := none) : State := s.modCluster 3 fun c => { c with released := true, owner := o }
def tV (n : Nat) : Thread := { tF [] with run := .out W0 (.own false 5 n) }
def own7 (s : State) (l : List Nat) : State := l.foldl (fun s k => s.modCore (clusterCore 3 k) fun c => {c with owner := some 7}) s
def gv : Nat := gr 3 0x8001 7 0 0 0 0
def busy (s : State) : State := { s with threads := s.threads ++ [Thread.fresh 9 7 (.phase (clusterCore 3 15) 1) 0] }
def tP : Thread := tF [(5,4095),(1,2^52-1),(2,0x10000)]
def tP2 : Thread := tF [(5,4096),(1,2^52-1),(2,0x10000)]
def tP3 : Thread := tF [(5,4095),(1,2^52),(2,0x10000)]
def tZ : Thread := tF [(5,0x20000),(1,0x30000)]
def tY : Thread := { tF [] with run := .out W0 (.pzero 5 0x10000 0x10000) }
def tEm (a b : Nat) : Thread := regs [(1,a),(2,b)]
def gR : Nat := gr 3 0x8001 7 6 4 54 (2^22) + 2^72
def gOk : Nat := gr 3 0x8001 7 6 4 54 (2^22)
def gVr : Nat := gv + 2^72
def tZn : Thread := tF [(5,0x20001),(1,0x30000)]
def gS2 : Nat := gr 3 0x8001 7 6 4 55 (2^22)
def gS3 : Nat := gr 3 0x8001 7 6 4 54 (2^22 + 4096)
def encoderStreams_0 : State := { sE (k0) with streams := [] }
def encoderStreams_1 : State := { sE (k0) (tW 2) with streams := [] }
def encoderStreams_2 : State := { sE (k0) (tW 3) with streams := [] }
def encoderStreams_6 : Stream := k0 64 [{F1 with luma := 2^52}, F0]
def encoderStreams_7 : Frame := {F1 with luma := 2^52}
def encoderStreams_8 : State := sE (k0 64 [{F1 with luma := 2^52}, F0])
def ownership_9 : State := wm (rel (sF (tG (gr 3 0x8001 7 6 4 54 (2^22))))) (2^22 + 5) 8 0xFFFFFFFFFF
def ownership_11 : State := (rel (sF (tG (gr 3 0x8001 7 6 4 54 (2^22))))).modCore (clusterCore 3 15) fun c => {c with owner := some 8}
def ownership_12 : State := wm (sF tY) 0xFFF8 24 0x112233445566778899AABBCCDDEEFF112233445566778899

theorem test_wit_EncoderStreams :
    (Clear (Instr.encPost (OpR.mk 5#6 1#6 2#6 0#2)) encoderStreams_0 tE ∧
      Readable tE encoderStreams_0 0#2 [1#6, 2#6] [5#6] ∧
      BitVec.toNat (srcVal tE encoderStreams_0 0#2 1#6) % 64 = 0 ∧
      BitVec.toNat (srcVal tE encoderStreams_0 0#2 1#6) + 64 ≤ (encoderStreams_0.near tE).size ∧
      encoderStreams_0.streamFor tE.ctx (srcVal tE encoderStreams_0 0#2 2#6) = none) ∧
    (Clear (Instr.encPost (OpR.mk 5#6 1#6 2#6 0#2)) (sE k0) tE ∧
      Readable tE (sE k0) 0#2 [1#6, 2#6] [5#6] ∧
      Unrivalled (Res.frame k0.n) 0 tE (sE k0) ∧
      GoodBytes tE (sE k0) (BitVec.toNat (srcVal tE (sE k0) 0#2 1#6)) ∧
      GoodFrame tE (sE k0) k0 (BitVec.toNat (srcVal tE (sE k0) 0#2 1#6)) ∧
      (sE k0).streamFor tE.ctx (srcVal tE (sE k0) 0#2 2#6) = some k0 ∧
      k0.frames.length < 8) ∧
    (Clear (Instr.encWait (OpR.mk 0#6 1#6 2#6 0#2)) encoderStreams_1 (tW 2) ∧
      Readable (tW 2) encoderStreams_1 0#2 [1#6, 2#6] [] ∧
      encoderStreams_1.streamFor (tW 2).ctx (srcVal (tW 2) encoderStreams_1 0#2 1#6) = none) ∧
    (Clear (Instr.encWait (OpR.mk 0#6 1#6 2#6 0#2)) (sE k0 (tW 2)) (tW 2) ∧
      Readable (tW 2) (sE k0 (tW 2)) 0#2 [1#6, 2#6] [] ∧
      RegionsDone (tW 2) (sE k0 (tW 2)) ∧
      (sE k0 (tW 2)).streamFor (tW 2).ctx (srcVal (tW 2) (sE k0 (tW 2)) 0#2 1#6) = some k0 ∧
      srcVal (tW 2) (sE k0 (tW 2)) 0#2 2#6 ≤ k0.eissued ∧
      srcVal (tW 2) (sE k0 (tW 2)) 0#2 2#6 ≤ k0.etl) ∧
    (Clear (Instr.encWait (OpR.mk 0#6 1#6 2#6 0#2)) (sE k0 (tW 3)) (tW 3) ∧
      Readable (tW 3) (sE k0 (tW 3)) 0#2 [1#6, 2#6] [] ∧
      Uncancelled (tW 3) ∧
      (sE k0 (tW 3)).streamFor (tW 3).ctx (srcVal (tW 3) (sE k0 (tW 3)) 0#2 1#6) = some k0 ∧
      srcVal (tW 3) (sE k0 (tW 3)) 0#2 2#6 ≤ k0.eissued ∧
      (¬srcVal (tW 3) (sE k0 (tW 3)) 0#2 2#6 ≤ k0.etl) ∧
      (tW 3).handler = none) ∧
    (Clear (Instr.encWait (OpR.mk 0#6 1#6 2#6 0#2)) (sE k0 (tW 4)) (tW 4) ∧
      Readable (tW 4) (sE k0 (tW 4)) 0#2 [1#6, 2#6] [] ∧
      (sE k0 (tW 4)).streamFor (tW 4).ctx (srcVal (tW 4) (sE k0 (tW 4)) 0#2 1#6) = some k0 ∧
      k0.eissued < srcVal (tW 4) (sE k0 (tW 4)) 0#2 2#6) ∧
    (Clear (Instr.encTl (OpR.mk 5#6 1#6 0#6 0#2)) (sE k0 (tW 3)) (tW 3) ∧
      Readable (tW 3) (sE k0 (tW 3)) 0#2 [1#6] [5#6] ∧
      Uncancelled (tW 3) ∧
      (sE k0 (tW 3)).streamFor (tW 3).ctx (srcVal (tW 3) (sE k0 (tW 3)) 0#2 1#6) = some k0) ∧
    (Clear (Instr.encTl (OpR.mk 5#6 1#6 0#6 0#2)) encoderStreams_2 (tW 3) ∧
      Readable (tW 3) encoderStreams_2 0#2 [1#6] [5#6] ∧
      encoderStreams_2.streamFor (tW 3).ctx (srcVal (tW 3) encoderStreams_2 0#2 1#6) = none) ∧
    (Awaits (Pending.encTl 5#6 k0.n) tO (sE k0 tO) ∧
      Writable tO (sE k0 tO) 5#6 ∧
      (sE k0 tO).streamFor tO.ctx (dn k0.n) = some k0) ∧
    (StatReady (sE (k0 64 [F1, F0])) (k0 64 [F1, F0]) F1 ∧
      BuffersReady (sE (k0 64 [F1, F0])) (k0 64 [F1, F0]) F1 (min 3 F1.outcap) ∧
      List.find? (fun (j : Stream) => j.n == (k0 64 [F1, F0]).n) (sE (k0 64 [F1, F0])).streams = some (k0 64 [F1, F0]) ∧
      (k0 64 [F1, F0]).frames = [F1, F0] ∧
      3 < 2 ^ 32) ∧
    (StatReady encoderStreams_8 encoderStreams_6 encoderStreams_7 ∧
      List.find? (fun (j : Stream) => j.n == encoderStreams_6.n) encoderStreams_8.streams = some encoderStreams_6 ∧
      encoderStreams_6.frames = [encoderStreams_7, F0] ∧
      30 < 2 ^ 32 ∧
      encoderStreams_8.xlate encoderStreams_6.ctx none Need.read (encoderStreams_7.luma / 65536 * 65536) = Xlate.access ∧
      0 < encoderStreams_6.width) ∧
    (Clear (Instr.encPost (OpR.mk 5#6 1#6 2#6 0#2)) (sE k0 (tEm 16392 9)) (tEm 16392 9) ∧
      Readable (tEm 16392 9) (sE k0 (tEm 16392 9)) 0#2 [1#6, 2#6] [5#6] ∧
      BitVec.toNat (srcVal (tEm 16392 9) (sE k0 (tEm 16392 9)) 0#2 1#6) % 64 ≠ 0) ∧
    (Clear (Instr.encPost (OpR.mk 5#6 1#6 2#6 0#2)) (sE k0 (tEm 262144 9)) (tEm 262144 9) ∧
      Readable (tEm 262144 9) (sE k0 (tEm 262144 9)) 0#2 [1#6, 2#6] [5#6] ∧
      BitVec.toNat (srcVal (tEm 262144 9) (sE k0 (tEm 262144 9)) 0#2 1#6) % 64 = 0 ∧
      ((sE k0 (tEm 262144 9)).near (tEm 262144 9)).size < BitVec.toNat (srcVal (tEm 262144 9) (sE k0 (tEm 262144 9)) 0#2 1#6) + 64) ∧
    (Clear (Instr.encPost (OpR.mk 5#6 1#6 2#6 0#2)) (spad (sE k0) 16384 64 (fd + 2 ^ 328 * 200)) tE ∧
      Readable tE (spad (sE k0) 16384 64 (fd + 2 ^ 328 * 200)) 0#2 [1#6, 2#6] [5#6] ∧
      GoodBytes tE (spad (sE k0) 16384 64 (fd + 2 ^ 328 * 200)) (BitVec.toNat (srcVal tE (spad (sE k0) 16384 64 (fd + 2 ^ 328 * 200)) 0#2 1#6)) ∧
      (¬GoodFrame tE (spad (sE k0) 16384 64 (fd + 2 ^ 328 * 200)) k0 (BitVec.toNat (srcVal tE (spad (sE k0) 16384 64 (fd + 2 ^ 328 * 200)) 0#2 1#6))) ∧
      (spad (sE k0) 16384 64 (fd + 2 ^ 328 * 200)).streamFor tE.ctx (srcVal tE (spad (sE k0) 16384 64 (fd + 2 ^ 328 * 200)) 0#2 2#6) = some k0) :=
  ⟨⟨⟨rfl, rfl, rfl, fun h => absurd h (by decide +kernel), rfl, fun h => absurd h (by decide +kernel), by decide +kernel⟩, readableOf (by decide +kernel), by decide +kernel⟩,
   ⟨⟨rfl, rfl, rfl, fun h => absurd h (by decide +kernel), rfl, fun h => absurd h (by decide +kernel), by decide +kernel⟩, readableOf (by decide +kernel), (by unfold Unrivalled; exact (by decide +kernel)), by refine GoodBytes.mk ?_ ?_ ((by unfold soundRange; exact (by decide +kernel))) <;> decide +kernel, by refine GoodFrame.mk ?_ ?_ ?_ ?_ ?_ ?_ <;> decide +kernel, by decide +kernel⟩,
   ⟨⟨rfl, rfl, rfl, fun h => absurd h (by decide +kernel), rfl, fun h => absurd h (by decide +kernel), by decide +kernel⟩, readableOf (by decide +kernel), by decide +kernel⟩,
   ⟨⟨rfl, rfl, rfl, fun h => absurd h (by decide +kernel), rfl, fun h => absurd h (by decide +kernel), by decide +kernel⟩, readableOf (by decide +kernel), (by unfold RegionsDone; exact (by decide +kernel)), by decide +kernel⟩,
   ⟨⟨rfl, rfl, rfl, fun h => absurd h (by decide +kernel), rfl, fun h => absurd h (by decide +kernel), by decide +kernel⟩, readableOf (by decide +kernel), (by unfold Uncancelled; exact (by decide +kernel)), by decide +kernel⟩,
   ⟨⟨rfl, rfl, rfl, fun h => absurd h (by decide +kernel), rfl, fun h => absurd h (by decide +kernel), by decide +kernel⟩, readableOf (by decide +kernel), by decide +kernel⟩,
   ⟨⟨rfl, rfl, rfl, fun h => absurd h (by decide +kernel), rfl, fun h => absurd h (by decide +kernel), by decide +kernel⟩, readableOf (by decide +kernel), (by unfold Uncancelled; exact (by decide +kernel)), by decide +kernel⟩,
   ⟨⟨rfl, rfl, rfl, fun h => absurd h (by decide +kernel), rfl, fun h => absurd h (by decide +kernel), by decide +kernel⟩, readableOf (by decide +kernel), by decide +kernel⟩,
   ⟨awaitsOf rfl rfl (by decide +kernel), (by unfold Writable; exact (by decide +kernel)), by decide +kernel⟩,
   ⟨(by unfold StatReady; exact (⟨by decide +kernel, ⟨by decide +kernel, pagesMeet _ _ _ _ _ (by decide +kernel)⟩⟩)), (by unfold BuffersReady; exact (⟨by decide +kernel, ⟨pagesMeet _ _ _ _ _ (by decide +kernel), pagesMeet _ _ _ _ _ (by decide +kernel)⟩⟩)), by decide +kernel⟩,
   ⟨(by unfold StatReady; exact (⟨by decide +kernel, ⟨by decide +kernel, pagesMeet _ _ _ _ _ (by decide +kernel)⟩⟩)), by decide +kernel⟩,
   ⟨⟨rfl, rfl, rfl, fun h => absurd h (by decide +kernel), rfl, fun h => absurd h (by decide +kernel), by decide +kernel⟩, readableOf (by decide +kernel), by decide +kernel⟩,
   ⟨⟨rfl, rfl, rfl, fun h => absurd h (by decide +kernel), rfl, fun h => absurd h (by decide +kernel), by decide +kernel⟩, readableOf (by decide +kernel), by decide +kernel⟩,
   ⟨⟨rfl, rfl, rfl, fun h => absurd h (by decide +kernel), rfl, fun h => absurd h (by decide +kernel), by decide +kernel⟩, readableOf (by decide +kernel), by refine GoodBytes.mk ?_ ?_ ((by unfold soundRange; exact (by decide +kernel))) <;> decide +kernel, fun h => absurd (h.qp (by decide +kernel)) (by decide +kernel), by decide +kernel⟩⟩

theorem test_wit_Ownership :
    ((Instr.ownGrant (OpR.mk 5#6 1#6 0#6 0#2) = Instr.ownGrant (OpR.mk 5#6 1#6 0#6 0#2) ∧ true = true ∨   Instr.ownGrant (OpR.mk 5#6 1#6 0#6 0#2) = Instr.ownRevoke (OpR.mk 5#6 1#6 0#6 0#2) ∧ true = false) ∧
      Clear (Instr.ownGrant (OpR.mk 5#6 1#6 0#6 0#2)) (sF (tF [(1, 64)]) 1193046) (tF [(1, 64)]) ∧
      Readable (tF [(1, 64)]) (sF (tF [(1, 64)]) 1193046) 0#2 [1#6] [5#6] ∧
      Uncancelled (tF [(1, 64)]) ∧
      GoodBytes (tF [(1, 64)]) (sF (tF [(1, 64)]) 1193046) (BitVec.toNat (srcVal (tF [(1, 64)]) (sF (tF [(1, 64)]) 1193046) 0#2 1#6))) ∧
    (Awaits (Pending.own true 5#6 (gr 3 32769 7 6 4 54 (2 ^ 22))) (tG (gr 3 32769 7 6 4 54 (2 ^ 22))) ownership_9 ∧
      GoodGrant ownership_9 (grantOf (gr 3 32769 7 6 4 54 (2 ^ 22))) ∧
      BitVec.toNat 5#6 < 40 ∧
      ownership_9.rangeAwake (grantOf (gr 3 32769 7 6 4 54 (2 ^ 22))).vault (2 ^ 22) = true) ∧
    (Awaits (Pending.own true 5#6 (gr 3 32769 7 6 4 54 (2 ^ 22))) (tG (gr 3 32769 7 6 4 54 (2 ^ 22))) ownership_11 ∧
      BitVec.toNat 5#6 < 40 ∧
      (grantOf (gr 3 32769 7 6 4 54 (2 ^ 22))).rsv = false ∧
      ForeignCore ownership_11 (grantOf (gr 3 32769 7 6 4 54 (2 ^ 22))) = true) ∧
    (Awaits (Pending.own false 5#6 gv) (tV gv) (own7 (rel (sF (tV gv)) (some 7)) [0, 15]) ∧
      BitVec.toNat 5#6 < 40 ∧
      (grantOf gv).rsv = false ∧
      (∀ (c : Nat), c ∈ (grantOf gv).named → ((own7 (rel (sF (tV gv)) (some 7)) [0, 15]).core c).owner = some (grantOf gv).ctx) ∧
      (∀ (c : Nat), c ∈ (grantOf gv).named → (own7 (rel (sF (tV gv)) (some 7)) [0, 15]).coreBusy c = false) ∧
      (own7 (rel (sF (tV gv)) (some 7)) [0, 15]).rangeAwake ((own7 (rel (sF (tV gv)) (some 7)) [0, 15]).cluster (grantOf gv).cl).vault (2 ^ 22) = true) ∧
    (Clear (Instr.pinv (OpR.mk 5#6 1#6 2#6 0#2)) (sF tP) tP ∧
      Readable tP (sF tP) 0#2 [5#6, 1#6, 2#6] [] ∧
      Uncancelled tP ∧
      BitVec.toNat (srcVal tP (sF tP) 0#2 5#6) < 4096 ∧
      BitVec.toNat (srcVal tP (sF tP) 0#2 1#6) < 2 ^ 52) ∧
    (Clear (Instr.pinv (OpR.mk 5#6 1#6 2#6 0#2)) (sF tP2) tP2 ∧
      Readable tP2 (sF tP2) 0#2 [5#6, 1#6, 2#6] [] ∧
      4096 ≤ BitVec.toNat (srcVal tP2 (sF tP2) 0#2 5#6)) ∧
    (Clear (Instr.pinv (OpR.mk 5#6 1#6 2#6 0#2)) (sF tP3) tP3 ∧
      Readable tP3 (sF tP3) 0#2 [5#6, 1#6, 2#6] [] ∧
      BitVec.toNat (srcVal tP3 (sF tP3) 0#2 5#6) < 4096 ∧
      2 ^ 52 ≤ BitVec.toNat (srcVal tP3 (sF tP3) 0#2 1#6)) ∧
    (Clear (Instr.pzero (OpR.mk 5#6 1#6 0#6 0#2)) (sF tZ) tZ ∧
      Readable tZ (sF tZ) 0#2 [5#6, 1#6] [5#6] ∧
      Uncancelled tZ ∧
      (BitVec.toNat (srcVal tZ (sF tZ) 0#2 5#6) ≠ 0 ∧   BitVec.toNat (srcVal tZ (sF tZ) 0#2 5#6) % 65536 = 0 ∧     BitVec.toNat (srcVal tZ (sF tZ) 0#2 5#6) ≤ 2 ^ 30 ∧       BitVec.toNat (srcVal tZ (sF tZ) 0#2 1#6) % 65536 = 0 ∧         ∀ (i : Nat), i < BitVec.toNat (srcVal tZ (sF tZ) 0#2 5#6) / 65536 → (sF tZ).present (BitVec.toNat (srcVal tZ (sF tZ) 0#2 1#6) + 65536 * i) = true)) ∧
    (Awaits (Pending.pzero 5#6 65536 65536) tY ownership_12 ∧
      BitVec.toNat 5#6 < 40 ∧
      ownership_12.rangeAwake 65536 65536 = true) ∧
    ((Instr.ownGrant (OpR.mk 5#6 1#6 0#6 0#2) = Instr.ownGrant (OpR.mk 5#6 1#6 0#6 0#2) ∧ true = true ∨   Instr.ownGrant (OpR.mk 5#6 1#6 0#6 0#2) = Instr.ownRevoke (OpR.mk 5#6 1#6 0#6 0#2) ∧ true = false) ∧
      Clear (Instr.ownGrant (OpR.mk 5#6 1#6 0#6 0#2)) (sF (tF [(1, 72)])) (tF [(1, 72)]) ∧
      Readable (tF [(1, 72)]) (sF (tF [(1, 72)])) 0#2 [1#6] [5#6] ∧
      BitVec.toNat (srcVal (tF [(1, 72)]) (sF (tF [(1, 72)])) 0#2 1#6) % 64 ≠ 0) ∧
    ((Instr.ownRevoke (OpR.mk 5#6 1#6 0#6 0#2) = Instr.ownGrant (OpR.mk 5#6 1#6 0#6 0#2) ∧ false = true ∨   Instr.ownRevoke (OpR.mk 5#6 1#6 0#6 0#2) = Instr.ownRevoke (OpR.mk 5#6 1#6 0#6 0#2) ∧ false = false) ∧
      Clear (Instr.ownRevoke (OpR.mk 5#6 1#6 0#6 0#2)) (sF (tF [(1, 67108864)])) (tF [(1, 67108864)]) ∧
      Readable (tF [(1, 67108864)]) (sF (tF [(1, 67108864)])) 0#2 [1#6] [5#6] ∧
      BitVec.toNat (srcVal (tF [(1, 67108864)]) (sF (tF [(1, 67108864)])) 0#2 1#6) % 64 = 0 ∧
      ((sF (tF [(1, 67108864)])).near (tF [(1, 67108864)])).size < BitVec.toNat (srcVal (tF [(1, 67108864)]) (sF (tF [(1, 67108864)])) 0#2 1#6) + 64) ∧
    (Awaits (Pending.own true 5#6 gR) (tG gR) (rel (sF (tG gR))) ∧
      BitVec.toNat 5#6 < 40 ∧
      (grantOf gR).rsv = true) ∧
    (Awaits (Pending.own true 5#6 gOk) (tG gOk) (sF (tG gOk)) ∧
      GoodSplit (grantOf gOk) ∧
      GoodCluster (sF (tG gOk)) (grantOf gOk) ∧
      BitVec.toNat 5#6 < 40 ∧
      (grantOf gOk).rsv = false ∧
      ForeignCore (sF (tG gOk)) (grantOf gOk) = false ∧
      ((sF (tG gOk)).cluster (grantOf gOk).cl).released = false) ∧
    (Awaits (Pending.own false 5#6 gVr) (tV gVr) (own7 (rel (sF (tV gVr)) (some 7)) [0, 15]) ∧
      BitVec.toNat 5#6 < 40 ∧
      (grantOf gVr).rsv = true) ∧
    (Awaits (Pending.own false 5#6 gv) (tV gv) (own7 (rel (sF (tV gv)) (some 7)) [0]) ∧
      BitVec.toNat 5#6 < 40 ∧
      clusterCore 3 15 ∈ (grantOf gv).named ∧
      (grantOf gv).rsv = false ∧
      ((own7 (rel (sF (tV gv)) (some 7)) [0]).core (clusterCore 3 15)).owner ≠ some (grantOf gv).ctx) ∧
    (Awaits (Pending.own false 5#6 gv) (tV gv) (busy (own7 (rel (sF (tV gv)) (some 7)) [0, 15])) ∧
      BitVec.toNat 5#6 < 40 ∧
      (grantOf gv).rsv = false ∧
      (∀ (c : Nat), c ∈ (grantOf gv).named → ((busy (own7 (rel (sF (tV gv)) (some 7)) [0, 15])).core c).owner = some (grantOf gv).ctx) ∧
      clusterCore 3 15 ∈ (grantOf gv).named ∧
      (busy (own7 (rel (sF (tV gv)) (some 7)) [0, 15])).coreBusy (clusterCore 3 15) = true) ∧
    (Clear (Instr.pzero (OpR.mk 5#6 1#6 0#6 0#2)) (sF tZn) tZn ∧
      Readable tZn (sF tZn) 0#2 [5#6, 1#6] [5#6] ∧
      (¬(BitVec.toNat (srcVal tZn (sF tZn) 0#2 5#6) ≠ 0 ∧     BitVec.toNat (srcVal tZn (sF tZn) 0#2 5#6) % 65536 = 0 ∧       BitVec.toNat (srcVal tZn (sF tZn) 0#2 5#6) ≤ 2 ^ 30 ∧         BitVec.toNat (srcVal tZn (sF tZn) 0#2 1#6) % 65536 = 0 ∧           ∀ (i : Nat), i < BitVec.toNat (srcVal tZn (sF tZn) 0#2 5#6) / 65536 → (sF tZn).present (BitVec.toNat (srcVal tZn (sF tZn) 0#2 1#6) + 65536 * i) = true))) ∧
    (Awaits (Pending.own true 5#6 gS2) (tG gS2) (rel (sF (tG gS2))) ∧
      (¬GoodSplit (grantOf gS2)) ∧
      BitVec.toNat 5#6 < 40 ∧
      (grantOf gS2).rsv = false ∧
      ForeignCore (rel (sF (tG gS2))) (grantOf gS2) = false) ∧
    (Awaits (Pending.own true 5#6 gS3) (tG gS3) (rel (sF (tG gS3))) ∧
      GoodSplit (grantOf gS3) ∧
      (¬GoodCluster (rel (sF (tG gS3))) (grantOf gS3)) ∧
      BitVec.toNat 5#6 < 40 ∧
      (grantOf gS3).rsv = false ∧
      ForeignCore (rel (sF (tG gS3))) (grantOf gS3) = false) :=
  ⟨⟨Or.inl (⟨rfl, by decide +kernel⟩), ⟨rfl, rfl, rfl, fun h => absurd h (by decide +kernel), rfl, fun h => absurd h (by decide +kernel), by decide +kernel⟩, readableOf (by decide +kernel), (by unfold Uncancelled; exact (by decide +kernel)), by refine GoodBytes.mk ?_ ?_ ((by unfold soundRange; exact (by decide +kernel))) <;> decide +kernel⟩,
   ⟨awaitsOf rfl rfl (by decide +kernel), by refine GoodGrant.mk ?_ ?_ ((by unfold GoodSplit; exact (by decide +kernel))) ((by unfold GoodCluster; exact (by decide +kernel))) ?_ <;> decide +kernel, by decide +kernel⟩,
   ⟨awaitsOf rfl rfl (by decide +kernel), by decide +kernel⟩,
   ⟨awaitsOf rfl rfl (by decide +kernel), by decide +kernel⟩,
   ⟨⟨rfl, rfl, rfl, fun h => absurd h (by decide +kernel), rfl, fun h => absurd h (by decide +kernel), by decide +kernel⟩, readableOf (by decide +kernel), (by unfold Uncancelled; exact (by decide +kernel)), by decide +kernel⟩,
   ⟨⟨rfl, rfl, rfl, fun h => absurd h (by decide +kernel), rfl, fun h => absurd h (by decide +kernel), by decide +kernel⟩, readableOf (by decide +kernel), by decide +kernel⟩,
   ⟨⟨rfl, rfl, rfl, fun h => absurd h (by decide +kernel), rfl, fun h => absurd h (by decide +kernel), by decide +kernel⟩, readableOf (by decide +kernel), by decide +kernel⟩,
   ⟨⟨rfl, rfl, rfl, fun h => absurd h (by decide +kernel), rfl, fun h => absurd h (by decide +kernel), by decide +kernel⟩, readableOf (by decide +kernel), (by unfold Uncancelled; exact (by decide +kernel)), by decide +kernel⟩,
   ⟨awaitsOf rfl rfl (by decide +kernel), by decide +kernel⟩,
   ⟨Or.inl (⟨rfl, by decide +kernel⟩), ⟨rfl, rfl, rfl, fun h => absurd h (by decide +kernel), rfl, fun h => absurd h (by decide +kernel), by decide +kernel⟩, readableOf (by decide +kernel), by decide +kernel⟩,
   ⟨Or.inr (⟨rfl, by decide +kernel⟩), ⟨rfl, rfl, rfl, fun h => absurd h (by decide +kernel), rfl, fun h => absurd h (by decide +kernel), by decide +kernel⟩, readableOf (by decide +kernel), by decide +kernel⟩,
   ⟨awaitsOf rfl rfl (by decide +kernel), by decide +kernel⟩,
   ⟨awaitsOf rfl rfl (by decide +kernel), (by unfold GoodSplit; exact (by decide +kernel)), (by unfold GoodCluster; exact (by decide +kernel)), by decide +kernel⟩,
   ⟨awaitsOf rfl rfl (by decide +kernel), by decide +kernel⟩,
   ⟨awaitsOf rfl rfl (by decide +kernel), by decide +kernel⟩,
   ⟨awaitsOf rfl rfl (by decide +kernel), by decide +kernel⟩,
   ⟨⟨rfl, rfl, rfl, fun h => absurd h (by decide +kernel), rfl, fun h => absurd h (by decide +kernel), by decide +kernel⟩, readableOf (by decide +kernel), by decide +kernel⟩,
   ⟨awaitsOf rfl rfl (by decide +kernel), (by unfold GoodSplit; decide +kernel), by decide +kernel⟩,
   ⟨awaitsOf rfl rfl (by decide +kernel), (by unfold GoodSplit; exact (by decide +kernel)), (by unfold GoodCluster; decide +kernel), by decide +kernel⟩⟩

end W7

namespace W8

def J : Job := (S0.job? 0).getD (placedJob 0)
def m0 : Msg := ⟨0, 64, 5, 1, 0, 0, 77, 99, true, [], 0⟩
def m1 : Msg := ⟨0, 64, 6, 1, 0, 0, 77, 99, false, [], 0⟩
def own5 (s : State) : State := s.modCore 5 fun c => { c with owner := some 0 }
def tM : Thread := outT (.amsg 5 none)
def hd (n : Nat) : Handler := ⟨1, true, 77, n, 0⟩
def tH : Thread := { Thread.fresh 2 0 (.phase 5 7) 0x10040 with run := .runnable, handler := some (hd 256) }
def l0 : L1Line := ⟨256, 5, 0, 0⟩
def tFs : Thread := { T0 with lastIssue := 130, run := .out W0 (.fence true false true 0 [] (some 3)) }
def tU : Thread := { T0 with unretired := [⟨1, [3]⟩, ⟨2, [4]⟩], region := ⟨3, []⟩ }
def sU : State := { st tU with race := [⟨8, some ⟨1, 1⟩, [⟨1, 2⟩, ⟨1, 1⟩]⟩, ⟨9, some ⟨1, 1⟩, []⟩, ⟨10, some ⟨1, 2⟩, [⟨1,1⟩]⟩] }
def sTab : State := wm (wm S0 Root 8 (0x20000 + 1)) (0x20000 + 8 * 1) 8 0x1F
def tT : Thread := csr { T0 with pc := 0x1004 } fun c => { c with tbase := 0x9000, pfx := true, latch := 5 }
def wP : Wake := ⟨.page, 0, 0x12345678, 0, false, false⟩
def tP : Thread := { T0 with run := .parked wP false }
def fr : FaultRec := ⟨0, 0x1234, 1, 1, 0, [.thread 1], 0, 0, 0, true⟩
def sP : State := { st tP with faults := [fr] }
def tW (l : BitVec 2) : Thread := { Thread.fresh 1 4096 (.fw 0 0 0) 0x1000 with lev := l }
def sW (l : BitVec 2) (a b : Word) : State := let s : State := { State.reset with threads := [tW l], cur := 1, nextTid := 2 }
  { s with fwcores := s.fwcores.map fun f => if f.die == 0 && f.n == 0 then { f with ftbase0 := a, ftbase1 := b } else f }
def tS : Thread := { T0 with loc := .slot 0 2, run := .parked W0 true }
def tB : Thread := { Thread.fresh 2 0 (.phase 0 6) 0x10040 with run := .parked W0 false }
def tPk : Thread := { T0 with run := .parked W0 false, request := some 9 }
def tSv : Thread := { (regs [(1,5),(31,0xFFFFFFFFFFFFFFFF),(32,7),(48,9)]) with run := .saving W0 none true 0x400000 false, pc := 0x10044 }
def Jf : Job := { J with frames := [(0x400000, 1), (0x401000, 1)] }
def sSv : State := { st tSv with jobs := [Jf] }
def tFr : Thread := { tSv with run := .parked W0 true, loc := .frame 0x400000 0 1 none }
def frame0 : List (Nat × Nat × Nat) :=
  [(0, 1, 1), (8, 2, 0xB80), (20, 1, 9), (32, 1, 1), (40, 3, 0x10044), (128, 1, 5), (368, 9, 0x7FFFFFFFFFFFFFFFFFF), (456, 7, 2 ^ 55 - 1),
   (496, 1, 0x81), (585, 1, 0x2E), (593, 1, 4)]
def sFr : State := { st tFr with
  jobs := [Jf], mem := frame0.foldl (fun m w => Memory.write m (0x400000 + w.1) w.2.1 w.2.2) S0.mem }
def tRs : Thread := { T0 with run := .restoring W0 none true }
def tRr : Thread := { T0 with run := .restoring W0 (some (.replied (.scalar 5 77))) true }
def tBu : Thread := csr { T0 with budget := 1000 } fun c => { c with remain := 7 }
def sBw : State := { st tBu with threads := [tBu, { Thread.fresh 2 0 (.slot 0 2) 0x10040 with run := .parked W0 true, recPrio := 5 }], nextTid := 3 }
def wF : Wake := ⟨.future, 0, 9, 0, false, false⟩
def tWl : Thread := { T0 with run := .parked wF false, wait := some ⟨0, 10, 100, false⟩ }
def tA : Thread := csr { T0 with loc := .slot 0 2, run := .parked W0 true, agedAt := 10 } fun c => { c with prio := 255 }
def vic (p : Nat) (x : Nat) : Thread := { Thread.fresh (10 + p) 0 (.phase 0 p) 0x10040 with recPrio := BitVec.ofNat 8 x, csr := { (Thread.fresh 1 0 (.phase 0 p) 0).csr with prio := BitVec.ofNat 8 x } }
def tN : Thread := csr { T0 with loc := .slot 0 2, run := .parked W0 true } fun c => { c with prio := 50 }
def sN : State := { S0 with threads := tN :: (List.range 7).map fun p => vic p (if p == 3 then 51 else 50), nextTid := 30 }
def tMg : Thread := { T0 with run := .parked W0 false, migTarget := some 3, csr := { T0.csr with migoff := false } }
def sMg : State := (st tMg).modCore 12 fun c => { c with owner := some 0 }
def tSl : Thread := { T0 with run := .parked wF false }
def messageEvents_0 : State := S0.modCore 0 fun c => { c with outb := [m1, m0] }
def messageEvents_1 : State := own5 (S0.modCore 5 fun c => { c with inb := [m0, m1] })
def messageEvents_2 : State := { own5 (st tM) with threads := [tM, tH], nextTid := 3 }
def cacheEvents_3 : State := S0.modCore 0 fun c => { c with l1 := [⟨0,1,0,0⟩, l0] }
def cacheEvents_4 : State := { st tFs with cycle := 140, cleared := 2 }
def faultEvents_5 : Pending := .load (2^36) 0 8 .signed 5 false 5 none
def faultEvents_6 : Thread := outT (.walk .read (2^36) 8 5 (.load (2^36) 0 8 .signed 5 false 5 none))
def faultEvents_7 : State := st (outT (.walk .read (2^36) 8 5 (.load (2^36) 0 8 .signed 5 false 5 none)))
def placement_10 : State := { st tS with threads := [tS, tB], nextTid := 3 }
def placement_11 : State := { sFr with image := ⟨0, [1], 0⟩ }
def placement_12 : State := { sFr with image := ⟨0, [2], 0⟩ }
def tellerEvents_13 : State := { st tWl with cycle := 110 }
def tellerEvents_14 : Job := { J with ageCap := 254 }
def tellerEvents_15 : State := { st tA with cycle := 10 + 1000 * J.age, jobs := [{ J with ageCap := 254 }] }
def tellerEvents_18 : Job := { J with asleep := some 64 }
def tellerEvents_19 : State := { st tSl with jobs := [{ J with asleep := some 64 }], cycle := 500 }
def placement_20 : Thread := { T0 with run := .restoring W0 (some (.fetch 0x40)) true }
def placement_21 : State := st { T0 with run := .restoring W0 (some (.fetch 0x40)) true }

theorem test_wit_MessageEvents :
    (messageEvents_1.job? m0.ctx = some J ∧
      (messageEvents_1.core 5).inb = [m0, m1] ∧
      m0.target = 5 ∧
      (∀ (t : Thread), t ∈ messageEvents_1.threads → t.loc ≠ Loc.phase 5 7 ∧ t.tid < messageEvents_1.nextTid)) ∧
    (messageEvents_2.thread? tH.tid = some tH ∧
      messageEvents_2.thread? (hd 256).sender = some tM ∧
      tH.loc = Loc.phase 5 7 ∧
      tH.run = Run.runnable ∧
      tH.handler = some (hd 256) ∧
      256 ≤ (hd 256).issues ∧
      (hd 256).wantReply = true ∧
      tM.tid ≠ tH.tid ∧
      tM.run = Run.out W0 (Pending.amsg 5#6 none)) ∧
    ((messageEvents_0.core 0).outb[1]? = some m0 ∧
      messageEvents_0.performed m0.after = true ∧
      (messageEvents_0.core m0.target).inb.length < 16 ∧
      (∀ (q : Msg), q ∈ List.take 1 (messageEvents_0.core 0).outb → q.target ≠ m0.target)) :=
  ⟨⟨rfl, by decide +kernel⟩,
   ⟨rfl, rfl, by decide +kernel⟩,
   by decide +kernel⟩

theorem test_wit_CacheEvents :
    (sU.thread? tU.tid = some tU ∧
      Region.mk 1#2 [3] ∈ tU.unretired ∧
      1#2 = 1#2 ∧
      sU.checkedPieces tU.tid 1#2 = false) ∧
    (sTab.job? 0 = some J ∧
      sTab.pointerAt (2 ^ 29) 0 3 0 J.root = some (131073 : Word)) ∧
    (S0.job? 0 = some J ∧
      S0.walkFrom (coreCluster 0) 0 327680 4 0 J.root = Except.ok (Leaf, 0)) ∧
    (S0.job? 0 = some J ∧
      S0.walkFrom (coreCluster 0) 0 (2 ^ 36) 4 0 J.root = Except.error (WalkStop.mk 1 0)) ∧
    (l0 ∈ (cacheEvents_3.core 0).l1 ∧
      l0.pa = 256) ∧
    (3 ∈ cacheEvents_4.openWindows ∧
      (∀ (v : Nat), v ∈ cacheEvents_4.openWindows → 3 ≤ v) ∧
      cacheEvents_4.reachedBy (32 * (3 + 1) + 15) = true) :=
  ⟨⟨rfl, by decide +kernel⟩,
   ⟨rfl, by decide +kernel⟩,
   ⟨rfl, okEq (by decide +kernel)⟩,
   ⟨rfl, errEq (by decide +kernel)⟩,
   by decide +kernel⟩

theorem test_wit_FaultEvents :
    (Traps (st tT) tT) ∧
    (Traps (st tT) tT) ∧
    (sP.job? fr.ctx = some J ∧
      sP.thread? tP.tid = some tP ∧
      sP.faults = [fr] ∧
      fr.written = true ∧
      fr.waiters = [FaultWaiter.thread tP.tid] ∧
      tP.run = Run.parked wP false ∧
      wP.kind = WakeKind.page ∧
      BitVec.toNat wP.operand / 65536 = fr.page ∧
      tP.evicted = false) ∧
    (Awaits (Pending.walk Need.read ((2 : Word) ^ 36) 8 5 faultEvents_5) faultEvents_6 faultEvents_7 ∧
      faultEvents_7.job? faultEvents_6.ctx = some J ∧
      faultEvents_7.walkFrom faultEvents_6.cluster faultEvents_6.ctx (BitVec.toNat ((2 : Word) ^ 36)) 4 0 J.root = Except.error (WalkStop.mk 1 0) ∧
      faultEvents_7.faults = [] ∧
      faultEvents_7.hasWalker faultEvents_6 (BitVec.toNat ((2 : Word) ^ 36)) 5 = true ∧
      faultEvents_7.cachedAt [TlbPlace.l2 faultEvents_6.cluster] faultEvents_6.ctx (BitVec.toNat ((2 : Word) ^ 36)) = none ∧
      faultEvents_7.translationWaits [TlbPlace.l2 faultEvents_6.cluster] faultEvents_6.ctx (BitVec.toNat ((2 : Word) ^ 36)) = false) ∧
    ((sW 2#2 (256 : Word) (512 : Word)).thread? (tW 2#2).tid = some (tW 2#2) ∧
      (tW 2#2).loc = Loc.fw 0 0 0 ∧
      (tW 2#2).lev.toNat ≤ 2 ∧
      ((if       (if (tW 2#2).lev = 2#2 then 1#2 else if (tW 2#2).lev = 1#2 ∧ Cause.illegal = Cause.ecall then 0#2 else (tW 2#2).lev) =         1#2 then     ((sW 2#2 (256 : Word) (512 : Word)).fwcore 0 0).ftbase1   else ((sW 2#2 (256 : Word) (512 : Word)).fwcore 0 0).ftbase0) ≠   0#64)) ∧
    ((sW 0#2 (0 : Word) (512 : Word)).thread? (tW 0#2).tid = some (tW 0#2) ∧
      (tW 0#2).loc = Loc.fw 0 0 0 ∧
      (tW 0#2).lev.toNat ≤ 2 ∧
      ((if       (if (tW 0#2).lev = 2#2 then 1#2 else if (tW 0#2).lev = 1#2 ∧ Cause.ecall = Cause.ecall then 0#2 else (tW 0#2).lev) =         1#2 then     ((sW 0#2 (0 : Word) (512 : Word)).fwcore 0 0).ftbase1   else ((sW 0#2 (0 : Word) (512 : Word)).fwcore 0 0).ftbase0) =   0#64)) :=
  ⟨by refine Traps.mk (rfl) ?_ ?_ ?_ ?_ <;> decide +kernel,
   by refine Traps.mk (rfl) ?_ ?_ ?_ ?_ <;> decide +kernel,
   ⟨rfl, rfl, by decide +kernel⟩,
   ⟨awaitsOf rfl rfl (by decide +kernel), rfl, errEq (by decide +kernel), by decide +kernel⟩,
   ⟨rfl, by decide +kernel⟩,
   ⟨rfl, by decide +kernel⟩⟩

theorem test_wit_Placement_1 :
    (st tS).thread? tS.tid = some tS ∧
      OnlyReady tS (st tS) ∧
      tS.loc = Loc.slot 0 2 ∧
      6 < 7 ∧
      tS.migTarget = none ∧
      tS.request = none ∧
      (st tS).quiesce = none ∧
      (st tS).owns tS.ctx 0 = true ∧
      (tS.csr.pin = true → 2 = 6) ∧
      (st tS).holder 0 6 = none ∧
      (st tS).phaseFree 0 6 = true :=
  ⟨rfl, (by unfold OnlyReady; exact (by decide +kernel)), by decide +kernel⟩

theorem test_wit_Placement_2 :
    ParkedIn tPk (st tPk) 0 1 W0 false ∧
      (st tPk).job? tPk.ctx = some J ∧
      tPk.migTarget = none ∧
      J.frameRoom 1 = some 4194304 ∧
      (tPk.request.isSome = true ∨ (st tPk).quiesce.isSome = true) :=
  ⟨by refine ParkedIn.mk (rfl) ?_ ?_ ?_ ?_ ?_ <;> decide +kernel, rfl, by decide +kernel⟩

theorem test_wit_Placement_3 :
    (wm sSv 4194296 16 (2 ^ 100 - 1)).thread? tSv.tid = some tSv ∧
      FrameAt (wm sSv 4194296 16 (2 ^ 100 - 1)) tSv.ctx 4194304 4194304 4096 ∧
      tSv.loc = Loc.phase 0 1 ∧
      tSv.run = Run.saving W0 none true 4194304 false ∧
      (wm sSv 4194296 16 (2 ^ 100 - 1)).engineOf tSv = none ∧
      tSv.taken = [] ∧
      (wm sSv 4194296 16 (2 ^ 100 - 1)).frameAwake tSv.ctx 4194304 2944 = true :=
  ⟨rfl, (by unfold FrameAt; exact (frameAt_root _ _ _ _ _ (by decide +kernel) rfl (by decide +kernel) (by decide +kernel) (by decide +kernel) (by decide +kernel))), by decide +kernel⟩

theorem test_wit_Placement_4 :
    OnlyReady tFr placement_11 ∧
      (placement_11.thread? tFr.tid = some tFr ∧ tFr.loc = Loc.frame (4194304 : Word) 0 1 none ∧ 0 < 7 ∧ placement_11.quiesce = none ∧ placement_11.job? tFr.ctx = some Jf ∧ lookupD Jf.frames (BitVec.toNat (4194304 : Word)) 1 = 1 ∧ placement_11.mayTakePhase tFr 0 0 = true ∧ placement_11.frameAwake tFr.ctx (BitVec.toNat (4194304 : Word)) 2944 = true ∧ placement_11.holder 0 0 = none ∧ placement_11.phaseFree 0 0 = true ∧ placement_11.restorePlace tFr = some (0, 0) ∧ placement_11.image.layouts.contains (placement_11.jobRead tFr.ctx (BitVec.toNat (4194304 : Word)) 2) = true) ∧
      placement_11.frameBad tFr.ctx (BitVec.toNat (4194304 : Word)) = false :=
  ⟨(by unfold OnlyReady; exact (by decide +kernel)), by decide +kernel, by decide +kernel⟩

theorem test_wit_Placement_5 :
    OnlyReady tFr placement_12 ∧
      placement_12.thread? tFr.tid = some tFr ∧
      tFr.loc = Loc.frame (4194304 : Word) 0 1 none ∧
      0 < 7 ∧
      placement_12.quiesce = none ∧
      placement_12.job? tFr.ctx = some Jf ∧
      lookupD Jf.frames (BitVec.toNat (4194304 : Word)) 1 = 1 ∧
      placement_12.mayTakePhase tFr 0 0 = true ∧
      placement_12.frameAwake tFr.ctx (BitVec.toNat (4194304 : Word)) 2944 = true ∧
      placement_12.holder 0 0 = none ∧
      placement_12.phaseFree 0 0 = true ∧
      placement_12.restorePlace tFr = some (0, 0) ∧
      placement_12.image.layouts.contains (placement_12.jobRead tFr.ctx (BitVec.toNat (4194304 : Word)) 2) = false :=
  ⟨(by unfold OnlyReady; exact (by decide +kernel)), by decide +kernel⟩

theorem test_wit_Placement_6 :
    (st tRs).thread? tRs.tid = some tRs ∧
      tRs.run = Run.restoring W0 none true :=
  ⟨rfl, by decide +kernel⟩

theorem test_wit_Placement_7 :
    OnlyReady tS placement_10 ∧
      placement_10.holder 0 6 = some tB ∧
      placement_10.thread? tS.tid = some tS ∧
      tS.loc = Loc.slot 0 2 ∧
      6 < 7 ∧
      tS.migTarget = none ∧
      tS.request = none ∧
      placement_10.quiesce = none ∧
      placement_10.owns tS.ctx 0 = true ∧
      (tS.csr.pin = true → 2 = 6) ∧
      placement_10.thread? tB.tid = some tB ∧
      placement_10.lendable tB (placement_10.level tS) = true :=
  ⟨(by unfold OnlyReady; exact (by decide +kernel)), rfl, by decide +kernel⟩

theorem test_wit_Placement_8 :
    (∀ (r : Delivery), Pending.fetch (64 : Word) ≠ Pending.replied r) ∧
      placement_21.thread? placement_20.tid = some placement_20 ∧
      placement_20.run = Run.restoring W0 (some (Pending.fetch (64 : Word))) true :=
  ⟨nofun, by decide +kernel⟩

theorem test_wit_Placement_9 :
    (st tRr).thread? tRr.tid = some tRr ∧
      Writable tRr (st tRr) 5#6 ∧
      tRr.run = Run.restoring W0 (some (Pending.replied (Delivery.scalar 5#6 (77 : Word)))) true ∧
      W0.win = 0#2 :=
  ⟨rfl, (by unfold Writable; exact (by decide +kernel)), by decide +kernel⟩

theorem test_wit_TellerEvents :
    ((st tBu).thread? tBu.tid = some tBu ∧
      Uncancelled tBu ∧
      tBu.loc = Loc.phase 0 1 ∧
      tBu.handler = none ∧
      tBu.run = Run.runnable ∧
      (st tBu).reload tBu ≠ 0 ∧
      BitVec.toNat tBu.csr.remain < 8 ∧
      (st tBu).phaseWanted tBu = false ∧
      tBu.migTarget = none ∧
      (st tBu).quiesce = none) ∧
    (sBw.thread? tBu.tid = some tBu ∧
      Uncancelled tBu ∧
      tBu.loc = Loc.phase 0 1 ∧
      tBu.handler = none ∧
      tBu.run = Run.runnable ∧
      sBw.reload tBu ≠ 0 ∧
      BitVec.toNat tBu.csr.remain < 8 ∧
      sBw.phaseWanted tBu = true) ∧
    (tellerEvents_13.thread? tWl.tid = some tWl ∧
      tWl.run = Run.parked wF false ∧
      tWl.wait = some (WaitRec.mk (0 : Word) 10 100 false) ∧
      wF.kind.counts = true ∧
      100 ≠ 0 ∧
      tellerEvents_13.reachedBy (10 + 100) = true ∧
      tellerEvents_13.quiesce = none) ∧
    (tellerEvents_15.thread? tA.tid = some tA ∧
      tellerEvents_15.job? tA.ctx = some tellerEvents_14 ∧
      tA.waitsPhase = true ∧
      tA.isFw = false ∧
      tellerEvents_14.ageCap < tA.csr.prio.toNat ∧
      tA.agedAt + 1000 * tellerEvents_14.age ≤ tellerEvents_15.now) ∧
    (sN.thread? tN.tid = some tN ∧
      tN.waitsPhase = true ∧
      sN.quiesce = none ∧
      sN.asked tN.tid = false ∧
      (∀ (c : Core), c ∈ sN.cores → ∀ (p : Nat), p < 7 → sN.mayTakePhase tN c.id p = true → sN.phaseFree c.id p = false) ∧
      sN.victims tN.ctx (sN.level tN) (sN.mayTakePhase tN) = [vic 3 51]) ∧
    (ParkedIn tMg sMg 0 1 W0 false ∧
      sMg.job? tMg.ctx = some J ∧
      tMg.csr.pin = false ∧
      tMg.csr.migoff = false ∧
      tMg.migTarget = some 3 ∧
      sMg.core 12 ∈ sMg.cores ∧
      sMg.mayTakePhase     (Thread.mk tMg.tid tMg.num tMg.ctx (Loc.frame 0#64 tMg.coreId tMg.lastPhase (some 3)) tMg.run tMg.pc tMg.c tMg.csr tMg.tagCount tMg.next tMg.rtl tMg.rissued tMg.qtl tMg.qissued tMg.region tMg.unretired tMg.wait tMg.due tMg.taken tMg.synced tMg.record       tMg.note tMg.in0 tMg.in1 tMg.radius tMg.hint tMg.recPrio tMg.budget tMg.readyAt tMg.agedAt tMg.dispatchedAt tMg.lastIssue tMg.creqAck tMg.migTarget tMg.freshFrom tMg.request tMg.contract tMg.charged tMg.pipeline tMg.closed tMg.caller tMg.handler tMg.exiting tMg.lev tMg.plev)     (sMg.core 12).id 0 =   true ∧
      J.frameRoom 1 = some 4194304) ∧
    ((st tSl).job? J.ctx = some J ∧
      (st tSl).asleep J = true ∧
      J.asleep = none ∧
      ((st tSl).func J.func).en = false) ∧
    (tellerEvents_19.job? tellerEvents_18.ctx = some tellerEvents_18 ∧
      tellerEvents_19.asleep tellerEvents_18 = true ∧
      tellerEvents_18.asleep = some 64 ∧
      (∀ (u : Thread), u ∈ tellerEvents_19.threads → u.tid < tellerEvents_19.nextTid) ∧
      List.findSome? (fun (c : Nat) => Option.map (fun (p : Nat) => (c, p)) (tellerEvents_19.freePhase tellerEvents_18.ctx c)) (tellerEvents_19.ownedCores tellerEvents_18.ctx) = some (0, 0)) :=
  ⟨⟨rfl, (by unfold Uncancelled; exact (by decide +kernel)), by decide +kernel⟩,
   ⟨rfl, (by unfold Uncancelled; exact (by decide +kernel)), by decide +kernel⟩,
   ⟨rfl, by decide +kernel⟩,
   ⟨rfl, rfl, by decide +kernel⟩,
   ⟨rfl, by decide +kernel⟩,
   ⟨by refine ParkedIn.mk (rfl) ?_ ?_ ?_ ?_ ?_ <;> decide +kernel, rfl, by decide +kernel⟩,
   ⟨rfl, by decide +kernel⟩,
   ⟨rfl, by decide +kernel⟩⟩

end W8

namespace W9

def J : Job := (S0.job? 0).getD (placedJob 0)
def own16 (s : State) (n : Nat := 16) : State := (List.range n).foldl (fun s i => s.modCore (clusterCore 0 i) fun c => { c with owner := some 0 }) s
def F : Nat := J.func
def RV : Nat := 0x80000
def cr (per bud dl w e b cl frel : Nat) : Nat := 0x81000 + 2^64*per + 2^96*bud + 2^128*dl + 2^160*w + 2^168*e+2^176*b + 2^184*cl + 2^192*frel
def sC (x : Nat) (s : State := own16 S0) : State := wm (wm s RV 64 x) 0x81000 64 64
def x1 : Nat := cr 20000 1000 10000 2 1 3 0 0
def k1 : Contract := ⟨4, 0, RV, 0x81000, taskRecord 64, 20000, 1000, 10000, 2, 1, 3, 100, 0, none, [], [], 5, 6, 7, false⟩
def sK (k : Contract) (s : State := sC x1) : State := cl0 { s with cycle := 100 } fun c => { c with contracts := [k] }
def tC : Thread := { T0 with contract := some (0, 4), charged := 1000 }
def kst : Stack := { trained (Stack.reset 3) with alim := 4700 }
def qq : Query := ⟨4, 1, 0, 0, 3, 1, ⟨0x20000, 70, 0x3F800000, 0x6000, 2, 64, true, 0⟩, true, [], [], [], []⟩
def sS (f : Stack → Stack) (s : State := S0) : State := { s with cycle := 3000000, hbm := s.hbm.map fun k => if k.n == 3 then f k else k }
def sPT : State := wm (wm (wm (wm S0 Root 8 0x20001) 0x20000 8 0x21001) 0x21000 8 0x22001) (0x22000 + 16) 8 (0x30000 + 0x1F)
def sMg : State := (wm (wm (wm sPT 0x2FFF8 24 (2^192 - 1)) 0x3FFF0 32 (2^250 - 7)) 0x4FFF8 16 (2^127 + 5)).modCore 0 fun c => { c with l1 := [⟨0x30080, 5, 0, 0⟩, ⟨0x4FF80, 5, 0, 0⟩, ⟨0x50000, 5, 0, 0⟩] }
def m1 : Migration := ⟨0, 0x22010, 0x3001F, 3, 0x20000, 0x40000⟩
def sMv : State := { wm sMg 0x22010 8 0x3001E with migrations := [m1] }
def contractsAndPower_0 : Contract := {k1 with withdrawn := true}
def contractsAndPower_1 : State := sK {k1 with withdrawn := true}
def contractsAndPower_2 : Contract := {k1 with live := [9], skips := 0xFFFFFFFF}
def contractsAndPower_3 : State := sK {k1 with live := [9], skips := 0xFFFFFFFF}
def contractsAndPower_6 : Contract := {k1 with live := [9], deadlineDue := some 100}
def contractsAndPower_7 : State := sK {k1 with live := [9], deadlineDue := some 100}
def contractsAndPower_10 : State := { S0 with hbm := [kst], queries := [qq] }
def contractsAndPower_13 : State := { S0 with powerSteps := [.duty, .duty], duty := 14 }
def stackEvents_14 : State := sS fun k => { k with selfRefresh := some 7, stalled := true }
def stackEvents_16 : State := sS fun k => { k with selfRefresh := some 1000000 }
def stackEvents_17 : State := { S0 with poison := [0x200F8] }
def stackEvents_18 : State := sS fun k => { k with wbuf := [256, 384] }
def memoryService_19 : State := { sMv with hbm := sMv.hbm.map fun k => { k with stalled := true } }
def memoryService_20 : State := sS (fun k => { k with state := 3, mapOut := some 15 }) { S0 with jobs := [] }
def memoryService_21 : State := cl0 S0 (fun c => { c with tileUE := [0x1230] })
def memoryService_22 : State := cl0 S0 fun c => { c with owner := none, tileUE := [0x1230], tile := Memory.write [] 0x11F8 200 (2^1590) }
def memoryService_23 : State := S0.modCore 0 (fun c => { c with spadUE := [(262143 - 4096 * c.poolReg) / 8 * 8] })

theorem test_wit_ContractsAndPower :
    (Ready 2 7 (sC x1) ∧
      Owned F 0 (sC x1) ∧
      (sC x1).frameAwake 0 RV 64 = true ∧
      (sC x1).tryRead 0 RV 64 = some x1) ∧
    (Ready 2 7 (sC x1) ∧
      (¬Owned (F + 1) 0 (sC x1)) ∧
      (sC x1).frameAwake 0 RV 64 = true) ∧
    (Ready 2 7 (sC x1) ∧
      (¬Owned (F + 1) 0 (sC x1))) ∧
    (Ready 2 7 (sK k1) ∧
      Owned F 0 (sK k1) ∧
      ((sK k1).cluster 0).contracts = [k1] ∧
      k1.ctx = 0 ∧
      k1.va = RV) ∧
    ((sK k1 (st tC (sC x1))).thread? tC.tid = some tC ∧
      ((sK k1 (st tC (sC x1))).cluster 0).contracts = [k1] ∧
      tC.contract = some (0, k1.idx) ∧
      k1.budget ≤ tC.charged ∧
      tC.recPrio ≠ 255#8) ∧
    (((contractsAndPower_1.cluster 0).contracts = [contractsAndPower_0] ∧
      contractsAndPower_0.deadlineDue = none ∧
      contractsAndPower_0.nextRelease ≤ contractsAndPower_1.now ∧
      contractsAndPower_0.withdrawn = true) ∧
    ((contractsAndPower_3.cluster 0).contracts = [contractsAndPower_2] ∧
      contractsAndPower_2.deadlineDue = none ∧
      contractsAndPower_2.nextRelease ≤ contractsAndPower_3.now ∧
      contractsAndPower_2.withdrawn = false ∧
      contractsAndPower_2.live ≠ [])) ∧
    ((((sK k1).cluster 0).contracts = [k1] ∧
      k1.deadlineDue = none ∧
      k1.nextRelease ≤ (sK k1).now ∧
      k1.withdrawn = false ∧
      k1.live = [] ∧
      (sK k1).quiesce = none) ∧
    ((contractsAndPower_7.cluster 0).contracts = [contractsAndPower_6] ∧
      contractsAndPower_6.deadlineDue = some 100 ∧
      100 ≤ contractsAndPower_7.now) ∧
    (S0.powerLimit < 2401 ∧
      S0.queries = [] ∧
      4 < S0.duty)) ∧
    (contractsAndPower_10.powerLimit < 2401 ∧
      contractsAndPower_10.hbm = [kst] ∧
      contractsAndPower_10.queries = [qq] ∧
      qq.stack = kst.n ∧
      qq.handed = true ∧
      4096 < kst.alim) ∧
    (2279 ≤ contractsAndPower_13.powerLimit ∧
      100 * 2279 < 95 * contractsAndPower_13.powerLimit ∧
      contractsAndPower_13.powerSteps = [PowerStep.duty, PowerStep.duty]) ∧
    (2280 ≤ contractsAndPower_13.powerLimit ∧
      95 * contractsAndPower_13.powerLimit ≤ 100 * 2280) :=
  ⟨⟨(by unfold Ready; exact (by decide +kernel)), (by unfold Owned; exact (by decide +kernel)), by decide +kernel⟩,
   ⟨(by unfold Ready; exact (by decide +kernel)), notOwned (by decide +kernel), by decide +kernel⟩,
   ⟨(by unfold Ready; exact (by decide +kernel)), notOwned (by decide +kernel)⟩,
   ⟨(by unfold Ready; exact (by decide +kernel)), (by unfold Owned; exact (by decide +kernel)), by decide +kernel⟩,
   ⟨rfl, by decide +kernel⟩,
   by decide +kernel,
   by decide +kernel,
   by decide +kernel⟩

theorem test_wit_StackEvents :
    (((S0.stack 11).online = true ∧
      2047 < 2048 ∧
      11 < 12) ∧
    ((S0.stack 3).online = true ∧
      (S0.stack 3).selfRefresh = none ∧
      S0.critTemp ≤ 105) ∧
    ((stackEvents_14.stack 3).selfRefresh.isSome = true ∧
      94 < stackEvents_14.exitTemp) ∧
    ((stackEvents_16.stack 3).selfRefresh = some 1000000 ∧
      (stackEvents_16.stack 3).stalled = false ∧
      1000000 + 2000000 ≤ stackEvents_16.now)) ∧
    ((131200 % 128 = 0 ∧
      S0.place 131200 = some ((S0.place 131200).getD (Place.mk 0 0 0 0 false)) ∧
      S0.awake 131200 = true ∧
      S0.poisonAt 131200 128 = none) ∧
    (131200 % 128 = 0 ∧
      stackEvents_17.place 131200 = some ((S0.place 131200).getD (Place.mk 0 0 0 0 false)) ∧
      stackEvents_17.awake 131200 = true ∧
      stackEvents_17.poisonAt 131200 128 ≠ none) ∧
    (3 < 12 ∧
      (S0.stack 3).online = true ∧
      (S0.stack 3).dies.getLsbD 15 = true ∧
      S0.ceThresh < 4097 ∧
      4097 < 2 ^ 32)) ∧
    ((stackEvents_18.stack 3).wbuf = [256, 384] ∧
      (stackEvents_18.stack 3).selfRefresh = none) :=
  ⟨by decide +kernel,
   by decide +kernel,
   by decide +kernel⟩

theorem test_wit_MemoryService :
    (Migrates sMg 0 131088 139280 3 262144 (196639 : Word)) ∧
    (Moving sMv m1 196608 65536 ∧
      sMv.copyFails m1 = false ∧
      (∀ (a : Nat), a ∈ granulesOf m1.newPa 65536 ++ granulesOf 196608 65536 → sMv.awake a = true)) ∧
    (Moving memoryService_19 m1 196608 65536 ∧
      memoryService_19.copyFails m1 = true) ∧
    ((3 < 12 ∧
      5 < 16 ∧
      (S0.stack 3).state = 2 ∧
      (S0.stack 3).dies.getLsbD 5 = true) ∧
    (3 < 12 ∧
      15 < 16 ∧
      (memoryService_20.stack 3).state = 3 ∧
      (memoryService_20.stack 3).mapOut = some 15 ∧
      memoryService_20.mapOutWaits 3 15 = false) ∧
    (0 < 128 ∧
      4660 < 2 ^ 22 ∧
      (¬(4660 / 16 : Nat) * 16 ∈ (S0.cluster 0).tileUE))) ∧
    ((0 < 128 ∧
      4660 < 2 ^ 22 ∧
      (4660 / 16 : Nat) * 16 ∈ (memoryService_21.cluster 0).tileUE ∧
      (memoryService_21.cluster 0).owner = some 0) ∧
    (0 < 128 ∧
      4660 < 2 ^ 22 ∧
      (4660 / 16 : Nat) * 16 ∈ (memoryService_22.cluster 0).tileUE ∧
      (memoryService_22.cluster 0).owner = none) ∧
    (0 < 2048 ∧
      262143 < 262144 ∧
      4096 * (S0.core 0).poolReg ≤ 262143 ∧
      (¬(262143 - 4096 * (S0.core 0).poolReg) / 8 * 8 ∈ (S0.core 0).spadUE))) ∧
    (0 < 2048 ∧
      262143 < 262144 ∧
      4096 * (memoryService_23.core 0).poolReg ≤ 262143 ∧
      (262143 - 4096 * (memoryService_23.core 0).poolReg) / 8 * 8 ∈ (memoryService_23.core 0).spadUE ∧
      (memoryService_23.core 0).owner = some 0) :=
  ⟨by refine Migrates.mk ?_ ?_ ?_ ?_ ?_ <;> decide +kernel,
   ⟨by refine Moving.mk ?_ ?_ ?_ ?_ ?_ ?_ ?_ ?_ <;> decide +kernel, by decide +kernel⟩,
   ⟨by refine Moving.mk ?_ ?_ ?_ ?_ ?_ ?_ ?_ ?_ <;> decide +kernel, by decide +kernel⟩,
   by decide +kernel,
   by decide +kernel,
   by decide +kernel⟩

end W9

namespace W10

def J : Job := (S0.job? 0).getD (placedJob 0)
def F : Nat := J.func
def sf (n : Nat) (f : Func → Func) (s : State := S0) : State := s.setFunc (f (s.func n))
def sA : State := sf 3 (fun f => { f with aperture := some (0, 0x20000) })
def B0 : State := { S0 with stage := 0 }
def sD : State := sf 3 fun f => { f with doorbells := [(5, (0, 0x40000))] }
def sZ : State := cl0 { S0 with jobs := [], threads := [] } fun c => { c with tile := [(5, 7)] }
def sSg : State := { S0 with staged := signedImage, stagedLen := 260, keydig := signedKey, minsvn := 10#32, threads := [], jobs := [] }
def sSg9 : State := { S0 with staged := signedImage, stagedLen := 260, keydig := signedKey, minsvn := 9#32, threads := [], jobs := [] }
def qz : Quiesce := ⟨4, [7], [1, 2, 7], 1000⟩
def jd (m : Nat) (v : List Nat) : JobDesc := ⟨9, 0x10000, 0x20000, 0x20000000, 0x400000, 0x10000, 0x500000, 4096, 0x600006, 0, 0, 0xFFFFFFFF, 5, 6, 0, 3, 12, 32, 4, 0, BitVec.ofNat 64 m, 2, 64, 77, v⟩
def sL : State := [3,65].foldl (fun s c => s.modCluster c fun c => { c with released := true }) S0
def mb (op fn len seq : Nat) (body : Nat := 0) : State := { S0 with mboxBuf := Memory.write [] 0 48 (op + 2^16*fn + 2^32*len + 2^64*seq + 2^128*body) }
def hostAccess_1 : State := sf 3 fun f => { f with aperture := some (0, 2^52) }
def hostAccess_7 : State := sf 3 fun f => { f with write := 7, read := 2 }
def hostAccess_8 : State := sf 3 fun f => { f with msixTable := Memory.write [] 500 20 (2^160-1) }
def hostAccess_9 : State := sf 3 fun f => { f with en := true, log2n := 6, rbase := 0x10000, write := 65, read := 64 }
def mailboxLife_11 : State := { wm S0 0x20070 100 (2^800-1) with attbusy := true, attaddr := 0x20000 }
def mailboxLife_12 : State := { S0 with staged := Memory.write [] 98 8 (2^64-1), stagedLen := 50 }
def mailboxLife_13 : State := { S0 with staged := [(3, 5)], stagedLen := 10 }
def mailboxLife_15 : State := { sSg with staged := Memory.write signedImage 128 32 0 }
def mailboxLife_16 : State := { S0 with quiesce := some qz }
def mailboxLife_17 : State := { S0 with quiesce := some ⟨4, [], [3], 1000⟩, cycle := 1000 }

theorem test_wit_HostAccess :
    (Bar2At (wm sA 131136 64 (2 ^ 511 + 7)) 3 64 64 0 131072 ∧
      NotFramed (wm sA 131136 64 (2 ^ 511 + 7)) 0 ∧
      (wm sA 131136 64 (2 ^ 511 + 7)).poison = [] ∧
      (wm sA 131136 64 (2 ^ 511 + 7)).xlate 0 none Need.read (131072 + 64) = Xlate.ok 131136 Leaf ∧
      (wm sA 131136 64 (2 ^ 511 + 7)).awake 131136 = true) ∧
    (Bar2At (wm sA 131136 64 (2 ^ 512 - 1)) 3 66 2 0 131072 ∧
      NotFramed (wm sA 131136 64 (2 ^ 512 - 1)) 0 ∧
      (wm sA 131136 64 (2 ^ 512 - 1)).poison = [] ∧
      (wm sA 131136 64 (2 ^ 512 - 1)).xlate 0 none Need.write (131072 + 66) = Xlate.ok 131138 Leaf ∧
      (wm sA 131136 64 (2 ^ 512 - 1)).bufferRoom 131138 = true) ∧
    (Bar2At (wm sA 131136 64 (2 ^ 511 + 2 ^ 70)) 3 72 8 0 131072 ∧
      NotFramed (wm sA 131136 64 (2 ^ 511 + 2 ^ 70)) 0 ∧
      (wm sA 131136 64 (2 ^ 511 + 2 ^ 70)).poison = [] ∧
      (wm sA 131136 64 (2 ^ 511 + 2 ^ 70)).xlate 0 none Need.atomic (131072 + 72) = Xlate.ok 131144 Leaf ∧
      (wm sA 131136 64 (2 ^ 511 + 2 ^ 70)).bufferRoom 131144 = true ∧
      8 = 8) ∧
    (Bar2At hostAccess_1 3 64 64 0 (2 ^ 52) ∧
      NotFramed hostAccess_1 0 ∧
      hostAccess_1.poison = [] ∧
      hostAccess_1.xlate 0 none Need.read (2 ^ 52 + 64) = Xlate.access) ∧
    (Instr.bar2Read 3 64 8 ∈   [Instr.bar2Read 3 64 8, Instr.bar2Write 3 64 8 5, Instr.doorbellWrite 3 (64 % 64) (8 % 255 + 1) 5, Instr.rcfgWrite 3 5, Instr.eventRingReadWrite 3 5] ∧
      3 < 32 ∧
      3 ≠ 0 ∧
      B0.stage = 0 ∧
      1 ≤ 8 ∧
      8 ≤ 4096 ∧
      64 + 8 ≤ 2 ^ 36) ∧
    (HostReaches S0 0 ∧
      1 ≤ 4 ∧
      4 ≤ 4096 ∧
      2 ^ 36 - 4 + 4 ≤ 2 ^ 36 ∧
      (S0.func 0).aperture = none) ∧
    (HostReaches sD 3 ∧
      5 < 64 ∧
      1 ≤ 8 ∧
      8 < 256 ∧
      List.find? (fun (d : Nat × Nat × Nat) => d.fst == 5) (sD.func 3).doorbells = some (5, 0, 262144) ∧
      8 = 8 ∧
      (sD.func 3).bar2 = []) ∧
    (HostReaches sD 3 ∧
      5 < 64 ∧
      1 ≤ 4 ∧
      4 < 256 ∧
      List.find? (fun (d : Nat × Nat × Nat) => d.fst == 5) (sD.func 3).doorbells = some (5, 0, 262144) ∧
      4 ≠ 8) ∧
    (HostReaches sD 3 ∧
      63 < 64 ∧
      1 ≤ 4 ∧
      4 < 256 ∧
      List.find? (fun (d : Nat × Nat × Nat) => d.fst == 63) (sD.func 3).doorbells = none) ∧
    (HostReaches sD 3 ∧
      (sD.func 3).held = []) ∧
    (HostReaches hostAccess_7 3 ∧
      7 < 2 ^ 64 ∧
      (hostAccess_7.func 3).held = [] ∧
      7 ≤ BitVec.toNat (hostAccess_7.func 3).write) ∧
    (HostReaches hostAccess_7 3 ∧
      8 < 2 ^ 64 ∧
      (hostAccess_7.func 3).held = [] ∧
      BitVec.toNat (hostAccess_7.func 3).write < 8) ∧
    (HostReaches S0 3 ∧
      8192 % 8 = 0 ∧
      8192 = 8192) ∧
    (HostReaches hostAccess_8 3 ∧
      504 % 8 = 0 ∧
      504 < 512) ∧
    (HostReaches S0 3 ∧
      4088 % 8 = 0 ∧
      512 ≤ 4088 ∧
      4088 < 4096) ∧
    (HostReaches S0 0 ∧
      33784 % 8 = 0 ∧
      0 = 0 ∧
      32768 ≤ 33784 ∧
      33784 < 33792) ∧
    ((hostAccess_9.func 3).en = true ∧
      (hostAccess_9.func 3).held = [] ∧
      BitVec.toNat (hostAccess_9.func 3).write - BitVec.toNat (hostAccess_9.func 3).read < 2 ^ (hostAccess_9.func 3).log2n.toNat) ∧
    (5 < 12) :=
  ⟨⟨by refine Bar2At.mk ((by unfold HostReaches; exact (by decide +kernel))) ?_ ?_ ?_ ?_ ?_ <;> decide +kernel, (by unfold NotFramed; exact (by decide +kernel)), by decide +kernel⟩,
   ⟨by refine Bar2At.mk ((by unfold HostReaches; exact (by decide +kernel))) ?_ ?_ ?_ ?_ ?_ <;> decide +kernel, (by unfold NotFramed; exact (by decide +kernel)), by decide +kernel⟩,
   ⟨by refine Bar2At.mk ((by unfold HostReaches; exact (by decide +kernel))) ?_ ?_ ?_ ?_ ?_ <;> decide +kernel, (by unfold NotFramed; exact (by decide +kernel)), by decide +kernel⟩,
   ⟨by refine Bar2At.mk ((by unfold HostReaches; exact (by decide +kernel))) ?_ ?_ ?_ ?_ ?_ <;> decide +kernel, (by unfold NotFramed; exact (by decide +kernel)), by decide +kernel⟩,
   ⟨(by simp), by decide +kernel⟩,
   ⟨(by unfold HostReaches; exact (by decide +kernel)), by decide +kernel⟩,
   ⟨(by unfold HostReaches; exact (by decide +kernel)), by decide +kernel⟩,
   ⟨(by unfold HostReaches; exact (by decide +kernel)), by decide +kernel⟩,
   ⟨(by unfold HostReaches; exact (by decide +kernel)), by decide +kernel⟩,
   ⟨(by unfold HostReaches; exact (by decide +kernel)), by decide +kernel⟩,
   ⟨(by unfold HostReaches; exact (by decide +kernel)), by decide +kernel⟩,
   ⟨(by unfold HostReaches; exact (by decide +kernel)), by decide +kernel⟩,
   ⟨(by unfold HostReaches; exact (by decide +kernel)), by decide +kernel⟩,
   ⟨(by unfold HostReaches; exact (by decide +kernel)), by decide +kernel⟩,
   ⟨(by unfold HostReaches; exact (by decide +kernel)), by decide +kernel⟩,
   ⟨(by unfold HostReaches; exact (by decide +kernel)), by decide +kernel⟩,
   by decide +kernel⟩

theorem test_wit_MailboxLife :
    (Ready 0 5 S0) ∧
    (Ready 0 5 S0 ∧
      (List.map (BitVec.ofNat 8) (List.range 32)).length = 32) ∧
    (Ready 0 5 S0 ∧
      (List.map (BitVec.ofNat 8) (List.range 31)).length ≠ 32) ∧
    (Ready 0 5 sZ ∧
      sZ.jobs = []) ∧
    (Ready 0 5 S0 ∧
      S0.jobs ≠ []) ∧
    (Ready 0 5 mailboxLife_12 ∧
      [(1 : Byte), (0 : Byte), (3 : Byte)].length ≤ 1000 ∧
      100 + [(1 : Byte), (0 : Byte), (3 : Byte)].length < 2 ^ 32) ∧
    (Ready 0 5 S0 ∧
      1000 < (List.replicate 1001 (5 : Byte)).length) ∧
    (Ready 0 5 S0 ∧
      S0.stagedLen = 0) ∧
    (Ready 0 5 mailboxLife_13 ∧
      mailboxLife_13.stagedLen ≠ 0 ∧
      Memory.read mailboxLife_13.staged 0 4 ≠ 1313293911) ∧
    (Ready 0 5 mailboxLife_15 ∧
      GoodHeader mailboxLife_15 ∧
      mailboxLife_15.stagedSigned = false) ∧
    (Ready 0 5 sSg ∧
      GoodHeader sSg ∧
      sSg.stagedSigned = true ∧
      Memory.read sSg.staged 4 4 < BitVec.toNat sSg.minsvn) ∧
    (Ready 0 5 sSg9 ∧
      GoodHeader sSg9 ∧
      sSg9.stagedSigned = true ∧
      BitVec.toNat sSg9.minsvn ≤ Memory.read sSg9.staged 4 4 ∧
      (∀ (t : Thread), t ∈ sSg9.threads → t.isFw = true) ∧
      sSg9.jobs = []) ∧
    (Ready 2 5 sL ∧
      jobFits (jd 8 [1073741824, 1073741824]) = true ∧
      (jd 8 [1073741824, 1073741824]).ctx < 4096 ∧
      sL.job? (jd 8 [1073741824, 1073741824]).ctx = none ∧
      31 < 32 ∧
      sL.launchStatus (jd 8 [1073741824, 1073741824]) ≠ 0) ∧
    (Ready 2 5 sL ∧
      GoodLaunch sL 31 (jd 8 [1073741824, 1077936128])) ∧
    (Ready 2 5 S0 ∧
      Owned F 0 S0) ∧
    (Ready 2 5 S0 ∧
      (¬Owned F 77 S0)) ∧
    ((1 = 1 ∧ 0 = 0 ∧ Instr.info 5 = Instr.info 5 ∨   1 = 2 ∧ 0 = 32 ∧ ([] : List Byte).length = 32 ∧ Instr.info 5 = Instr.attest 5 [] ∨ 1 = 3 ∧ 0 = 0 ∧ Instr.info 5 = Instr.zero 5) ∧
      (mb 1 0 0 5).booted = true ∧
      5 < 2 ^ 32 ∧
      0 < 32 ∧
      Memory.read (mb 1 0 0 5).mboxBuf 0 2 = 1 ∧
      Memory.read (mb 1 0 0 5).mboxBuf 2 2 = 0 ∧
      Memory.read (mb 1 0 0 5).mboxBuf 4 4 = 0 ∧
      Memory.read (mb 1 0 0 5).mboxBuf 8 4 = 5 ∧
      Memory.read (mb 1 0 0 5).mboxBuf 12 4 = 0 ∧
      (∀ (k : Nat), k < 0 → Memory.get (mb 1 0 0 5).mboxBuf (16 + k) = [].getD k 0#8)) ∧
    (mailboxLife_11.attbusy = true) ∧
    (mailboxLife_16.booted = true ∧
      5 < 2 ^ 32 ∧
      mailboxLife_16.quiesce = some qz ∧
      1 ∈ qz.need ∧
      2 ∈ qz.need ∧
      (¬2 ∈ qz.acks) ∧
      2 ≠ 1) ∧
    (mailboxLife_17.quiesce = some (Quiesce.mk 4 [] [3] 1000) ∧
      [3] = [3] ∧
      ([] : List Nat) = [] ∧
      1000 ≤ mailboxLife_17.now ∧
      3 ≠ 0 ∧
      4 < 2 ^ 32) :=
  ⟨(by unfold Ready; exact (by decide +kernel)),
   ⟨(by unfold Ready; exact (by decide +kernel)), by decide +kernel⟩,
   ⟨(by unfold Ready; exact (by decide +kernel)), by decide +kernel⟩,
   ⟨(by unfold Ready; exact (by decide +kernel)), by decide +kernel⟩,
   ⟨(by unfold Ready; exact (by decide +kernel)), by decide +kernel⟩,
   ⟨(by unfold Ready; exact (by decide +kernel)), by decide +kernel⟩,
   ⟨(by unfold Ready; exact (by decide +kernel)), by decide +kernel⟩,
   ⟨(by unfold Ready; exact (by decide +kernel)), by decide +kernel⟩,
   ⟨(by unfold Ready; exact (by decide +kernel)), by decide +kernel⟩,
   ⟨(by unfold Ready; exact (by decide +kernel)), by refine GoodHeader.mk ?_ ?_ ?_ ?_ <;> decide +kernel, imageUnsigned (by decide +kernel)⟩,
   ⟨(by unfold Ready; exact (by decide +kernel)), imageHeader (by simp only [sSg]) rfl, imageSigned (by simp only [sSg]) (by simp only [sSg]), by decide +kernel⟩,
   ⟨(by unfold Ready; exact (by decide +kernel)), imageHeader (by simp only [sSg9]) rfl, imageSigned (by simp only [sSg9]) (by simp only [sSg9]), by decide +kernel⟩,
   ⟨(by unfold Ready; exact (by decide +kernel)), by decide +kernel⟩,
   ⟨(by unfold Ready; exact (by decide +kernel)), by refine GoodLaunch.mk ?_ (⟨by decide +kernel, rfl⟩) ?_ ?_ ?_ <;> decide +kernel⟩,
   ⟨(by unfold Ready; exact (by decide +kernel)), (by unfold Owned; exact (by decide +kernel))⟩,
   ⟨(by unfold Ready; exact (by decide +kernel)), notOwned (by decide +kernel)⟩,
   ⟨Or.inl (⟨by decide +kernel, ⟨by decide +kernel, rfl⟩⟩), by decide +kernel⟩,
   by decide +kernel⟩

end W10

namespace W11

def J : Job := (S0.job? 0).getD (placedJob 0)
def F : Nat := J.func
def sf (n : Nat) (f : Func → Func) (s : State := S0) : State := s.setFunc (f (s.func n))
def str (n : Nat) : Stream := ⟨n, 0, 1, 64, 64, 30, 10, 2, 3, [], false, 0⟩
def sd : StreamDesc := ⟨1, 1, 64, 64, 30, 10⟩
def P0 : Peer := ⟨7, 55, true, 1, 9, 4, none, []⟩
def sPt : State := wm ((List.range 16).foldl (fun s k => wm s (0x60010 + 32 * k) 32 0xFFFFFFFF) (wm S0 0x60000 8 0x99)) 0x60010 32 (64 + 2^64 * 2^62 + 2^128)
def h (n : Nat) (body : Nat) : FabHdr := ⟨1, 7, 0, 9, 0, body, n, 0, 0, 0⟩
def nt (st : NoteState) (v : Word) (ws : List Waiter := []) : Note := ⟨5, 0, st, v, 3, false, none, ws, [], false, 0⟩
def H : Word := makeHandle 0 0 5 8
def sN (st : NoteState) (v : Word := 77) (ws : List Waiter := []) : State := cl0 { S0 with peers := [P0], grants := [(0, 7, 9)], cycle := 40 } fun c => { c with notes := [nt st v ws], gens := [(5, 8)] }
def sm (n r : Nat) : SentMsg := ⟨n, 0, 0, 9, .tail 5 6, r, 20⟩
def Pm (n r : Nat) : Peer := { P0 with unacked := [sm n r] }
def tN : Thread := outT (.note H 1 none)
def Hf : Word := H + BitVec.ofNat 64 (3 * 2^52)
def nO (s : State) : State := { s with noteOps := [proxyTouch (h 5 16) H 9] }
def tTo : Thread := outT (.touch true 1 5 H none)
def pd (src dst len chip rctx tag note : Nat) : Nat := src + 2^64*dst + 2^128*len + 2^160*chip + 2^176*rctx + 2^192*tag + 2^256*note
def tP (a : Nat := 0x4000) : Thread := csr { regs [(1,a)] with tagCount := [(63, 2)] } fun c => { c with done := 0#64 - 1#64 }
def sP (d : Nat) (t : Thread := tP) : State := spad { st t with peers := [P0] } 0x4000 64 d
def g : Nat := pd 0x20005 0x30000 10000 7 9 63 0
def xf : Xfer := ⟨6, 0, 1, 0, 5, .remote 7 9 0x30000 100 0 6, 0, 0, 0, 0, false, 100, none, 0, [], 0, [], 0, 20, []⟩
def s1 (n : Nat) : State := { State.reset with stage := 1, booted := true, hbm := State.reset.hbm.map fun k => if k.n = n then { k with state := 1 } else k }
def mailboxTables_0 : State := { S0 with streams := [str 17, str 16, str 19] }
def mailboxTables_1 : State := sf F fun f => { f with doorbells := [(63, (7, 64)), (1, (7, 0))] }
def mailboxTables_2 : State := { S0 with jobs := [] }
def mailboxTables_3 : State := { S0 with jobs := [], peers := [P0] }
def mailboxTables_4 : State := { S0 with grants := [(0,7,9), (0,7,9)] }
def fabricNotes_10 : State := { sN .pending with threads := [tN] }
def fabricNotes_11 : State := { sN .poisoned with noteOps := [proxyTouch (h 5 16) (H+32) 9] }
def fabricNotes_12 : State := { sN .pending with threads := [tTo] }
def fabricNotes_13 : FabHdr := {h 5 16 with dctx := 8}
def fabricPuts_16 : State := wm { S0 with peers := [P0], grants := [(0, 7, 9)] } 0x20000 128 (2^1024-1)
def fabricPuts_17 : State := (sP g).modCore 0 (fun c => { c with xq := List.replicate 32 xf })
def fabricPuts_18 : State := ({ S0 with peers := [P0], grants := [(0, 7, 9)] } : State).modCore 0 fun c => { c with xq := [xf] }
def fabricPuts_19 : State := { S0 with peers := [Pm 9 0] }
def fabricPuts_22 : State := { S0 with peers := [Pm 9 63], cycle := 20020 }
def fabricPuts_23 : State := { S0 with peers := [Pm 9 64], cycle := 20020, threads := [outT (.touch true 1 5 (7#64 <<< 52) none), { T0 with tid := 4, ctx := 5 }] }
def fabricPuts_24 : State := { S0 with peers := [P0, {P0 with chip := 9, port := 0}, {P0 with chip := 8, port := 3}], portsDown := [1] }

theorem test_wit_MailboxTables :
    (Ready 2 5 S0 ∧
      (¬Owned (F + 1) 0 S0) ∧
      Instr.aperture 5 (F + 1) 0 (2 ^ 36) ∈   [Instr.aperture 5 (F + 1) 0 (2 ^ 36), Instr.doorbell 5 (F + 1) (2 ^ 36) 0 0, Instr.stream 5 (F + 1) 0 sd,     Instr.fabricGrant 5 (JobRef.mk (F + 1) 0) 0 0 false]) ∧
    (Ready 2 5 mailboxTables_0 ∧
      (∀ (k : Stream), k ∈ mailboxTables_0.streams → k.n = 17 → ¬Owned (F + 1) k.ctx mailboxTables_0)) ∧
    (Ready 2 5 S0 ∧
      Owned F 0 S0 ∧
      2 ^ 63 % 2 ^ 36 = 0 ∧
      2 ^ 63 < 2 ^ 64) ∧
    (Ready 2 5 mailboxTables_1 ∧
      Owned F 0 mailboxTables_1 ∧
      63 < 64 ∧
      262144 % 64 = 0 ∧
      262144 < 2 ^ 52) ∧
    (Ready 2 5 mailboxTables_0 ∧
      Owned F 0 mailboxTables_0 ∧
      mailboxTables_0.streamOk sd = true ∧
      2 < 16 ∧
      (∀ (n : Nat), n < 2 → ∃ (k : Stream), k ∈ mailboxTables_0.streams ∧ k.n = 16 * sd.complex + n) ∧
      (∀ (k : Stream), k ∈ mailboxTables_0.streams → k.n ≠ 16 * sd.complex + 2)) ∧
    (Ready 2 5 mailboxTables_0 ∧
      Owned F (str 16).ctx mailboxTables_0 ∧
      List.find? (fun (j : Stream) => j.n == (str 16).n) mailboxTables_0.streams = some (str 16)) ∧
    (Ready 1 5 mailboxTables_2 ∧
      1 ≤ 4095 ∧
      4095 ≤ 4095 ∧
      1024 ≤ 1024 ∧
      1024 ≤ 65535 ∧
      mailboxTables_2.jobs = []) ∧
    (Ready 1 5 S0 ∧
      1 ≤ 4095 ∧
      4095 ≤ 4095 ∧
      1024 ≤ 1024 ∧
      1024 ≤ 65535 ∧
      S0.jobs ≠ []) ∧
    (Ready 1 5 mailboxTables_3 ∧
      1 ≤ 7 ∧
      7 ≤ 4095 ∧
      mailboxTables_3.jobs = []) ∧
    (Ready 2 5 mailboxTables_4 ∧
      Owned F 0 mailboxTables_4 ∧
      7 < 4096 ∧
      9 < 4096) ∧
    (Ready 2 5 sPt ∧
      Owned F 0 sPt ∧
      sPt.frameAwake 0 393216 4624 = true ∧
      sPt.badTable 0 393216 = none) ∧
    (Ready 2 5 sPt ∧
      (¬Owned (F + 1) 0 sPt) ∧
      sPt.frameAwake 0 393216 4624 = true) :=
  ⟨⟨(by unfold Ready; exact (by decide +kernel)), notOwned (by decide +kernel), (by simp)⟩,
   ⟨(by unfold Ready; exact (by decide +kernel)), noneOwned (by decide +kernel)⟩,
   ⟨(by unfold Ready; exact (by decide +kernel)), (by unfold Owned; exact (by decide +kernel)), by decide +kernel⟩,
   ⟨(by unfold Ready; exact (by decide +kernel)), (by unfold Owned; exact (by decide +kernel)), by decide +kernel⟩,
   ⟨(by unfold Ready; exact (by decide +kernel)), (by unfold Owned; exact (by decide +kernel)), by decide +kernel⟩,
   ⟨(by unfold Ready; exact (by decide +kernel)), (by unfold Owned; exact (by decide +kernel)), by decide +kernel⟩,
   ⟨(by unfold Ready; exact (by decide +kernel)), by decide +kernel⟩,
   ⟨(by unfold Ready; exact (by decide +kernel)), by decide +kernel⟩,
   ⟨(by unfold Ready; exact (by decide +kernel)), by decide +kernel⟩,
   ⟨(by unfold Ready; exact (by decide +kernel)), (by unfold Owned; exact (by decide +kernel)), by decide +kernel⟩,
   ⟨(by unfold Ready; exact (by decide +kernel)), (by unfold Owned; exact (by decide +kernel)), by decide +kernel⟩,
   ⟨(by unfold Ready; exact (by decide +kernel)), notOwned (by decide +kernel), by decide +kernel⟩⟩

theorem test_wit_FabricNotes :
    (Delivers (sN NoteState.pending) (h 5 40) 40 P0 ∧
      (sN NoteState.pending).noteOf (h 5 40).dctx H = some (nt NoteState.pending (77 : Word)) ∧
      (nt NoteState.pending (77 : Word)).state = NoteState.pending ∧
      (nt NoteState.pending (77 : Word)).waiters = [] ∧
      (nt NoteState.pending (77 : Word)).relq = false) ∧
    (Delivers (sN NoteState.pending) (h 5 40) 40 P0 ∧
      (sN NoteState.pending).noteOf (h 5 40).dctx (H + (32 : Word)) = none) ∧
    (Delivers fabricNotes_10 (h 5 24) 24 P0 ∧
      fabricNotes_10.thread? (BitVec.toNat (1 : Word)) = some tN ∧
      tN.run = Run.out W0 (Pending.note H 1#2 none)) ∧
    (Delivers (sN NoteState.poisoned) (h 5 16) 16 P0 ∧
      (sN NoteState.poisoned).isHere H = true) ∧
    (Delivers (sN NoteState.poisoned) (h 5 16) 16 P0 ∧
      (sN NoteState.poisoned).isHere Hf = false) ∧
    (Delivers fabricNotes_12 (h 5 32) 32 P0 ∧
      fabricNotes_12.thread? (BitVec.toNat (1 : Word)) = some tTo ∧
      fabricNotes_12.heldAt (BitVec.toNat (1 : Word)) = none ∧
      tTo.run = Run.out W0 (Pending.touch true 1#2 5#6 H none) ∧
      tTo.evicted = false) ∧
    (Delivers (sN NoteState.pending) (h 5 16) 16 P0) ∧
    ((fabricNotes_11.noteOps = [proxyTouch (h 5 16) (H + (32 : Word)) (9 : Word)] ∧
      fabricNotes_11.isHere (H + (32 : Word)) = true ∧
      fabricNotes_11.peer? (h 5 16).src = some P0 ∧
      P0.up = true ∧
      fabricNotes_11.noteOf (h 5 16).dctx (H + (32 : Word)) = none) ∧
    ((nO (sN NoteState.poisoned)).noteOps = [proxyTouch (h 5 16) H (9 : Word)] ∧
      (nO (sN NoteState.poisoned)).isHere H = true ∧
      (nO (sN NoteState.poisoned)).peer? (h 5 16).src = some P0 ∧
      P0.up = true ∧
      (nO (sN NoteState.poisoned)).noteOf (h 5 16).dctx H = some (nt NoteState.poisoned (77 : Word)) ∧
      (nt NoteState.poisoned (77 : Word)).state ≠ NoteState.pending)) ∧
    (((nO (sN NoteState.pending)).noteOps = [proxyTouch (h 5 16) H (9 : Word)] ∧
      (nO (sN NoteState.pending)).isHere H = true ∧
      (nO (sN NoteState.pending)).peer? (h 5 16).src = some P0 ∧
      P0.up = true ∧
      (nO (sN NoteState.pending)).noteOf (h 5 16).dctx H = some (nt NoteState.pending (77 : Word)) ∧
      (nt NoteState.pending (77 : Word)).state = NoteState.pending ∧
      (nt NoteState.pending (77 : Word)).waiters.length < 4 ∧
      (¬Waiter.proxy (h 5 16).src (9 : Word) (h 5 16).sctx ∈ (nt NoteState.pending (77 : Word)).waiters))) ∧
    (((nO (sN NoteState.pending (77 : Word) [Waiter.proxy 7 (9 : Word) 9])).noteOps = [proxyTouch (h 5 16) H (9 : Word)] ∧
      (nO (sN NoteState.pending (77 : Word) [Waiter.proxy 7 (9 : Word) 9])).isHere H = true ∧
      (nO (sN NoteState.pending (77 : Word) [Waiter.proxy 7 (9 : Word) 9])).peer? (h 5 16).src = some P0 ∧
      P0.up = true ∧
      (nO (sN NoteState.pending (77 : Word) [Waiter.proxy 7 (9 : Word) 9])).noteOf (h 5 16).dctx H = some (nt NoteState.pending (77 : Word) [Waiter.proxy 7 (9 : Word) 9]) ∧
      (nt NoteState.pending (77 : Word) [Waiter.proxy 7 (9 : Word) 9]).state = NoteState.pending ∧
      Waiter.proxy (h 5 16).src (9 : Word) (h 5 16).sctx ∈ (nt NoteState.pending (77 : Word) [Waiter.proxy 7 (9 : Word) 9]).waiters) ∧
    ((sN NoteState.pending).peer? fabricNotes_13.src = some P0 ∧
      P0.up = true ∧
      fabricNotes_13.sctx < 65536 ∧
      fabricNotes_13.dctx < 65536 ∧
      fabricNotes_13.seq = (P0.recvSeq + 1) % 2 ^ 32 ∧
      (sN NoteState.pending).job? fabricNotes_13.dctx = none ∧
      (if (sN NoteState.pending).headerOk fabricNotes_13 16 = true then ¬(fabricNotes_13.dctx, fabricNotes_13.src, fabricNotes_13.sctx) ∈ (sN NoteState.pending).grants ∧ 1 = 1 else 1 = 2))) ∧
    ((sN NoteState.pending).peer? (h 4 16).src = some P0 ∧
      P0.up = true ∧
      (h 4 16).sctx < 65536 ∧
      (h 4 16).dctx < 65536 ∧
      (h 4 16).seq = P0.recvSeq % 2 ^ 32) :=
  ⟨⟨by refine Delivers.mk ?_ ?_ ?_ ?_ ?_ ?_ ?_ <;> decide +kernel, by decide +kernel⟩,
   ⟨by refine Delivers.mk ?_ ?_ ?_ ?_ ?_ ?_ ?_ <;> decide +kernel, by decide +kernel⟩,
   ⟨by refine Delivers.mk ?_ ?_ ?_ ?_ ?_ ?_ ?_ <;> decide +kernel, rfl, by decide +kernel⟩,
   ⟨by refine Delivers.mk ?_ ?_ ?_ ?_ ?_ ?_ ?_ <;> decide +kernel, by decide +kernel⟩,
   ⟨by refine Delivers.mk ?_ ?_ ?_ ?_ ?_ ?_ ?_ <;> decide +kernel, by decide +kernel⟩,
   ⟨by refine Delivers.mk ?_ ?_ ?_ ?_ ?_ ?_ ?_ <;> decide +kernel, rfl, by decide +kernel⟩,
   by refine Delivers.mk ?_ ?_ ?_ ?_ ?_ ?_ ?_ <;> decide +kernel,
   by decide +kernel,
   by decide +kernel,
   by decide +kernel,
   by decide +kernel⟩

theorem test_wit_FabricPuts :
    (Clear (Instr.fabPut (OpR.mk 0#6 1#6 0#6 0#2)) (sP g (tP 16392)) (tP 16392) ∧
      Readable (tP 16392) (sP g (tP 16392)) 0#2 [1#6] [] ∧
      BitVec.toNat (srcVal (tP 16392) (sP g (tP 16392)) 0#2 1#6) % 64 ≠ 0) ∧
    (Clear (Instr.fabPut (OpR.mk 0#6 1#6 0#6 0#2)) (sP g (tP (2 ^ 20))) (tP (2 ^ 20)) ∧
      Readable (tP (2 ^ 20)) (sP g (tP (2 ^ 20))) 0#2 [1#6] [] ∧
      BitVec.toNat (srcVal (tP (2 ^ 20)) (sP g (tP (2 ^ 20))) 0#2 1#6) % 64 = 0 ∧
      ((sP g (tP (2 ^ 20))).near (tP (2 ^ 20))).size < BitVec.toNat (srcVal (tP (2 ^ 20)) (sP g (tP (2 ^ 20))) 0#2 1#6) + 64) ∧
    (Clear (Instr.fabPut (OpR.mk 0#6 1#6 0#6 0#2)) (sP (g + 2 ^ 200)) tP ∧
      Readable tP (sP (g + 2 ^ 200)) 0#2 [1#6] [] ∧
      GoodBytes tP (sP (g + 2 ^ 200)) (BitVec.toNat (srcVal tP (sP (g + 2 ^ 200)) 0#2 1#6)) ∧
      (¬PutFields tP (sP (g + 2 ^ 200)) (BitVec.toNat (srcVal tP (sP (g + 2 ^ 200)) 0#2 1#6)))) ∧
    (Clear (Instr.fabPut (OpR.mk 0#6 1#6 0#6 0#2)) (sP (pd 131077 196608 10000 7 9 63 5)) tP ∧
      Readable tP (sP (pd 131077 196608 10000 7 9 63 5)) 0#2 [1#6] [] ∧
      GoodBytes tP (sP (pd 131077 196608 10000 7 9 63 5)) (BitVec.toNat (srcVal tP (sP (pd 131077 196608 10000 7 9 63 5)) 0#2 1#6)) ∧
      PutFields tP (sP (pd 131077 196608 10000 7 9 63 5)) (BitVec.toNat (srcVal tP (sP (pd 131077 196608 10000 7 9 63 5)) 0#2 1#6)) ∧
      (¬PutNote tP (sP (pd 131077 196608 10000 7 9 63 5)) (BitVec.toNat (srcVal tP (sP (pd 131077 196608 10000 7 9 63 5)) 0#2 1#6)))) ∧
    (Clear (Instr.fabPut (OpR.mk 0#6 1#6 0#6 0#2)) (sP g) tP ∧
      Readable tP (sP g) 0#2 [1#6] [] ∧
      GoodBytes tP (sP g) (BitVec.toNat (srcVal tP (sP g) 0#2 1#6)) ∧
      PutFields tP (sP g) (BitVec.toNat (srcVal tP (sP g) 0#2 1#6)) ∧
      PutNote tP (sP g) (BitVec.toNat (srcVal tP (sP g) 0#2 1#6)) ∧
      Unrivalled Res.xfer tP.coreId tP (sP g) ∧
      ((sP g).core tP.coreId).xq.length < 32) ∧
    (Delivers fabricPuts_16 (h 5 144) (32 + 112) P0 ∧
      NotFramed fabricPuts_16 0 ∧
      1 ≤ 112 ∧
      112 ≤ 4096 ∧
      2 ^ 319 + 5 < 256 ^ 112 ∧
      piecesOf 131088 112 0 = [Piece.mk 131088 112 0] ∧
      131088 < 2 ^ 64 ∧
      fabricPuts_16.putsIn = [] ∧
      fabricPuts_16.xlate (h 5 144).dctx none Need.write 131088 = Xlate.ok 131088 Leaf ∧
      fabricPuts_16.bufferRoom 131088 = true ∧
      fabricPuts_16.roomFor [131088] = true) ∧
    (Delivers fabricPuts_16 (h 5 144) (32 + 112) P0 ∧
      NotFramed fabricPuts_16 0 ∧
      1 ≤ 112 ∧
      112 ≤ 4096 ∧
      2 ^ 319 + 5 < 256 ^ 112 ∧
      piecesOf (2 ^ 60 + 16) 112 0 = [Piece.mk (2 ^ 60 + 16) 112 0] ∧
      2 ^ 60 + 16 < 2 ^ 64 ∧
      fabricPuts_16.putsIn = [] ∧
      fabricPuts_16.xlate (h 5 144).dctx none Need.write (2 ^ 60 + 16) = Xlate.access) ∧
    (Clear (Instr.fabPut (OpR.mk 0#6 1#6 0#6 0#2)) fabricPuts_17 tP ∧
      Readable tP fabricPuts_17 0#2 [1#6] [] ∧
      GoodBytes tP fabricPuts_17 (BitVec.toNat (srcVal tP fabricPuts_17 0#2 1#6)) ∧
      PutFields tP fabricPuts_17 (BitVec.toNat (srcVal tP fabricPuts_17 0#2 1#6)) ∧
      PutNote tP fabricPuts_17 (BitVec.toNat (srcVal tP fabricPuts_17 0#2 1#6)) ∧
      Stays tP fabricPuts_17 ∧
      tP.handler = none ∧
      32 ≤ (fabricPuts_17.core tP.coreId).xq.length) ∧
    (Delivers fabricPuts_18 (h 5 24) 24 P0 ∧
      fabricPuts_18.putOf (h 5 24) 6 = some xf ∧
      xf.core = 0 ∧
      fabricPuts_18.xfer? 0 xf.id = some xf ∧
      30 < 2 ^ 32) ∧
    ((fabricPuts_19.peer? 7 = some (Pm 9 0) ∧
      (Pm 9 0).unacked = [sm 9 0] ∧
      (sm 9 0).seq < 2 ^ 31 ∧
      9 < 2 ^ 31) ∧
    (fabricPuts_22.peer? 7 = some (Pm 9 63) ∧
      (Pm 9 63).unacked = [sm 9 63] ∧
      (sm 9 63).at_ + 20000 ≤ fabricPuts_22.now ∧
      (sm 9 63).resent < 64) ∧
    (fabricPuts_23.peer? 7 = some (Pm 9 64) ∧
      (Pm 9 64).unacked = [sm 9 64] ∧
      (sm 9 64).at_ + 20000 ≤ fabricPuts_23.now ∧
      64 ≤ (sm 9 64).resent)) ∧
    (0 < 4 ∧
      2 < 4 ∧
      2 ≠ 0 ∧
      (¬2 ∈ fabricPuts_24.portsDown) ∧
      (∀ (n : Nat), n < 2 → n = 0 ∨ n ∈ fabricPuts_24.portsDown)) :=
  ⟨⟨⟨rfl, rfl, rfl, fun h => absurd h (by decide +kernel), rfl, fun h => absurd h (by decide +kernel), by decide +kernel⟩, readableOf (by decide +kernel), by decide +kernel⟩,
   ⟨⟨rfl, rfl, rfl, fun h => absurd h (by decide +kernel), rfl, fun h => absurd h (by decide +kernel), by decide +kernel⟩, readableOf (by decide +kernel), by decide +kernel⟩,
   ⟨⟨rfl, rfl, rfl, fun h => absurd h (by decide +kernel), rfl, fun h => absurd h (by decide +kernel), by decide +kernel⟩, readableOf (by decide +kernel), by refine GoodBytes.mk ?_ ?_ ((by unfold soundRange; exact (by decide +kernel))) <;> decide +kernel, fun h => absurd h.reserved (by decide +kernel)⟩,
   ⟨⟨rfl, rfl, rfl, fun h => absurd h (by decide +kernel), rfl, fun h => absurd h (by decide +kernel), by decide +kernel⟩, readableOf (by decide +kernel), by refine GoodBytes.mk ?_ ?_ ((by unfold soundRange; exact (by decide +kernel))) <;> decide +kernel, by refine PutFields.mk ?_ ?_ ?_ ?_ ?_ <;> decide +kernel, (by unfold PutNote; decide +kernel)⟩,
   ⟨⟨rfl, rfl, rfl, fun h => absurd h (by decide +kernel), rfl, fun h => absurd h (by decide +kernel), by decide +kernel⟩, readableOf (by decide +kernel), by refine GoodBytes.mk ?_ ?_ ((by unfold soundRange; exact (by decide +kernel))) <;> decide +kernel, by refine PutFields.mk ?_ ?_ ?_ ?_ ?_ <;> decide +kernel, (by unfold PutNote; exact (by decide +kernel)), (by unfold Unrivalled; exact (by decide +kernel)), by decide +kernel⟩,
   ⟨by refine Delivers.mk ?_ ?_ ?_ ?_ ?_ ?_ ?_ <;> decide +kernel, (by unfold NotFramed; exact (by decide +kernel)), by decide +kernel⟩,
   ⟨by refine Delivers.mk ?_ ?_ ?_ ?_ ?_ ?_ ?_ <;> decide +kernel, (by unfold NotFramed; exact (by decide +kernel)), by decide +kernel⟩,
   ⟨⟨rfl, rfl, rfl, fun h => absurd h (by decide +kernel), rfl, fun h => absurd h (by decide +kernel), by decide +kernel⟩, readableOf (by decide +kernel), by refine GoodBytes.mk ?_ ?_ ((by unfold soundRange; exact (by decide +kernel))) <;> decide +kernel, by refine PutFields.mk ?_ ?_ ?_ ?_ ?_ <;> decide +kernel, (by unfold PutNote; exact (by decide +kernel)), by refine Stays.mk (⟨_, rfl⟩) ?_ ((by unfold Uncancelled; exact (by decide +kernel))) ?_ ?_ ?_ <;> decide +kernel, by decide +kernel⟩,
   ⟨by refine Delivers.mk ?_ ?_ ?_ ?_ ?_ ?_ ?_ <;> decide +kernel, by decide +kernel⟩,
   by decide +kernel,
   by decide +kernel⟩

theorem test_wit_Lifecycle :
    ((s1 3).stage = 1 ∧
      ((s1 3).stack 3).state = 1 ∧
      3 < 12 ∧
      32 ≤ 32) ∧
    (S0.stage = 2 ∧
      127 < 128 ∧
      (S0.cluster 127).released = false ∧
      (S0.cluster 127).failed = false) :=
  by decide +kernel

end W11

end Sys2Proof.Tests
end

section
/-! PROOFS. Every step keeps HBM and host memory in their canonical form (R7), and what stands at reset.

Only a few operations write a memory: a write or a clearing of the HBM, the move of a page, an event put in its ring, the erasure and
the package reset. Each keeps the canonical form by Laws/Memory.lean, whatever state it meets. Everything else is built from these and
from changes of other fields, so there is one lemma per function of the model, from the definitions of the functions it calls, in the
model's own order, up to `step`. -/

namespace Sys2Proof.Machine

open Sys2Proof.Safety

-- One proof at a time: so many small proofs at once each hold a thread, and the compile runs into its limit on memory.
set_option Elab.async false

/-! ### What it is for an answer to keep the memories -/

/-- A meaning's next state, if it answers one, has its memories in canonical form. -/
def NextOk : Host.Outcome State Fault Refusal → Prop
  | .next s => memoryOk s
  | _ => True

/-- The same for the body of an instruction (R51). -/
def DoneOk : Done → Prop
  | .ok p => memoryOk p.2
  | .error _ => True

/-- What is there, if anything is, has a property. -/
def Every {α : Type} (P : α → Prop) (o : Option α) : Prop := ∀ a ∈ o, P a

/-- The same for the other answers that carry states: to a thread that awaits a reply, of a queue, of a spawn, and of the checks and
pieces of an access. -/
def Answer.Ok : Answer → Prop
  | .done s _ => memoryOk s
  | .goOn s _ => memoryOk s
  | .left s => memoryOk s
  | .child s _ _ => memoryOk s
  | _ => True
@[inherit_doc Answer.Ok] def QueueReply.Ok : QueueReply → Prop
  | .done s _ => memoryOk s
  | .goOn s _ => memoryOk s
  | .park s => memoryOk s
  | .wait => True
@[inherit_doc Answer.Ok] def Spawned.Ok : Spawned → Prop
  | .done s _ => memoryOk s
  | .inline s _ _ => memoryOk s
  | .wait => True
@[inherit_doc Answer.Ok] def Raced.Ok : Raced → Prop
  | .clear s => memoryOk s
  | _ => True
@[inherit_doc Answer.Ok] def Checked.Ok : Checked → Prop
  | .ok _ s => memoryOk s
  | .page s => memoryOk s
  | _ => True
@[inherit_doc Answer.Ok] def RunCheck.Ok : RunCheck → Prop
  | .ok _ s => memoryOk s
  | .page s => memoryOk s
  | _ => True
@[inherit_doc Answer.Ok] def LinesOk : Except (Option State) (List (Nat × Piece) × State) → Prop
  | .ok p => memoryOk p.2
  | .error e => Every memoryOk e
@[inherit_doc Answer.Ok] def TileFetch.Ok : TileFetch → Prop
  | .ok s _ _ => memoryOk s
  | .page s => memoryOk s
  | _ => True
@[inherit_doc Answer.Ok] def TileStored.Ok : TileStored → Prop
  | .ok s _ _ _ => memoryOk s
  | .page s => memoryOk s
  | _ => True
@[inherit_doc Answer.Ok] def BufferCheck.Ok : BufferCheck → Prop
  | .page s => memoryOk s
  | _ => True

@[simp] theorem nextOk_next {s : State} : NextOk (.next s) ↔ memoryOk s := Iff.rfl
@[simp] theorem nextOk_refused {r : Refusal} : NextOk (.refused r) := trivial
@[simp] theorem doneOk_ok {p : Thread × State} : DoneOk (.ok p) ↔ memoryOk p.2 := Iff.rfl
@[simp] theorem doneOk_error {x : Stop} : DoneOk (.error x) := trivial

/-! ### Branches and repetitions -/

section
variable {c : Prop} [Decidable c]

@[simp] theorem memoryOk_ite {a b : State} (ha : memoryOk a) (hb : memoryOk b) : memoryOk (if c then a else b) := by
  split <;> assumption
@[simp] theorem nextOk_ite {a b : Host.Outcome State Fault Refusal} (ha : NextOk a) (hb : NextOk b) :
    NextOk (if c then a else b) := by
  split <;> assumption
@[simp] theorem doneOk_ite {a b : Done} (ha : DoneOk a) (hb : DoneOk b) : DoneOk (if c then a else b) := by
  split <;> assumption
end

section
variable {α β : Type} {P : α → Prop} {Q : β → Prop}

@[simp] theorem every_some {a : α} : Every P (some a) ↔ P a := by simp [Every]
@[simp] theorem every_none : Every P none := nofun
theorem Every.of_eq {o : Option α} {a : α} (h : Every P o) (e : o = some a) : P a := h a e
@[simp] theorem every_ite {c : Prop} [Decidable c] {a b : Option α} (ha : Every P a) (hb : Every P b) :
    Every P (if c then a else b) := by
  split <;> assumption
theorem every_guard {c : Prop} [Decidable c] {a : α} (ha : P a) : Every P (if c then some a else none) :=
  every_ite (every_some.2 ha) every_none
@[simp] theorem every_map {f : α → β} {o : Option α} (hf : ∀ a, Q (f a)) : Every Q (o.map f) := by
  cases o <;> simp [hf]
@[simp] theorem every_bind {f : α → Option β} {o : Option α} (hf : ∀ a, Every Q (f a)) : Every Q (o.bind f) := by
  cases o <;> simp [hf]
end

theorem memoryOk_foldl {α : Type} {f : State → α → State} (hf : ∀ s x, memoryOk s → memoryOk (f s x)) {l : List α} {s : State}
    (h : memoryOk s) : memoryOk (l.foldl f s) := by
  induction l generalizing s with
  | nil => exact h
  | cons x l ih => exact ih (hf s x h)

section
variable {s : State} (h : memoryOk s)
include h

/-! ### Changes of fields -/

/-- A state with any other fields changed: the one place where the fields are listed. -/
@[simp] theorem memoryOk_mk
    {cycle cur agenda freeCtr nextTid nextId lastNum threads jobs cores clusters fwcores hbm poison tlb icache
      icacheUE stores race spillTold cleared noteOps tails faults qwaits pipelines queries streams funcs chip udpPort
      peers grants portsDown putsIn powerLimit duty powerSteps stage booted image staged stagedLen quiesce mboxSeq
      mboxStatus mboxStage mboxBody mboxBuf bootFail stacksFailed migrations ceCores ceTiles keydig minsvn actsvn
      attaddr attbusy ceThresh critTemp exitTemp : _} :
    memoryOk ⟨cycle, cur, agenda, freeCtr, nextTid, nextId, lastNum, threads, jobs, cores, clusters, fwcores, hbm,
      s.mem, poison, tlb, icache, icacheUE, stores, race, spillTold, cleared, noteOps, tails, faults, qwaits,
      pipelines, queries, streams, funcs, s.hostMem, chip, udpPort, peers, grants, portsDown, putsIn, powerLimit,
      duty, powerSteps, stage, booted, image, staged, stagedLen, quiesce, mboxSeq, mboxStatus, mboxStage, mboxBody,
      mboxBuf, bootFail, stacksFailed, migrations, ceCores, ceTiles, keydig, minsvn, actsvn, attaddr, attbusy,
      ceThresh, critTemp, exitTemp⟩ := h

/-- A state with other contents of the HBM and other poisoned words. -/
theorem memoryOk_mem {m : Mem} (hm : Memory.wf m = true) (p : List Nat) : memoryOk { s with mem := m, poison := p } := ⟨hm, h.2⟩

/-! ### What a state lists, replaced by name (R3-R5) -/

@[simp] theorem memoryOk_setThread (t) : memoryOk (s.setThread t) := h
@[simp] theorem memoryOk_modThread (tid f) : memoryOk (s.modThread tid f) := h
@[simp] theorem memoryOk_dropThread (tid) : memoryOk (s.dropThread tid) := h
@[simp] theorem memoryOk_modJob (ctx f) : memoryOk (s.modJob ctx f) := h
@[simp] theorem memoryOk_setCore (c) : memoryOk (s.setCore c) := h
@[simp] theorem memoryOk_modCore (id f) : memoryOk (s.modCore id f) := h
@[simp] theorem memoryOk_setCluster (c) : memoryOk (s.setCluster c) := h
@[simp] theorem memoryOk_modCluster (id f) : memoryOk (s.modCluster id f) := h
@[simp] theorem memoryOk_setFw (c) : memoryOk (s.setFw c) := h
@[simp] theorem memoryOk_setStack (k) : memoryOk (s.setStack k) := h
@[simp] theorem memoryOk_setFunc (f) : memoryOk (s.setFunc f) := h
@[simp] theorem memoryOk_setNear (t l) : memoryOk (s.setNear t l) := by
  unfold State.setNear
  split <;> simp [h]
@[simp] theorem memoryOk_tickFree : memoryOk s.tickFree := h

/-! ### Register operands (R45, R77-R88) -/

@[simp] theorem memoryOk_markEmpty (t w r) : memoryOk (markEmpty t s w r).2 := by
  unfold markEmpty
  grind [memoryOk_modCore, memoryOk_setNear]
@[simp] theorem memoryOk_consume (t srcs) : memoryOk (consume t s srcs) := by
  refine memoryOk_foldl (fun _ _ h' => ?_) h
  split
  · exact memoryOk_modCore h' _ _
  · exact h'
@[simp] theorem memoryOk_writeReg (t w d v) : memoryOk (writeReg t s w d v).2 := by
  unfold writeReg
  grind [memoryOk_modCore, memoryOk_setNear]
@[simp] theorem memoryOk_writeResult (t w d v) : memoryOk (writeResult t s w d v).2 := by
  simp [writeResult, h]
@[simp] theorem memoryOk_finish (t w srcs d v) : memoryOk (finish t s w srcs d v).2 := by
  simp [finish, h]
@[simp] theorem memoryOk_finishWith (t srcs f) : memoryOk (finishWith t s srcs f).2 := by
  simp [finishWith, h]
@[simp] theorem doneOk_scalarOp (w srcs d f t) : DoneOk (scalarOp w srcs d f t s) := by
  unfold scalarOp
  split <;> simp [h]

/-! ### Predicate results (R124) -/

@[simp] theorem doneOk_predOp (w srcs d f t) : DoneOk (predOp w srcs d f t s) := by
  unfold predOp
  split <;> simp [h]

/-! ### Writes of the HBM and through a job's tables (R138, R148, R203, R377) -/

@[simp] theorem memoryOk_buffered (pa) : memoryOk (s.buffered pa) := h
/-- A write of the HBM (R212). -/
@[simp] theorem memoryOk_poke (pa n v) : memoryOk (s.poke pa n v) :=
  memoryOk_buffered (memoryOk_mem h (Memory.wf_write n pa v h.1) _) _
@[simp] theorem memoryOk_jobWrite (ctx va n v) : memoryOk (s.jobWrite ctx va n v) := by
  unfold State.jobWrite
  split <;> simp [h]

/-! ### Events to the host and messages to other packages (R425-R431) -/

/-- Events go to a ring in host memory (R426). -/
@[simp] theorem memoryOk_pumpEvents (n) : memoryOk (s.pumpEvents n) := ⟨h.1, wf_pumpRing _ _ h.2⟩
@[simp] theorem memoryOk_postEvent (func cls ctx record) : memoryOk (s.postEvent func cls ctx record) := by
  simp [State.postEvent, h]
@[simp] theorem memoryOk_setPeer (p) : memoryOk (s.setPeer p) := h
@[simp] theorem memoryOk_sendFab (chip sctx dctx body) : memoryOk (s.sendFab chip sctx dctx body) := by
  unfold State.sendFab
  split <;> simp [h]

/-! ### Charges, reports, faults, traps, kills, parking and issue (R51, R127-R148, R202-R204, R316) -/

@[simp] theorem memoryOk_bill (tid ctx pj) : memoryOk (s.bill tid ctx pj) := by
  unfold State.bill
  grind [memoryOk_setThread, memoryOk_jobWrite, memoryOk_modJob]
@[simp] theorem memoryOk_reportEntry (ctx va ws) : memoryOk (s.reportEntry ctx va ws) := by
  induction ws generalizing s va with
  | nil => exact h
  | cons w ws ih => exact ih (memoryOk_jobWrite h _ _ _ _) _
@[simp] theorem memoryOk_reportEntries (ctx base cap k es) : memoryOk (s.reportEntries ctx base cap k es) := by
  induction es generalizing s k with
  | nil => exact h
  | cons e es ih => exact ih (memoryOk_reportEntry h _ _ _) _
@[simp] theorem memoryOk_report (ctx kind cause info0 info1 body) :
    memoryOk (s.report ctx kind cause info0 info1 body) := by
  unfold State.report
  grind [memoryOk_jobWrite, memoryOk_reportEntries]
@[simp] theorem memoryOk_pumpFaults (ctx) : memoryOk (s.pumpFaults ctx) := by
  unfold State.pumpFaults
  grind [memoryOk_jobWrite, memoryOk_mk]
@[simp] theorem memoryOk_raiseFault (ctx va need w who coord) : memoryOk (s.raiseFault ctx va need w who coord) := by
  unfold State.raiseFault
  grind [memoryOk_jobWrite, memoryOk_pumpFaults, memoryOk_modJob, memoryOk_mk]
@[simp] theorem memoryOk_freeEngines (tid) : memoryOk (s.freeEngines tid) := h
@[simp] theorem memoryOk_freeFrame (ctx va) : memoryOk (s.freeFrame ctx va) := by
  unfold State.freeFrame
  grind [memoryOk_modJob, memoryOk_jobWrite, memoryOk_foldl]
@[simp] theorem memoryOk_flushClosings : memoryOk s.flushClosings := h
@[simp] theorem memoryOk_leaveGroups (t killed) : memoryOk (s.leaveGroups t killed) := h
@[simp] theorem memoryOk_forgetRaces (task) : memoryOk (s.forgetRaces task) := h
@[simp] theorem memoryOk_sendNote (o) : memoryOk (s.sendNote o) := h
@[simp] theorem memoryOk_removeTask (t killed) : memoryOk (s.removeTask t killed) := by
  unfold State.removeTask
  grind [memoryOk_freeFrame, memoryOk_leaveGroups, memoryOk_freeEngines, memoryOk_dropThread, memoryOk_forgetRaces,
    memoryOk_mk]
@[simp] theorem memoryOk_killOne (t cause v poisons) : memoryOk (s.killOne t cause v poisons) := by
  unfold State.killOne
  split <;> simp [h]
@[simp] theorem memoryOk_killChain (cause v poisons n t) : memoryOk (s.killChain cause v poisons n t) := by
  induction n generalizing s poisons t with
  | zero => exact memoryOk_killOne h _ _ _ _
  | succ n ih => grind [State.killChain, memoryOk_killOne]
@[simp] theorem memoryOk_kill (t cause v) : memoryOk (s.kill t cause v) := by
  simp [State.kill, h]
@[simp] theorem memoryOk_killCancelled (t) : memoryOk (s.killCancelled t) := by
  simp [State.killCancelled, h]
@[simp] theorem memoryOk_handlerFault (t hd cause v) : memoryOk (s.handlerFault t hd cause v) := by
  unfold State.handlerFault
  split <;> simp [h]
@[simp] theorem memoryOk_fwTrap (t die n cause v epc) : memoryOk (s.fwTrap t die n cause v epc) := by
  unfold State.fwTrap
  grind [memoryOk_postEvent, memoryOk_setFw, memoryOk_setThread]
@[simp] theorem memoryOk_takeTrap (t cause v epc) : memoryOk (takeTrap t cause v epc s) := by
  unfold takeTrap
  grind [memoryOk_fwTrap, memoryOk_handlerFault, memoryOk_kill, memoryOk_setThread]
@[simp] theorem memoryOk_settle (t) : memoryOk (s.settle t) := by
  unfold State.settle
  split <;> simp [h]
@[simp] theorem memoryOk_stop (t x) : memoryOk (s.stop t x) := by
  unfold State.stop
  split <;> simp [h]
@[simp] theorem memoryOk_chargeFor (t pj) : memoryOk (s.chargeFor t pj) := by
  unfold State.chargeFor
  split <;> simp [h]
@[simp] theorem nextOk_issueChecked (pj check body) (hbody : ∀ u s', memoryOk s' → DoneOk (body u s')) :
    NextOk (issueChecked pj check body s) := by
  unfold issueChecked
  grind [memoryOk_chargeFor, memoryOk_stop, memoryOk_settle, DoneOk, NextOk]
@[simp] theorem nextOk_issue (i body) (hbody : ∀ u s', memoryOk s' → DoneOk (body u s')) : NextOk (issue i body s) := by
  simp +contextual [issue, hbody, h]
@[simp] theorem nextOk_issueLate (w ok body) (hbody : ∀ u s', memoryOk s' → DoneOk (body u s')) :
    NextOk (issueLate w ok body s) := by
  simp +contextual [issueLate, hbody, h]

/-! ### Control and status registers (R104, R443) -/

@[simp] theorem every_csrWrite (t n v) : Every (memoryOk ·.2) (csrWrite t s n v) := by
  unfold csrWrite
  grind [memoryOk_setFw, memoryOk_mk, every_some, every_none]
@[simp] theorem doneOk_csrBody (i o srcs new t) : DoneOk (csrBody i o srcs new t s) := by
  unfold csrBody
  grind [memoryOk_finish, every_csrWrite, memoryOk_consume, DoneOk, every_some]
@[simp] theorem nextOk_execAttestSignatureDone : NextOk (execAttestSignatureDone s) := by
  unfold execAttestSignatureDone
  grind [memoryOk_tickFree, memoryOk_poke, memoryOk_mk, NextOk]

/-! ### Writes into the frame of an evicted task (R136, R139) -/

@[simp] theorem memoryOk_frameWrite (t off n v) : memoryOk (s.frameWrite t off n v) := by
  unfold State.frameWrite
  split <;> simp [h]
@[simp] theorem memoryOk_repark (t w) : memoryOk (s.repark t w) := by
  unfold State.repark
  grind [memoryOk_frameWrite, memoryOk_setThread]

/-! ### Synchronisation regions (R230, R231) -/

@[simp] theorem doneOk_waitFor (w operand srcs p t) : DoneOk (waitFor w operand srcs p t s) := h
@[simp] theorem doneOk_taking (r core free w operand srcs p effect t) (heffect : ∀ u s', memoryOk s' → DoneOk (effect u s')) :
    DoneOk (taking r core free w operand srcs p effect t s) := by
  simp [taking, heffect, h]
@[simp] theorem doneOk_atSync (observable w operand srcs p effect t) (heffect : ∀ u s', memoryOk s' → DoneOk (effect u s')) :
    DoneOk (atSync observable w operand srcs p effect t s) := by
  unfold atSync
  split <;> simp [heffect, h]

/-! ### Giving way and ending (R126, R127), words that name no instruction (R49, R116) -/

@[simp] theorem memoryOk_reportDrain (ctx d) : memoryOk (s.reportDrain ctx d) := by
  simp [State.reportDrain, h]
@[simp] theorem memoryOk_abandonDrains (t) : memoryOk (s.abandonDrains t) := by
  unfold State.abandonDrains
  grind [memoryOk_reportDrain, memoryOk_foldl]
@[simp] theorem memoryOk_fillDest (t d v) : memoryOk (s.fillDest t d v) := by
  unfold State.fillDest
  grind [memoryOk_writeReg, memoryOk_setThread, memoryOk_frameWrite]
@[simp] theorem memoryOk_endTask (t v) : memoryOk (s.endTask t v) := by
  unfold State.endTask
  grind [memoryOk_removeTask, memoryOk_abandonDrains, memoryOk_sendNote, memoryOk_fillDest]
@[simp] theorem nextOk_execExit (o) : NextOk (execExit o s) := by
  unfold execExit
  grind [nextOk_issue, memoryOk_consume, memoryOk_endTask, DoneOk]
@[simp] theorem nextOk_execIllegal (w) : NextOk (execIllegal w s) := by
  simp [execIllegal, h]
@[simp] theorem nextOk_execFetchFault (ue va) : NextOk (execFetchFault ue va s) := by
  unfold execFetchFault
  split <;> simp [h]

/-! ### The stores next to a core (R153-R163, R181-R184) -/

@[simp] theorem memoryOk_deliver (t d ext size v) : memoryOk (deliver t s d ext size v).2 := by
  unfold deliver
  split <;> simp [h]
@[simp] theorem memoryOk_payFor (t pj) : memoryOk (payFor t s pj).2 := by
  unfold payFor
  split <;> simp [h]
@[simp] theorem doneOk_loadNear (o size ext t) : DoneOk (loadNear o size ext t s) := by
  unfold loadNear
  grind [memoryOk_payFor, memoryOk_deliver, DoneOk]
@[simp] theorem doneOk_storeNear (o size t) : DoneOk (storeNear o size t s) := by
  unfold storeNear
  grind [memoryOk_payFor, memoryOk_consume, memoryOk_setNear, DoneOk]
@[simp] theorem doneOk_loadTile (o size ext t) : DoneOk (loadTile o size ext t s) := by
  unfold loadTile
  grind [doneOk_waitFor, DoneOk]
@[simp] theorem doneOk_storeTile (o size t) : DoneOk (storeTile o size t s) := by
  unfold storeTile
  grind [doneOk_waitFor, DoneOk]
@[simp] theorem memoryOk_perform (op ea b t) : memoryOk (FeOp.perform op ea b t s).1 := by
  simp [FeOp.perform, h]
@[simp] theorem doneOk_feOp (o srcs dst op t) : DoneOk (feOp o srcs dst op t s) := by
  unfold feOp
  grind [doneOk_atSync, memoryOk_perform, memoryOk_payFor, memoryOk_consume, memoryOk_writeResult, DoneOk]
@[simp] theorem doneOk_tagWait (o op t) : DoneOk (tagWait o op t s) := by
  unfold tagWait
  grind [doneOk_atSync, memoryOk_finish, DoneOk]
@[simp] theorem doneOk_barOp (o srcs dst body t) (hbody : ∀ x y z u s', memoryOk s' → DoneOk (body x y z u s')) :
    DoneOk (barOp o srcs dst body t s) := by
  unfold barOp
  split <;> simp [hbody, h]
@[simp] theorem nextOk_execBarInit (o) : NextOk (execBarInit o s) := by
  unfold execBarInit
  grind [nextOk_issue, doneOk_barOp, memoryOk_setNear, memoryOk_consume, DoneOk]
@[simp] theorem nextOk_execBarExp (o) : NextOk (execBarExp o s) := by
  unfold execBarExp
  grind [nextOk_issue, doneOk_barOp, memoryOk_setNear, memoryOk_consume, DoneOk]
@[simp] theorem nextOk_execBarArr (o) : NextOk (execBarArr o s) := by
  unfold execBarArr
  grind [nextOk_issue, doneOk_barOp, doneOk_atSync, memoryOk_finish, memoryOk_setNear, memoryOk_consume, DoneOk]
@[simp] theorem nextOk_execBarWait (o) : NextOk (execBarWait o s) := by
  unfold execBarWait
  grind [nextOk_issue, doneOk_barOp, doneOk_atSync, memoryOk_consume, DoneOk]
@[simp] theorem nextOk_execBarQ (o) : NextOk (execBarQ o s) := by
  unfold execBarQ
  grind [nextOk_issue, doneOk_barOp, memoryOk_finish, DoneOk]
@[simp] theorem doneOk_syncWait (n old t) : DoneOk (syncWait n old t s) := by
  simp [syncWait, h]
@[simp] theorem nextOk_execBarSync (o) : NextOk (execBarSync o s) := by
  unfold execBarSync
  grind [nextOk_issue, doneOk_syncWait, doneOk_barOp, doneOk_atSync, memoryOk_setNear, memoryOk_consume]

/-! ### Race metadata (R232-R235) -/

@[simp] theorem memoryOk_setRace (e) : memoryOk (s.setRace e) := h
@[simp] theorem memoryOk_raceRecord (pa n tag writes) : memoryOk (s.raceRecord pa n tag writes) := by
  unfold State.raceRecord
  grind [memoryOk_setRace, memoryOk_foldl]
@[simp] theorem ok_raceAccess (tid num seq va pa n writes) : Raced.Ok (s.raceAccess tid num seq va pa n writes) := by
  unfold State.raceAccess
  grind [memoryOk_modThread, memoryOk_raceRecord, Raced.Ok]
@[simp] theorem every_tellSpill (pa) : Every memoryOk (s.tellSpill pa) := by
  unfold State.tellSpill
  grind [memoryOk_postEvent, memoryOk_mk, every_some, every_none]
@[simp] theorem memoryOk_forgetRegion (tag) : memoryOk (s.forgetRegion tag) := h

/-! ### Global memory (R207-R219) -/

@[simp] theorem memoryOk_dropCopy (core pa) : memoryOk (s.dropCopy core pa) := h
@[simp] theorem memoryOk_updateCopy (core pa) : memoryOk (s.updateCopy core pa) := h
@[simp] theorem memoryOk_fillCopy (core pa) : memoryOk (s.fillCopy core pa) := by
  simp [State.fillCopy, h]
@[simp] theorem memoryOk_dropCopies (t) : memoryOk (s.dropCopies t) := by
  simp [State.dropCopies, h]
@[simp] theorem memoryOk_homeCharge (tid ctx unit pa n) : memoryOk (s.homeCharge tid ctx unit pa n) := by
  simp [State.homeCharge, h]
@[simp] theorem doneOk_pageWait (need va w t) : DoneOk (pageWait need va w t s) := by
  simp [pageWait, h]
@[simp] theorem doneOk_accessing (need w ea size srcs p body t) (hbody : ∀ x y u s', memoryOk s' → DoneOk (body x y u s')) :
    DoneOk (accessing need w ea size srcs p body t s) := by
  unfold accessing
  grind [doneOk_waitFor, doneOk_pageWait, DoneOk]
@[simp] theorem doneOk_loadGlobal (o size ext t) : DoneOk (loadGlobal o size ext t s) := by
  unfold loadGlobal
  grind [doneOk_accessing, doneOk_waitFor, DoneOk]
@[simp] theorem memoryOk_postAs (t va pa size v num) : memoryOk (s.postAs t va pa size v num) := h
@[simp] theorem memoryOk_post (t va pa size v) : memoryOk (s.post t va pa size v) := h
@[simp] theorem doneOk_storeGlobal (o size t) : DoneOk (storeGlobal o size t s) := by
  unfold storeGlobal
  grind [doneOk_accessing, doneOk_waitFor, memoryOk_post, memoryOk_consume, DoneOk]
@[simp] theorem doneOk_orderedOp (w a b d op r srcs dst t) : DoneOk (orderedOp w a b d op r srcs dst t s) := by
  unfold orderedOp
  grind [doneOk_accessing, doneOk_atSync, memoryOk_post, memoryOk_consume, doneOk_waitFor, DoneOk]
@[simp] theorem doneOk_amo (o op t) : DoneOk (amo o op t s) := by
  simp [amo, h]
@[simp] theorem doneOk_fenceOp (o acq rel sc t) : DoneOk (fenceOp o acq rel sc t s) := by
  unfold fenceOp
  grind [doneOk_atSync, memoryOk_dropCopies, memoryOk_consume, doneOk_waitFor, DoneOk]
@[simp] theorem nextOk_execFenceRcpt (o) : NextOk (execFenceRcpt o s) := by
  unfold execFenceRcpt
  grind [nextOk_issue, doneOk_waitFor, memoryOk_consume, DoneOk]
@[simp] theorem nextOk_execFenceTlb (o) : NextOk (execFenceTlb o s) := by
  unfold execFenceTlb
  grind [nextOk_issue, doneOk_waitFor, DoneOk]
@[simp] theorem memoryOk_tlbRemove (ctx lo hi) : memoryOk (s.tlbRemove ctx lo hi) := h
@[simp] theorem every_replyLoad (t va pa size ext d chk num hit) :
    Every (memoryOk ·.1) (replyLoad t s va pa size ext d chk num hit) := by
  unfold replyLoad
  grind [ok_raceAccess, memoryOk_homeCharge, memoryOk_fillCopy, Raced.Ok, every_some, every_none]
@[simp] theorem memoryOk_receipt (t) : memoryOk (s.receipt t).1 := h
@[simp] theorem every_replyPost (t va pa size v num) : Every (memoryOk ·.1) (replyPost t s va pa size v num) := by
  unfold replyPost
  split <;> simp [h]
@[simp] theorem every_replyStore (t va pa size v num) : Every (memoryOk ·.1) (replyStore t s va pa size v num) := by
  unfold replyStore
  grind [ok_raceAccess, memoryOk_receipt, memoryOk_homeCharge, memoryOk_poke, Raced.Ok, every_some, every_none]
@[simp] theorem every_replyOrdered (t op r va pa scope x y d chk after num win) :
    Every (memoryOk ·.1) (replyOrdered t s op r va pa scope x y d chk after num win) := by
  unfold replyOrdered
  grind [memoryOk_receipt, memoryOk_postAs, memoryOk_poke, memoryOk_updateCopy, memoryOk_dropCopy,
    memoryOk_dropCopies, memoryOk_homeCharge, every_some, every_none]
@[simp] theorem every_replyFence (t acq sc scope after win) :
    Every (memoryOk ·.1) (replyFence t s acq sc scope after win) := by
  unfold replyFence
  grind [memoryOk_dropCopies, every_some, every_none]
@[simp] theorem every_replyTlb (ctx start len after) : Every (memoryOk ·.1) (replyTlb s ctx start len after) := by
  simp [replyTlb, h]
@[simp] theorem memoryOk_advanceWaits : memoryOk s.advanceWaits := h
@[simp] theorem memoryOk_performStore (x) : memoryOk (s.performStore x) := by
  unfold State.performStore
  grind [memoryOk_homeCharge, memoryOk_poke, memoryOk_flushClosings, memoryOk_updateCopy, memoryOk_mk]
@[simp] theorem nextOk_execStorePerformed (id) : NextOk (execStorePerformed id s) := by
  unfold execStorePerformed
  grind [memoryOk_performStore, NextOk]
@[simp] theorem nextOk_execRegionRetire (tid seq) : NextOk (execRegionRetire tid seq s) := by
  unfold execRegionRetire
  grind [memoryOk_modThread, memoryOk_forgetRegion, NextOk]
@[simp] theorem memoryOk_cacheFill (e) : memoryOk (s.cacheFill e) := h
@[simp] theorem nextOk_execTlbWalkDone (place ctx va) : NextOk (execTlbWalkDone place ctx va s) := by
  unfold execTlbWalkDone
  grind [memoryOk_cacheFill, NextOk]

/-! ### The transfer queue (R169-R180) -/

@[simp] theorem memoryOk_localWrite (x off n v total left) : memoryOk (s.localWrite x off n v total left) := by
  simp [State.localWrite, h]
@[simp] theorem memoryOk_enqueue (x) : memoryOk (s.enqueue x) := h
@[simp] theorem doneOk_transfer (o f t) : DoneOk (transfer o f t s) := by
  unfold transfer
  grind [doneOk_taking, memoryOk_enqueue, memoryOk_consume, DoneOk]
@[simp] theorem memoryOk_setXfer (x) : memoryOk (s.setXfer x) := h
@[simp] theorem memoryOk_dropXfer (x) : memoryOk (s.dropXfer x) := h
@[simp] theorem memoryOk_deliverTo (bar n) : memoryOk (s.deliverTo bar n) := by
  unfold State.deliverTo
  split <;> simp [h]
@[simp] theorem memoryOk_finishXfer (x) : memoryOk (s.finishXfer x) := by
  unfold State.finishXfer
  grind [memoryOk_modThread, memoryOk_dropXfer, memoryOk_frameWrite]
@[simp] theorem memoryOk_stopXfer (x c va) : memoryOk (s.stopXfer x c va) := by
  unfold State.stopXfer
  grind [memoryOk_finishXfer, memoryOk_kill]
@[simp] theorem memoryOk_failXfer (x c va) : memoryOk (s.failXfer x c va) := by
  unfold State.failXfer
  grind [memoryOk_stopXfer, memoryOk_sendNote]
@[simp] theorem ok_checkPiece (ctx core need va n who region) :
    Checked.Ok (s.checkPiece ctx core need va n who region) := by
  unfold State.checkPiece
  grind [memoryOk_raiseFault, ok_raceAccess, every_tellSpill, Checked.Ok, Raced.Ok, every_some]
@[simp] theorem ok_checkXfer (x need va n off) : Checked.Ok (s.checkXfer x need va n off) := by
  simp [State.checkXfer, h]
@[simp] theorem every_putPiece (x p) : Every memoryOk (putPiece x p s) := by
  unfold putPiece
  grind [ok_checkXfer, memoryOk_failXfer, memoryOk_homeCharge, memoryOk_poke, memoryOk_bill, memoryOk_deliverTo,
    memoryOk_setXfer, Checked.Ok, every_some, every_none]
@[simp] theorem every_getPiece (x p) : Every memoryOk (getPiece x p s) := by
  unfold getPiece
  grind [ok_checkXfer, memoryOk_failXfer, memoryOk_homeCharge, memoryOk_setXfer, memoryOk_bill, memoryOk_localWrite,
    memoryOk_deliverTo, Checked.Ok, every_some, every_none]
@[simp] theorem linesOk_checkLines (x need at_ ps) : LinesOk (checkLines x need at_ ps s) := by
  induction ps generalizing s with
  | nil => exact h
  | cons p ps ih => grind [checkLines, LinesOk, Checked.Ok, Every, ok_checkXfer, memoryOk_failXfer]
@[simp] theorem every_decodeBlock (x p) : Every memoryOk (decodeBlock x p s) := by
  unfold decodeBlock
  grind [linesOk_checkLines, memoryOk_homeCharge, memoryOk_setXfer, memoryOk_bill, memoryOk_localWrite,
    memoryOk_report, memoryOk_deliverTo, LinesOk, every_some, memoryOk_foldl]
@[simp] theorem memoryOk_writeLines (v l) : memoryOk (writeLines v l s) := by
  induction l generalizing s with
  | nil => exact h
  | cons e l ih => exact ih (memoryOk_poke h _ _ _)
@[simp] theorem every_encodeBlock (x p) : Every memoryOk (encodeBlock x p s) := by
  unfold encodeBlock
  grind [memoryOk_failXfer, linesOk_checkLines, memoryOk_homeCharge, memoryOk_writeLines, memoryOk_setXfer,
    memoryOk_bill, memoryOk_deliverTo, LinesOk, every_some, every_none, memoryOk_foldl]
@[simp] theorem every_remotePiece (x p chip rctx dst total note number) :
    Every memoryOk (remotePiece x p chip rctx dst total note number s) := by
  unfold remotePiece
  grind [linesOk_checkLines, memoryOk_homeCharge, memoryOk_setXfer, memoryOk_sendFab, LinesOk, every_some, every_none,
    memoryOk_foldl]
@[simp] theorem every_performPiece (x p) : Every memoryOk (s.performPiece x p) := by
  unfold State.performPiece
  grind [memoryOk_tickFree, memoryOk_failXfer, every_remotePiece, every_encodeBlock, every_putPiece,
    every_decodeBlock, every_getPiece, every_some, every_none]
@[simp] theorem every_earlyByte (x b) : Every memoryOk (earlyByte x b s) := by
  unfold earlyByte
  repeat' split
  all_goals simp [h]
@[simp] theorem nextOk_execTransferPiecePerformed (core id piece) :
    NextOk (execTransferPiecePerformed core id piece s) := by
  unfold execTransferPiecePerformed
  grind [every_performPiece, NextOk, every_some]
@[simp] theorem memoryOk_fillReg (x) : memoryOk (s.fillReg x) := by
  unfold State.fillReg
  grind [memoryOk_fillDest, memoryOk_setThread, memoryOk_frameWrite]
@[simp] theorem nextOk_execTransferComplete (core id) : NextOk (execTransferComplete core id s) := by
  unfold execTransferComplete
  grind [memoryOk_finishXfer, memoryOk_fillReg, NextOk]
@[simp] theorem ok_checkRun (ctx need who ps) : RunCheck.Ok (s.checkRun ctx need who ps) := by
  induction ps with
  | nil => exact h
  | cons p ps ih => grind [State.checkRun, RunCheck.Ok, Checked.Ok, ok_checkPiece]
@[simp] theorem memoryOk_linesCost (die lines) : memoryOk (s.linesCost die lines).1 := by
  unfold State.linesCost
  generalize 0 = n
  induction lines generalizing s n with
  | nil => exact h
  | cons l lines ih => exact ih (memoryOk_tickFree h) _
@[simp] theorem ok_tilePieceAt (ctx who cl dest mode codec cursor p) :
    TileFetch.Ok (s.tilePieceAt ctx who cl dest mode codec cursor p) := by
  unfold State.tilePieceAt
  grind [ok_checkRun, memoryOk_linesCost, memoryOk_modCluster, memoryOk_report, RunCheck.Ok, TileFetch.Ok]

/-! ### Matrix engine contexts (R320-R344) -/

@[simp] theorem memoryOk_setEngine (cl e) : memoryOk (s.setEngine cl e) := h
@[simp] theorem doneOk_trapNow (t c v) : DoneOk (trapNow t s c v) := by
  simp [trapNow, h]
@[simp] theorem doneOk_withEngine (w body t) (hbody : ∀ x u s', memoryOk s' → DoneOk (body x u s')) :
    DoneOk (withEngine w body t s) := by
  unfold withEngine
  grind [memoryOk_setEngine, doneOk_trapNow, DoneOk]
@[simp] theorem doneOk_awaitArray (e n t) : DoneOk (awaitArray e n t s) := h
@[simp] theorem doneOk_numberedOp (w srcs check mk t) : DoneOk (numberedOp w srcs check mk t s) := by
  unfold numberedOp
  grind [doneOk_withEngine, memoryOk_setEngine, doneOk_trapNow, doneOk_awaitArray, memoryOk_modCluster, DoneOk]
@[simp] theorem nextOk_execEbind (o) : NextOk (execEbind o s) := by
  unfold execEbind
  grind [nextOk_issue, memoryOk_setEngine, doneOk_waitFor, DoneOk]
@[simp] theorem every_replyEbind (t pd d) : Every (memoryOk ·.1) (replyEbind t s pd d) := by
  unfold replyEbind
  grind [memoryOk_modCluster, every_some]
@[simp] theorem nextOk_execEfree (o) : NextOk (execEfree o s) := by
  unfold execEfree
  grind [nextOk_issue, doneOk_withEngine, memoryOk_freeEngines, memoryOk_setEngine, DoneOk]
@[simp] theorem nextOk_execTlwait (o) : NextOk (execTlwait o s) := by
  unfold execTlwait
  grind [nextOk_issue, doneOk_withEngine, memoryOk_setEngine, doneOk_atSync, memoryOk_dropCopies, memoryOk_consume,
    DoneOk]
@[simp] theorem nextOk_execTlread (o) : NextOk (execTlread o s) := by
  unfold execTlread
  grind [nextOk_issue, doneOk_withEngine, memoryOk_finish, memoryOk_setEngine, DoneOk]
@[simp] theorem memoryOk_arrayPart (cl e o) : memoryOk (arrayPart cl e o s).s := by
  unfold arrayPart
  dsimp only
  repeat' split
  all_goals simp [h]
@[simp] theorem memoryOk_releaseHold (cl slot tid n) : memoryOk (s.releaseHold cl slot tid n) := h
@[simp] theorem nextOk_execArrayPartDone (cl idx) : NextOk (execArrayPartDone cl idx s) := by
  unfold execArrayPartDone
  grind [memoryOk_arrayPart, memoryOk_bill, memoryOk_setEngine, memoryOk_releaseHold, memoryOk_takeTrap,
    memoryOk_setThread, NextOk]

/-! ### Drain programs and drains (R345-R368) -/

@[simp] theorem nextOk_execDpmLoad (o) : NextOk (execDpmLoad o s) := by
  unfold execDpmLoad
  grind [nextOk_issue, memoryOk_payFor, doneOk_waitFor, DoneOk]
@[simp] theorem every_replyDpmLoad (t d x image) : Every (memoryOk ·.1) (replyDpmLoad t s d x image) := by
  unfold replyDpmLoad
  split <;> simp [h]
@[simp] theorem nextOk_execDpmFree (o) : NextOk (execDpmFree o s) := by
  unfold execDpmFree
  grind [nextOk_issue, doneOk_waitFor, DoneOk]
@[simp] theorem every_replyDpmFree (t d slot) : Every (memoryOk ·.1) (replyDpmFree t s d slot) := by
  unfold replyDpmFree
  grind [memoryOk_setCluster, every_some]
@[simp] theorem memoryOk_haltEngine (cl e holder) : memoryOk (s.haltEngine cl e holder) := by
  unfold State.haltEngine
  grind [memoryOk_setEngine, memoryOk_releaseHold, memoryOk_setThread, memoryOk_foldl]
@[simp] theorem nextOk_execDrainStart (cl idx acc) : NextOk (execDrainStart cl idx acc s) := by
  unfold execDrainStart
  grind [memoryOk_setEngine, NextOk]
@[simp] theorem every_earlyDrain (cl idx acc byte) : Every memoryOk (s.earlyDrain cl idx acc byte) := by
  unfold State.earlyDrain
  grind [memoryOk_modCluster, every_some, every_none]
@[simp] theorem nextOk_execDrainRowDone (cl idx acc) : NextOk (execDrainRowDone cl idx acc s) := by
  unfold execDrainRowDone
  split
  · exact nextOk_refused
  split
  · exact nextOk_refused
  split
  · exact nextOk_refused
  have hb (k j) := memoryOk_bill (memoryOk_tickFree (memoryOk_setCluster h k)) j
  dsimp only
  split
  · exact memoryOk_setEngine (hb _ _ _ _) _ _
  · exact memoryOk_haltEngine (hb _ _ _ _) _ _ _
@[simp] theorem nextOk_execDrainComplete (cl idx acc) : NextOk (execDrainComplete cl idx acc s) := by
  unfold execDrainComplete
  grind [memoryOk_releaseHold, memoryOk_setEngine, memoryOk_bill, NextOk]

/-! ### New thread contexts (R79, R167) -/

@[simp] theorem memoryOk_takeTid : memoryOk s.takeTid.2 := h
@[simp] theorem memoryOk_seat (t) : memoryOk (s.seat t) := h

/-! ### Task records and dispatch (R240-R254) -/

@[simp] theorem memoryOk_start (t) : memoryOk (s.start t) := by
  unfold State.start
  grind [memoryOk_seat, memoryOk_modJob, memoryOk_dropCopies]
@[simp] theorem memoryOk_dropHeld (cl id) : memoryOk (s.dropHeld cl id) := h

/-! ### Saving a task to a frame and reading it back (R136-R140, R341) -/

@[simp] theorem memoryOk_poisonAtVa (ctx va n) : memoryOk (s.poisonAtVa ctx va n) := by
  unfold State.poisonAtVa
  split <;> simp [h]
@[simp] theorem memoryOk_framePut (ctx va n v) : memoryOk (s.framePut ctx va n v) := by
  unfold State.framePut
  split
  · exact memoryOk_mem h (Memory.wf_write _ _ _ h.1) _
  · exact h
@[simp] theorem memoryOk_frameFields (ctx va fs) : memoryOk (s.frameFields ctx va fs) := by
  unfold State.frameFields
  grind [memoryOk_framePut, memoryOk_foldl]
@[simp] theorem memoryOk_frameClear (ctx va units) : memoryOk (s.frameClear ctx va units) := by
  refine memoryOk_foldl (fun _ _ h' => ?_) h
  split
  · exact memoryOk_mem h' (Memory.wf_clear h'.1 _ _) _
  · exact h'
@[simp] theorem memoryOk_frameLines (ctx va n) : memoryOk (s.frameLines ctx va n) := by
  unfold State.frameLines
  grind [memoryOk_buffered, memoryOk_foldl]
@[simp] theorem memoryOk_saveFrame (t va e mig) : memoryOk (s.saveFrame t va e mig) := by
  unfold State.saveFrame
  grind [memoryOk_frameFields, memoryOk_frameClear, memoryOk_poisonAtVa, memoryOk_frameLines, memoryOk_foldl]
@[simp] theorem every_evict (t groups mig) : Every memoryOk (s.evict t groups mig) := by
  unfold State.evict
  grind [memoryOk_modJob, memoryOk_setEngine, memoryOk_setThread, every_some, every_none]
@[simp] theorem memoryOk_saveDone (t va moves) : memoryOk (s.saveDone t va moves) := by
  unfold State.saveDone
  grind [memoryOk_consume, memoryOk_saveFrame, memoryOk_setThread, memoryOk_mk]
@[simp] theorem memoryOk_restore (t va core phase idx) : memoryOk (s.restore t va core phase idx) := by
  unfold State.restore
  grind [memoryOk_tickFree, memoryOk_kill, memoryOk_setThread, memoryOk_freeFrame, memoryOk_modCluster]
@[simp] theorem memoryOk_receive (t r) : memoryOk (Thread.receive t s r).2 := by
  unfold Thread.receive
  grind [memoryOk_consume, memoryOk_writeResult, memoryOk_markEmpty]
@[simp] theorem memoryOk_State_deliver (t r) : memoryOk (s.deliver t r) := by
  unfold State.deliver
  split <;> simp [h]

/-! ### Notes at their homes (R244-R250, R261-R265) -/

@[simp] theorem memoryOk_wakeThread (t) : memoryOk (s.wakeThread t) := h
@[simp] theorem memoryOk_wakeFuture (hd tid) : memoryOk (s.wakeFuture hd tid) := by
  unfold State.wakeFuture
  grind [memoryOk_wakeThread]
@[simp] theorem memoryOk_abortPiece (cl ctx d p) : memoryOk (s.abortPiece cl ctx d p) := by
  unfold State.abortPiece
  grind [memoryOk_tickFree, memoryOk_modCluster, memoryOk_foldl]
@[simp] theorem memoryOk_discardHeld (cl hd) : memoryOk (s.discardHeld cl hd) := by
  unfold State.discardHeld
  grind [memoryOk_abortPiece, memoryOk_modCluster, memoryOk_dropHeld, memoryOk_foldl]
@[simp] theorem memoryOk_failNote (note kind cause v id ctx core) :
    memoryOk (s.failNote note kind cause v id ctx core) := by
  unfold State.failNote
  split <;> simp [h]
@[simp] theorem memoryOk_placeHeld (cl hd) : memoryOk (s.placeHeld cl hd) := by
  unfold State.placeHeld
  split <;> simp [h]
@[simp] theorem memoryOk_inputDone (cl hd n st) : memoryOk (s.inputDone cl hd n st) := by
  unfold State.inputDone
  grind [memoryOk_modCluster, memoryOk_placeHeld, memoryOk_failNote, memoryOk_discardHeld]
@[simp] theorem memoryOk_setNote (cl n) : memoryOk (s.setNote cl n) := h
@[simp] theorem memoryOk_freeNote (cl n advance) : memoryOk (s.freeNote cl n advance) := by
  unfold State.freeNote
  split <;> simp [h]
@[simp] theorem memoryOk_addWaiter (cl n w) : memoryOk (s.addWaiter cl n w) := by
  unfold State.addWaiter
  grind [memoryOk_setNote, memoryOk_poke]
@[simp] theorem every_allocNote (cl ctx task) : Every (memoryOk ·.2) (s.allocNote cl ctx task) := by
  unfold State.allocNote
  grind [memoryOk_tickFree, memoryOk_modCluster, memoryOk_poke, memoryOk_setNote, every_some, every_none]
@[simp] theorem memoryOk_tellProxy (n hd chip proxy ctx) : memoryOk (s.tellProxy n hd chip proxy ctx) := by
  simp [State.tellProxy, h]
@[simp] theorem memoryOk_wakeWaiters (hd n) : memoryOk (s.wakeWaiters hd n) := by
  unfold State.wakeWaiters
  grind [memoryOk_wakeFuture, memoryOk_tellProxy, memoryOk_inputDone, memoryOk_foldl]
@[simp] theorem memoryOk_cancelTask (task) : memoryOk (s.cancelTask task) := by
  unfold State.cancelTask
  grind [memoryOk_frameWrite, memoryOk_setThread, memoryOk_killCancelled, memoryOk_discardHeld]
@[simp] theorem memoryOk_transition (cl hd n st cause v) : memoryOk (s.transition cl hd n st cause v) := by
  unfold State.transition
  grind [memoryOk_wakeWaiters, memoryOk_setNote, memoryOk_freeNote]
@[simp] theorem memoryOk_performNote (ctx hd kind cause v) : memoryOk (s.performNote ctx hd kind cause v).1 := by
  unfold State.performNote
  grind [memoryOk_setNote, memoryOk_cancelTask, memoryOk_transition, memoryOk_freeNote]
@[simp] theorem memoryOk_answerNote (tid hd r) : memoryOk (s.answerNote tid hd r) := h
@[simp] theorem memoryOk_answerTouch (tid hd r) : memoryOk (s.answerTouch tid hd r) := by
  unfold State.answerTouch
  split <;> simp [h]
@[simp] theorem memoryOk_proxyReply (o n) : memoryOk (s.proxyReply o n) := by
  unfold State.proxyReply
  split <;> simp [h]
@[simp] theorem memoryOk_touchNote (o) : memoryOk (s.touchNote o) := by
  unfold State.touchNote
  grind [memoryOk_proxyReply, memoryOk_answerTouch, memoryOk_addWaiter, memoryOk_modThread]
@[simp] theorem memoryOk_noteArrives (o) : memoryOk (s.noteArrives o) := by
  unfold State.noteArrives
  grind [memoryOk_answerNote, memoryOk_sendFab, memoryOk_touchNote, memoryOk_performNote, memoryOk_report]
@[simp] theorem memoryOk_sendReleased : memoryOk s.sendReleased := by
  simp [State.sendReleased, h]
@[simp] theorem nextOk_execNoteOpArrive (index) : NextOk (execNoteOpArrive index s) := by
  unfold execNoteOpArrive
  grind [memoryOk_postEvent, memoryOk_noteArrives, memoryOk_mk, NextOk]

/-! ### Task and future instructions (R253-R268) -/

@[simp] theorem memoryOk_markTold (cl id) : memoryOk (s.markTold cl id) := h
@[simp] theorem memoryOk_registerInput (cl hd w) : memoryOk (s.registerInput cl hd w) := by
  unfold State.registerInput
  grind [memoryOk_failNote, memoryOk_discardHeld, memoryOk_inputDone, memoryOk_addWaiter, memoryOk_postEvent,
    memoryOk_markTold]
@[simp] theorem memoryOk_registerRecord (hd) : memoryOk (s.registerRecord hd) := by
  unfold State.registerRecord
  grind [memoryOk_registerInput, memoryOk_sendFab, memoryOk_foldl]
@[simp] theorem memoryOk_retryRecords : memoryOk s.retryRecords := by
  unfold State.retryRecords
  grind [memoryOk_registerInput, memoryOk_foldl]
@[simp] theorem memoryOk_storeRecord (hd) : memoryOk (s.storeRecord hd) := by
  unfold State.storeRecord
  split <;> simp [h]
@[simp] theorem ok_spawnReply (t inl pd d ra r after) : Spawned.Ok (spawnReply t s inl pd d ra r after) := by
  unfold spawnReply
  grind [memoryOk_takeTid, every_allocNote, memoryOk_bill, memoryOk_modCore, memoryOk_tickFree, memoryOk_transition,
    memoryOk_start, memoryOk_storeRecord, memoryOk_freeNote, Spawned.Ok, every_some]
@[simp] theorem memoryOk_startInline (t child) : memoryOk (s.startInline t child) := by
  unfold State.startInline
  grind [memoryOk_setThread, memoryOk_modJob, memoryOk_setEngine, memoryOk_saveDone, memoryOk_start]
@[simp] theorem nextOk_execSpawn (o) : NextOk (execSpawn o s) := by
  unfold execSpawn
  grind [nextOk_issue, memoryOk_payFor, doneOk_atSync, doneOk_waitFor, DoneOk]
@[simp] theorem doneOk_withHandle (t hd k) (hk : ∀ u s', memoryOk s' → DoneOk (k u s')) : DoneOk (withHandle t s hd k) := by
  simp [withHandle, h, hk]
@[simp] theorem doneOk_touchOp (o p t) : DoneOk (touchOp o p t s) := by
  unfold touchOp
  grind [doneOk_withHandle, doneOk_atSync, memoryOk_sendNote, DoneOk]
@[simp] theorem doneOk_transitionOp (o kind srcs t) : DoneOk (transitionOp o kind srcs t s) := by
  unfold transitionOp
  grind [doneOk_withHandle, doneOk_atSync, memoryOk_sendNote, memoryOk_consume, doneOk_waitFor, DoneOk]
@[simp] theorem nextOk_execFrel (o) : NextOk (execFrel o s) := by
  unfold execFrel
  grind [nextOk_issue, doneOk_withHandle, memoryOk_sendNote, memoryOk_consume, DoneOk]
@[simp] theorem nextOk_execFq (o) : NextOk (execFq o s) := by
  unfold execFq
  grind [nextOk_issue, doneOk_withHandle, doneOk_waitFor, DoneOk]
@[simp] theorem every_replyFq (t hd d) : Every (memoryOk ·.1) (replyFq t s hd d) := by
  simp [replyFq, h]
@[simp] theorem nextOk_execFnew (o) : NextOk (execFnew o s) := by
  unfold execFnew
  grind [nextOk_issue, doneOk_waitFor, DoneOk]
@[simp] theorem every_replyFnew (t pd d) : Every (memoryOk ·.1) (replyFnew t s pd d) := by
  unfold replyFnew
  grind [every_allocNote, every_some]
@[simp] theorem nextOk_execFtaskQ (o) : NextOk (execFtaskQ o s) := by
  unfold execFtaskQ
  grind [nextOk_issue, memoryOk_finish, DoneOk]
@[simp] theorem every_replyNote (hd pd r) : Every (memoryOk ·.1) (replyNote s hd pd r) := by
  unfold replyNote
  split <;> simp [h]
@[simp] theorem every_replyPostNote (t kind hd v after) : Every (memoryOk ·.1) (replyPostNote t s kind hd v after) := by
  simp [replyPostNote, h]
@[simp] theorem every_replyTouch (t p pd d hd r) : Every (memoryOk ·.1) (replyTouch t s p pd d hd r) := by
  unfold replyTouch
  split <;> simp [h]
@[simp] theorem memoryOk_failHeld (cl hd c va) : memoryOk (s.failHeld cl hd c va) := by
  simp [State.failHeld, h]
@[simp] theorem memoryOk_pieceFetched (cl id p cursor) : memoryOk (s.pieceFetched cl id p cursor) := h
@[simp] theorem every_fetchPiece (cl hd p) : Every memoryOk (s.fetchPiece cl hd p) := by
  unfold State.fetchPiece
  grind [ok_tilePieceAt, memoryOk_failHeld, memoryOk_pieceFetched, memoryOk_bill, memoryOk_placeHeld, TileFetch.Ok,
    every_some, every_none]
@[simp] theorem nextOk_execSubscriptionFetchDone (cl record sub) : NextOk (execSubscriptionFetchDone cl record sub s) := by
  unfold execSubscriptionFetchDone
  grind [every_fetchPiece, NextOk, every_some]

/-! ### Queues in global memory (R273-R290) -/

@[simp] theorem memoryOk_qsetAt (pa i v) : memoryOk (s.qsetAt pa i v) := by
  simp [State.qsetAt, h]
@[simp] theorem memoryOk_qset (ctx q i v) : memoryOk (s.qset ctx q i v) := by
  simp [State.qset, h]
@[simp] theorem memoryOk_qwake (pa d bits) : memoryOk (s.qwake pa d bits) := by
  simp [State.qwake, h]
@[simp] theorem memoryOk_qbad (ctx q pa d info1) : memoryOk (s.qbad ctx q pa d info1) := by
  simp [State.qbad, h]
@[simp] theorem memoryOk_askMap (ctx q) : memoryOk (s.askMap ctx q) := h
@[simp] theorem memoryOk_unregister (key tid) : memoryOk (s.unregister key tid) := h
@[simp] theorem memoryOk_holdNext (key free) : memoryOk (s.holdNext key free) := by
  unfold State.holdNext
  grind [memoryOk_wakeThread, memoryOk_mk]
@[simp] theorem memoryOk_grantUnits (key units n) : memoryOk (s.grantUnits key units n) := by
  induction n generalizing s with
  | zero => exact h
  | succ n ih => grind [State.grantUnits, memoryOk_holdNext]
@[simp] theorem memoryOk_grantKey (key units) : memoryOk (s.grantKey key units) := by
  simp [State.grantKey, h]
@[simp] theorem memoryOk_parkQueue (t key ext w) : memoryOk (s.parkQueue t key ext w) := by
  unfold State.parkQueue
  grind [memoryOk_repark, memoryOk_mk]
@[simp] theorem memoryOk_pollQueue (ctx q) : memoryOk (s.pollQueue ctx q) := by
  simp [State.pollQueue, h]
@[simp] theorem memoryOk_tailWriteAt (ctx q pa v) : memoryOk (s.tailWriteAt ctx q pa v) := by
  unfold State.tailWriteAt
  grind [memoryOk_qbad, memoryOk_qsetAt, memoryOk_pollQueue, memoryOk_qwake, memoryOk_askMap]
@[simp] theorem memoryOk_tailWrite (ctx q v) : memoryOk (s.tailWrite ctx q v) := by
  unfold State.tailWrite
  split <;> simp [h]
@[simp] theorem nextOk_execTailWrite (index) : NextOk (execTailWrite index s) := by
  unfold execTailWrite
  grind [memoryOk_tailWriteAt, memoryOk_tailWrite, memoryOk_mk, NextOk]
@[simp] theorem memoryOk_touchSlot (ctx q) : memoryOk (s.touchSlot ctx q) := h
@[simp] theorem nextOk_execQueueMap (ctx queue cl slot) : NextOk (execQueueMap ctx queue cl slot s) := by
  unfold execQueueMap
  grind [memoryOk_modJob, memoryOk_qbad, memoryOk_modCluster, memoryOk_qset, memoryOk_pollQueue, NextOk]
@[simp] theorem memoryOk_unmapQueue (ctx q) : memoryOk (s.unmapQueue ctx q) := by
  unfold State.unmapQueue
  grind [memoryOk_qset, memoryOk_modJob, memoryOk_wakeThread, memoryOk_mk, memoryOk_foldl]
@[simp] theorem nextOk_execQueueUnmap (ctx queue) : NextOk (execQueueUnmap ctx queue s) := by
  unfold execQueueUnmap
  split <;> simp [h]
@[simp] theorem memoryOk_lapse (w) : memoryOk (s.lapse w) := by
  unfold State.lapse
  grind [memoryOk_holdNext, memoryOk_mk]
@[simp] theorem nextOk_execHoldExpire (tid) : NextOk (execHoldExpire tid s) := by
  unfold execHoldExpire
  split <;> simp [h]
@[simp] theorem doneOk_queueOp (need q srcs p checked rest t) (hrest : ∀ x u s', memoryOk s' → DoneOk (rest x u s')) :
    DoneOk (queueOp need q srcs p checked rest t s) := by
  unfold queueOp
  grind [doneOk_waitFor, doneOk_pageWait, DoneOk]
@[simp] theorem nextOk_execQpush (o) : NextOk (execQpush o s) := by
  unfold execQpush
  grind [nextOk_issue, doneOk_queueOp, doneOk_atSync, doneOk_waitFor, DoneOk]
@[simp] theorem ok_replyQpush (t n pd d q pa num r ext ring after) :
    QueueReply.Ok (replyQpush t s n pd d q pa num r ext ring after) := by
  unfold replyQpush
  grind [memoryOk_unregister, memoryOk_qsetAt, memoryOk_bill, memoryOk_parkQueue, QueueReply.Ok]
@[simp] theorem ok_replyQput (t pd d q pa idx data slot) : QueueReply.Ok (replyQput t s pd d q pa idx data slot) := by
  unfold replyQput
  grind [memoryOk_homeCharge, memoryOk_poke, memoryOk_tailWriteAt, QueueReply.Ok]
@[simp] theorem nextOk_execQpop (o) : NextOk (execQpop o s) := by
  unfold execQpop
  grind [nextOk_issue, doneOk_queueOp, doneOk_atSync, doneOk_waitFor, DoneOk]
@[simp] theorem ok_replyQpop (t n pd d q pa r ext) : QueueReply.Ok (replyQpop t s n pd d q pa r ext) := by
  unfold replyQpop
  grind [memoryOk_askMap, memoryOk_qwake, memoryOk_parkQueue, memoryOk_unregister, memoryOk_modCore,
    memoryOk_dropCopies, memoryOk_touchSlot, memoryOk_qsetAt, memoryOk_bill, memoryOk_homeCharge, memoryOk_pollQueue,
    QueueReply.Ok]
@[simp] theorem memoryOk_postTail (t q v pa num) : memoryOk (s.postTail t q v pa num) := h
@[simp] theorem nextOk_execQtail (o) : NextOk (execQtail o s) := by
  unfold execQtail
  grind [nextOk_issue, doneOk_queueOp, doneOk_atSync, memoryOk_postTail, memoryOk_consume, doneOk_waitFor, DoneOk]
@[simp] theorem every_replyQtail (t q v pa num after) : Every (memoryOk ·.1) (replyQtail t s q v pa num after) := by
  simp [replyQtail, h]
@[simp] theorem every_placeRecord (ctx va r start) : Every memoryOk (s.placeRecord ctx va r start) := by
  unfold State.placeRecord
  grind [memoryOk_takeTid, memoryOk_start, memoryOk_storeRecord, every_some, every_none]
@[simp] theorem nextOk_execSpawnQueueConsume (ctx queue) : NextOk (execSpawnQueueConsume ctx queue s) := by
  unfold execSpawnQueueConsume
  split
  · split
    · exact nextOk_refused
    split
    · exact nextOk_refused
    split
    · exact nextOk_refused
    extract_lets x next
    have hnext {s'} (h' : memoryOk s') : memoryOk (next s') := memoryOk_touchSlot (memoryOk_qset h' _ _ _ _) _ _
    split
    · exact memoryOk_qbad (hnext h) _ _ _ _ _
    · split
      next s' hs => exact hnext ((every_placeRecord h _ _ _ _).of_eq hs)
      · exact nextOk_refused
  · exact nextOk_refused

/-! ### Channels of a pipeline (R291-R296) -/

@[simp] theorem memoryOk_modPipe (id f) : memoryOk (s.modPipe id f) := h
@[simp] theorem memoryOk_modChan (id n f) : memoryOk (s.modChan id n f) := h
@[simp] theorem nextOk_execChsend (o) : NextOk (execChsend o s) := by
  unfold execChsend
  grind [nextOk_issue, doneOk_atSync, doneOk_waitFor, DoneOk]
@[simp] theorem ok_replyChsend (t n pd ch r after) : QueueReply.Ok (replyChsend t s n pd ch r after) := by
  unfold replyChsend
  grind [memoryOk_unregister, memoryOk_modCluster, memoryOk_bill, memoryOk_modChan, memoryOk_parkQueue, QueueReply.Ok]
@[simp] theorem nextOk_execChrecv (o) : NextOk (execChrecv o s) := by
  unfold execChrecv
  grind [nextOk_issue, doneOk_atSync, doneOk_waitFor, DoneOk]
@[simp] theorem ok_replyChrecv (t n pd d ch r) : QueueReply.Ok (replyChrecv t s n pd d ch r) := by
  unfold replyChrecv
  grind [memoryOk_modChan, memoryOk_unregister, memoryOk_modCore, memoryOk_bill, memoryOk_dropCopies,
    memoryOk_parkQueue, QueueReply.Ok]
@[simp] theorem memoryOk_closeChan (t ch) : memoryOk (s.closeChan t ch) := by
  unfold State.closeChan
  split <;> simp [h]
@[simp] theorem nextOk_execChclose (o) : NextOk (execChclose o s) := by
  unfold execChclose
  grind [nextOk_issue, doneOk_atSync, memoryOk_closeChan, memoryOk_consume, doneOk_waitFor, DoneOk]
@[simp] theorem every_replyChclose (t ch after) : Every (memoryOk ·.1) (replyChclose t s ch after) := by
  simp [replyChclose, h]
@[simp] theorem nextOk_execChq (o) : NextOk (execChq o s) := by
  unfold execChq
  grind [nextOk_issue, doneOk_waitFor, DoneOk]
@[simp] theorem every_replyChq (t d ch) : Every (memoryOk ·.1) (replyChq t s d ch) := by
  unfold replyChq
  cases t.pipeline.bind fun p => s.chan? p ch <;> simp [h]
@[simp] theorem memoryOk_wakeKey (key) : memoryOk (s.wakeKey key) := by
  unfold State.wakeKey
  grind [memoryOk_wakeThread, memoryOk_foldl]
@[simp] theorem memoryOk_wakeChan (p c) : memoryOk (s.wakeChan p c) := by
  unfold State.wakeChan
  grind [memoryOk_wakeKey, memoryOk_grantKey]
@[simp] theorem memoryOk_wakeChans : memoryOk s.wakeChans := by
  unfold State.wakeChans
  grind [memoryOk_wakeChan, memoryOk_foldl]

/-! ### Pipelines, loaders and storers (R297-R301) -/

@[simp] theorem memoryOk_launchPipeline (ctx va) : memoryOk (s.launchPipeline ctx va) := by
  unfold State.launchPipeline
  split <;> simp [h]
@[simp] theorem memoryOk_placeTask (p g n rank at_) : memoryOk (s.placeTask p g n rank at_) := h
@[simp] theorem memoryOk_placeStage (p g) : memoryOk (s.placeStage p g) := by
  unfold State.placeStage
  grind [memoryOk_placeTask, memoryOk_foldl]
@[simp] theorem nextOk_execPipelinePlace (pipe) : NextOk (execPipelinePlace pipe s) := by
  unfold execPipelinePlace
  grind [memoryOk_placeStage, memoryOk_modPipe, NextOk, memoryOk_foldl]
@[simp] theorem memoryOk_reapPipelines : memoryOk s.reapPipelines := h
@[simp] theorem nextOk_execStageRelease (pipe stage) : NextOk (execStageRelease pipe stage s) := by
  unfold execStageRelease
  grind [memoryOk_modPipe, memoryOk_wakeChans, memoryOk_sendNote, memoryOk_reapPipelines, NextOk]
@[simp] theorem nextOk_execLoaderTileStart (pipe chan) : NextOk (execLoaderTileStart pipe chan s) := by
  unfold execLoaderTileStart
  grind [memoryOk_modChan, NextOk]
omit h in
@[simp] theorem memoryOk_loadPieces (ctx pipe c ps a) (ha : memoryOk a.s) :
    memoryOk (State.loadPieces ctx pipe c ps a).s := by
  induction ps generalizing a with
  | nil => exact ha
  | cons p ps ih => grind [State.loadPieces, TileFetch.Ok, ok_tilePieceAt]
@[simp] theorem nextOk_execLoaderTileDone (pipe chan) : NextOk (execLoaderTileDone pipe chan s) := by
  unfold execLoaderTileDone
  grind [memoryOk_loadPieces, memoryOk_modJob, memoryOk_modChan, memoryOk_modCluster, NextOk]
@[simp] theorem nextOk_execStorerRecord (pipe chan) : NextOk (execStorerRecord pipe chan s) := by
  unfold execStorerRecord
  split <;> simp [h]
@[simp] theorem memoryOk_storeLines (v base lines) : memoryOk (s.storeLines v base lines) := by
  unfold State.storeLines
  grind [memoryOk_poke, memoryOk_foldl]
@[simp] theorem ok_storePiece (ctx who j p) : TileStored.Ok (s.storePiece ctx who j p) := by
  unfold State.storePiece
  grind [ok_checkRun, memoryOk_linesCost, memoryOk_storeLines, RunCheck.Ok, TileStored.Ok]
omit h in
@[simp] theorem memoryOk_storePieces (ctx pipe chan ps a) (ha : memoryOk a.s) :
    memoryOk (State.storePieces ctx pipe chan ps a).s := by
  induction ps generalizing a with
  | nil => exact ha
  | cons p ps ih => grind [State.storePieces, TileStored.Ok, ok_storePiece, memoryOk_report, memoryOk_deliverTo]
@[simp] theorem nextOk_execStorerRecordDone (pipe chan) : NextOk (execStorerRecordDone pipe chan s) := by
  unfold execStorerRecordDone
  grind [memoryOk_storePieces, memoryOk_bill, memoryOk_reapPipelines, memoryOk_modChan, NextOk]
@[simp] theorem memoryOk_streamFault (who page cause) : memoryOk (s.streamFault who page cause) := by
  unfold State.streamFault
  repeat' split
  all_goals simp [h]

/-! ### Row operations and the base dies (R377-R391) -/

@[simp] theorem memoryOk_stackEvent (type stack die count pa cap ctx) :
    memoryOk (s.stackEvent type stack die count pa cap ctx) := by
  simp [State.stackEvent, h]
@[simp] theorem memoryOk_ueEvent (pa ctx) : memoryOk (s.ueEvent pa ctx) := by
  simp [State.ueEvent, h]
@[simp] theorem memoryOk_addRow (core op) : memoryOk (s.addRow core op) := h
@[simp] theorem doneOk_mrowOp (o copy t) : DoneOk (mrowOp o copy t s) := by
  unfold mrowOp
  grind [doneOk_taking, memoryOk_finish, memoryOk_addRow, DoneOk]
@[simp] theorem doneOk_ownTimelineWait (w a detail tl issued t) : DoneOk (ownTimelineWait w a detail tl issued t s) := by
  unfold ownTimelineWait
  grind [doneOk_atSync, memoryOk_dropCopies, memoryOk_consume, DoneOk]
@[simp] theorem memoryOk_settleRows (tid) : memoryOk (s.settleRows tid) := h
@[simp] theorem memoryOk_dropRowOp (core id) : memoryOk (s.dropRowOp core id) := h
@[simp] theorem memoryOk_failRowOp (core r c va) : memoryOk (s.failRowOp core r c va) := by
  unfold State.failRowOp
  grind [memoryOk_dropRowOp, memoryOk_kill, memoryOk_report]
@[simp] theorem memoryOk_dropRange (pa n keep) : memoryOk (s.dropRange pa n keep) := h
@[simp] theorem memoryOk_copyBytes (dst src n ctx) : memoryOk (s.copyBytes dst src n ctx) :=
  memoryOk_foldl (fun _ _ h' => memoryOk_ueEvent h' _ _) (memoryOk_mem h (Memory.wf_write n dst _ h.1) _)
omit h in
/-- Byte writes one after another keep the canonical form. -/
theorem Memory.wf_writes {m : Mem} (hm : Memory.wf m = true) (l : List (Nat × Nat)) :
    Memory.wf (l.foldl (fun m e => Memory.write m e.1 1 e.2) m) = true := by
  induction l generalizing m with
  | nil => exact hm
  | cons e l ih => exact ih (Memory.wf_write _ _ _ hm)
/-- The bytes of a row that were written early are kept (R381). -/
theorem memoryOk_writes (l : List (Nat × Nat)) :
    memoryOk { s with mem := l.foldl (fun m e => Memory.write m e.1 1 e.2) s.mem } := ⟨Memory.wf_writes h.1 l, h.2⟩
@[simp] theorem memoryOk_performChunk (r k dst src) : memoryOk (s.performChunk r k dst src) := by
  unfold State.performChunk
  refine memoryOk_bill (memoryOk_dropRange (memoryOk_tickFree (memoryOk_writes ?_ _)) _ _ _) _ _ _
  split
  · exact memoryOk_mem h (Memory.wf_write 1024 _ _ h.1) _
  · exact memoryOk_ite h (memoryOk_copyBytes h _ _ _ _)
@[simp] theorem every_rowChunk (core r k) : Every memoryOk (s.rowChunk core r k) := by
  unfold State.rowChunk
  grind [ok_checkPiece, memoryOk_performChunk, memoryOk_settleRows, memoryOk_dropRowOp, memoryOk_modCore,
    memoryOk_failRowOp, Checked.Ok, every_some, every_none]
@[simp] theorem every_earlyRow (core id b) : Every memoryOk (earlyRow core id b s) := by
  unfold earlyRow
  dsimp only
  repeat' split
  all_goals simp [memoryOk_mem h (Memory.wf_write 1 _ _ h.1)]
@[simp] theorem nextOk_execRowChunkDone (core id chunk) : NextOk (execRowChunkDone core id chunk s) := by
  unfold execRowChunkDone
  grind [every_rowChunk, NextOk, every_some]
@[simp] theorem nextOk_execPostedWriteBufferDrain (stack) : NextOk (execPostedWriteBufferDrain stack s) := by
  unfold execPostedWriteBufferDrain
  grind [memoryOk_setStack, NextOk]
@[simp] theorem nextOk_execSelfRefreshExit (stack temp) : NextOk (execSelfRefreshExit stack temp s) := by
  unfold execSelfRefreshExit
  grind [memoryOk_setStack, memoryOk_stackEvent, NextOk]
@[simp] theorem nextOk_execStackStall (stack) : NextOk (execStackStall stack s) := by
  unfold execStackStall
  grind [memoryOk_stackEvent, memoryOk_setStack, NextOk]
@[simp] theorem nextOk_execPatrolScrub (line) : NextOk (execPatrolScrub line s) := by
  unfold execPatrolScrub
  split <;> simp [h]

/-! ### Bank attention (R398-R419) -/

@[simp] theorem nextOk_execAqPost (o) : NextOk (execAqPost o s) := by
  unfold execAqPost
  grind [nextOk_issue, memoryOk_payFor, doneOk_taking, doneOk_waitFor, DoneOk]
@[simp] theorem ok_replyAqPost (t d core x after) : QueueReply.Ok (replyAqPost t s d core x after) := by
  unfold replyAqPost
  grind [memoryOk_raiseFault, memoryOk_modThread, QueueReply.Ok, memoryOk_mk]
@[simp] theorem nextOk_execQueryHandover (query) : NextOk (execQueryHandover query s) := by
  unfold execQueryHandover
  split <;> simp [h]
@[simp] theorem memoryOk_scanRow (q g p) : memoryOk (s.scanRow q g p).1 := by
  unfold State.scanRow
  grind [memoryOk_ueEvent]
@[simp] theorem nextOk_execScanStep (query page) : NextOk (execScanStep query page s) := by
  unfold execScanStep
  grind [memoryOk_scanRow, memoryOk_mk, NextOk]
@[simp] theorem memoryOk_settleQueries (tid) : memoryOk (s.settleQueries tid) := h
@[simp] theorem every_earlyQuery (id b) : Every memoryOk (earlyQuery id b s) := by
  unfold earlyQuery
  split <;> simp [h]
@[simp] theorem nextOk_execQueryComplete (query) : NextOk (execQueryComplete query s) := by
  unfold execQueryComplete
  grind [memoryOk_modCore, memoryOk_bill, memoryOk_settleQueries, memoryOk_mk, NextOk]
@[simp] theorem doneOk_leaveWith (o first addr size v d dim t) : DoneOk (leaveWith o first addr size v d dim t s) := by
  simp [leaveWith, h]
@[simp] theorem nextOk_execAqMerge (o) : NextOk (execAqMerge o s) := by
  unfold execAqMerge
  grind [nextOk_issue, memoryOk_payFor, doneOk_leaveWith, DoneOk]
@[simp] theorem doneOk_aqNorm (o f bytes t) : DoneOk (aqNorm o f bytes t s) := by
  unfold aqNorm
  grind [memoryOk_payFor, doneOk_leaveWith, DoneOk]
@[simp] theorem every_replyAqBytes (core addr size v d dval due) :
    Every (memoryOk ·.1) (replyAqBytes s core addr size v d dval due) := by
  simp [replyAqBytes, h]

/-! ### Branches, jumps and predicates (R119-R124) -/

@[simp] theorem doneOk_branchOp (o cond t) : DoneOk (branchOp o cond t s) := by
  unfold branchOp
  split <;> simp [h]
@[simp] theorem doneOk_predBranch (o want t) : DoneOk (predBranch o want t s) := h
@[simp] theorem nextOk_execJr (o) : NextOk (execJr o s) := by
  unfold execJr
  grind [nextOk_issue, memoryOk_finish, DoneOk]
@[simp] theorem nextOk_execEcall (o) : NextOk (execEcall o s) := by
  unfold execEcall
  grind [nextOk_issue, DoneOk]

/-! ### Encoder streams and remote puts (R433-R438) -/

@[simp] theorem nextOk_execFabPut (o) : NextOk (execFabPut o s) := by
  unfold execFabPut
  grind [nextOk_issueLate, memoryOk_payFor, doneOk_taking, memoryOk_enqueue, memoryOk_consume, DoneOk]
@[simp] theorem memoryOk_setStream (k) : memoryOk (s.setStream k) := h
@[simp] theorem nextOk_execEncPost (o) : NextOk (execEncPost o s) := by
  unfold execEncPost
  grind [nextOk_issueLate, memoryOk_payFor, doneOk_taking, memoryOk_finish, memoryOk_setStream, DoneOk]
@[simp] theorem nextOk_execEncWait (o) : NextOk (execEncWait o s) := by
  unfold execEncWait
  grind [nextOk_issueLate, doneOk_atSync, memoryOk_dropCopies, memoryOk_consume, DoneOk]
@[simp] theorem nextOk_execEncTl (o) : NextOk (execEncTl o s) := by
  unfold execEncTl
  grind [nextOk_issueLate, doneOk_waitFor, DoneOk]
@[simp] theorem every_replyEncTl (t d n) : Every (memoryOk ·.1) (replyEncTl t s d n) := by
  unfold replyEncTl
  split <;> simp [h]
@[simp] theorem memoryOk_replyFrame (d n f) : memoryOk (replyFrame s d n f).1 := by
  unfold replyFrame
  split <;> simp [h]
@[simp] theorem ok_checkBuffer (ctx need who used vas) : BufferCheck.Ok (s.checkBuffer ctx need who used vas) := by
  induction vas with
  | nil => trivial
  | cons va vas ih => grind [State.checkBuffer, BufferCheck.Ok, Checked.Ok, ok_checkPiece]
@[simp] theorem ok_checkPlane (ctx who va width rows pitch) :
    BufferCheck.Ok (s.checkPlane ctx who va width rows pitch) := by
  simp [State.checkPlane, h]
omit h in
@[simp] theorem ok_firstCheck (fs) (hfs : ∀ f ∈ fs, BufferCheck.Ok (f ())) : BufferCheck.Ok (firstCheck fs) := by
  induction fs with
  | nil => trivial
  | cons f fs ih =>
    unfold firstCheck
    split
    · exact ih fun g hg => hfs g (.tail _ hg)
    · exact hfs f (.head _)
@[simp] theorem memoryOk_writeBits (ctx va n i) : memoryOk (s.writeBits ctx va n i) := by
  induction n generalizing s i with
  | zero => exact h
  | succ n ih => exact ih (memoryOk_jobWrite h _ _ _ _) _
@[simp] theorem memoryOk_endFrame (k f status n stat) : memoryOk (s.endFrame k f status n stat) := by
  unfold State.endFrame
  grind [memoryOk_tickFree, memoryOk_writeBits, memoryOk_jobWrite, memoryOk_setStream, memoryOk_sendNote]
@[simp] theorem nextOk_execFrameComplete (stream bytes) : NextOk (execFrameComplete stream bytes s) := by
  unfold execFrameComplete
  dsimp only
  repeat' split
  all_goals grind [NextOk, memoryOk_endFrame, ok_checkBuffer, ok_checkPlane, ok_firstCheck, BufferCheck.Ok]
@[simp] theorem memoryOk_encoderFault (stream status) : memoryOk (s.encoderFault stream status) := by
  unfold State.encoderFault
  grind [memoryOk_endFrame]

/-! ### Ownership of cores and clusters (R444-R448) -/

@[simp] theorem memoryOk_zeroRange (pa n) : memoryOk (s.zeroRange pa n) :=
  memoryOk_dropRange (memoryOk_mem h (Memory.wf_clear h.1 pa n) _) _ _ _
@[simp] theorem memoryOk_freeCluster (cl) : memoryOk (s.freeCluster cl) := by
  simp [State.freeCluster, h]
@[simp] theorem memoryOk_grant (g) : memoryOk (s.grant g) := by
  unfold State.grant
  grind [memoryOk_setCluster, memoryOk_zeroRange, memoryOk_setCore, memoryOk_foldl]
@[simp] theorem memoryOk_revoke (g) : memoryOk (s.revoke g) := by
  unfold State.revoke
  grind [memoryOk_setCore, memoryOk_freeCluster, memoryOk_foldl]
@[simp] theorem doneOk_ownOp (o grant t) : DoneOk (ownOp o grant t s) := by
  unfold ownOp
  grind [doneOk_waitFor, DoneOk]
@[simp] theorem nextOk_execOwnGrant (o) : NextOk (execOwnGrant o s) := by
  simp +contextual [execOwnGrant, h]
@[simp] theorem nextOk_execOwnRevoke (o) : NextOk (execOwnRevoke o s) := by
  simp +contextual [execOwnRevoke, h]
@[simp] theorem every_replyOwn (grant d rec) : Every (memoryOk ·.1) (replyOwn s grant d rec) := by
  unfold replyOwn
  grind [memoryOk_grant, memoryOk_revoke, every_some, every_none]
@[simp] theorem nextOk_execPinv (o) : NextOk (execPinv o s) := by
  unfold execPinv
  grind [nextOk_issueLate, doneOk_waitFor, DoneOk]
@[simp] theorem nextOk_execPzero (o) : NextOk (execPzero o s) := by
  unfold execPzero
  grind [nextOk_issueLate, doneOk_waitFor, DoneOk]
@[simp] theorem every_replyPzero (d pa len) : Every (memoryOk ·.1) (replyPzero s d pa len) := by
  simp [replyPzero, h]

/-! ### The end of a job (R271, R426, R427) -/

@[simp] theorem memoryOk_flushJob (ctx) : memoryOk (s.flushJob ctx) := by
  unfold State.flushJob
  grind [memoryOk_performStore, memoryOk_foldl]
@[simp] theorem memoryOk_dropJobWork (ctx) : memoryOk (s.dropJobWork ctx) := h
@[simp] theorem memoryOk_clearMaps (ctx) : memoryOk (s.clearMaps ctx) := by
  unfold State.clearMaps
  grind [memoryOk_qset, memoryOk_foldl]
@[simp] theorem memoryOk_disown (ctx) : memoryOk (s.disown ctx) := by
  unfold State.disown
  grind [memoryOk_freeCluster, memoryOk_mk, memoryOk_foldl]
@[simp] theorem memoryOk_endJob (ctx reason) : memoryOk (s.endJob ctx reason) := by
  unfold State.endJob
  grind [memoryOk_flushJob, memoryOk_report, memoryOk_clearMaps, memoryOk_forgetRaces, memoryOk_disown,
    memoryOk_dropJobWork, memoryOk_postEvent, memoryOk_mk, memoryOk_foldl]
@[simp] theorem memoryOk_frameUnread (ctx va) : memoryOk (s.frameUnread ctx va) := by
  simp [State.frameUnread, h]
@[simp] theorem nextOk_execLinkDown : NextOk (execLinkDown s) := by
  unfold execLinkDown
  grind [memoryOk_endJob, memoryOk_postEvent, NextOk, memoryOk_foldl]
@[simp] theorem nextOk_execArrayScrub (tile place addr) : NextOk (execArrayScrub tile place addr s) := by
  unfold execArrayScrub
  grind [memoryOk_endJob, memoryOk_setCluster, memoryOk_modCore, NextOk]

/-! ### Slots and instruction fetch (R113-R116) -/

@[simp] theorem memoryOk_pastDeadline (d) : memoryOk (s.pastDeadline d) := h
@[simp] theorem memoryOk_atSlot (t) : memoryOk (s.atSlot t) := h
@[simp] theorem memoryOk_cacheLine (unit pa) : memoryOk (s.cacheLine unit pa) := by
  simp [State.cacheLine, h]
@[simp] theorem every_fetchReply (t va) : Every memoryOk (s.fetchReply t va) := by
  unfold State.fetchReply
  grind [memoryOk_modThread, memoryOk_cacheLine, every_some, every_none]

/-! ### The tellers' scheduling (R117, R137-R149, R304-R306) -/

@[simp] theorem every_vacate (core phase level swap) : Every memoryOk (s.vacate core phase level swap) := by
  unfold State.vacate
  split <;> simp [h]
@[simp] theorem nextOk_execTellerLendPhase (core phase tid) : NextOk (execTellerLendPhase core phase tid s) := by
  unfold execTellerLendPhase
  grind [every_vacate, memoryOk_setThread, NextOk, every_some]
@[simp] theorem nextOk_execRecordDispatch (cl record core phase) : NextOk (execRecordDispatch cl record core phase s) := by
  unfold execRecordDispatch
  grind [memoryOk_start, memoryOk_dropHeld, NextOk]
@[simp] theorem nextOk_execTaskEvict (tid groups) : NextOk (execTaskEvict tid groups s) := by
  unfold execTaskEvict
  grind [every_evict, NextOk, every_some]
@[simp] theorem nextOk_execAffinityMigration (tid groups) : NextOk (execAffinityMigration tid groups s) := by
  unfold execAffinityMigration
  grind [every_evict, NextOk, every_some]
@[simp] theorem nextOk_execContextSaveDone (tid) : NextOk (execContextSaveDone tid s) := by
  unfold execContextSaveDone
  grind [memoryOk_saveDone, NextOk]
@[simp] theorem nextOk_execTaskRestore (tid core phase) : NextOk (execTaskRestore tid core phase s) := by
  unfold execTaskRestore
  grind [memoryOk_frameUnread, every_vacate, memoryOk_restore, NextOk, every_some]
@[simp] theorem nextOk_execTaskRestoreDone (tid) : NextOk (execTaskRestoreDone tid s) := by
  unfold execTaskRestoreDone
  grind [memoryOk_State_deliver, memoryOk_setThread, NextOk]
@[simp] theorem nextOk_execBudgetOverrun (tid) : NextOk (execBudgetOverrun tid s) := by
  unfold execBudgetOverrun
  grind [memoryOk_setThread, memoryOk_settle, NextOk]
@[simp] theorem nextOk_execWaitLimitExpiry (tid) : NextOk (execWaitLimitExpiry tid s) := by
  unfold execWaitLimitExpiry
  grind [memoryOk_pastDeadline, memoryOk_wakeThread, memoryOk_mk, NextOk]
@[simp] theorem every_sleepPlace (ctx) : Every (memoryOk ·.1) (s.sleepPlace ctx) := by
  unfold State.sleepPlace
  dsimp only
  repeat' split
  all_goals grind [every_some, every_none, Every.of_eq, every_evict, memoryOk_saveDone]
@[simp] theorem nextOk_execAllAsleep (ctx) : NextOk (execAllAsleep ctx s) := by
  unfold execAllAsleep
  grind [memoryOk_report, memoryOk_postEvent, memoryOk_modJob, every_sleepPlace, memoryOk_takeTid,
    memoryOk_dropCopies, memoryOk_seat, NextOk, every_some]
@[simp] theorem nextOk_execPriorityAge (who) : NextOk (execPriorityAge who s) := by
  unfold execPriorityAge
  grind [memoryOk_setThread, memoryOk_modCluster, NextOk]
@[simp] theorem nextOk_execPreemptionRequest (who) : NextOk (execPreemptionRequest who s) := by
  unfold execPreemptionRequest
  grind [memoryOk_setThread, NextOk]

/-! ### Contracts and the budget controller (R307-R318) -/

@[simp] theorem memoryOk_lowerRemain (before cl) : memoryOk (s.lowerRemain before cl) := by
  unfold State.lowerRemain
  split <;> simp [h]
@[simp] theorem memoryOk_submitContract (ctx va) : memoryOk (s.submitContract ctx va).1 := by
  unfold State.submitContract
  grind [memoryOk_jobWrite, memoryOk_takeTid, memoryOk_lowerRemain, memoryOk_modCluster]
@[simp] theorem memoryOk_withdrawContract (ctx va) : memoryOk (s.withdrawContract ctx va).1 := h
@[simp] theorem memoryOk_setContract (cl k) : memoryOk (s.setContract cl k) := h
@[simp] theorem memoryOk_countMiss (cl k) : memoryOk (s.countMiss cl k) := by
  simp [State.countMiss, h]
@[simp] theorem memoryOk_countOverrun (cl k) : memoryOk (s.countOverrun cl k) := by
  simp [State.countOverrun, h]
@[simp] theorem memoryOk_countSkip (cl k) : memoryOk (s.countSkip cl k) := by
  simp [State.countSkip, h]
@[simp] theorem memoryOk_reserve (cl k) : memoryOk (s.reserve cl k) := by
  unfold State.reserve
  grind [memoryOk_modThread, memoryOk_modCluster, memoryOk_setContract, memoryOk_foldl]
@[simp] theorem memoryOk_fillReserves : memoryOk s.fillReserves := by
  unfold State.fillReserves
  grind [memoryOk_setContract, memoryOk_foldl]
@[simp] theorem memoryOk_releaseTask (cl idx rank) : memoryOk (s.releaseTask cl idx rank) := by
  unfold State.releaseTask
  grind [memoryOk_takeTid, memoryOk_storeRecord, memoryOk_setContract]
@[simp] theorem memoryOk_newPeriod (cl k) : memoryOk (s.newPeriod cl k) := h
@[simp] theorem nextOk_execContractRelease (cl idx) : NextOk (execContractRelease cl idx s) := by
  unfold execContractRelease
  grind [memoryOk_lowerRemain, memoryOk_modCluster, memoryOk_newPeriod, memoryOk_setContract, memoryOk_countSkip,
    memoryOk_reserve, memoryOk_releaseTask, NextOk, memoryOk_foldl]
@[simp] theorem nextOk_execContractDeadline (cl idx) : NextOk (execContractDeadline cl idx s) := by
  unfold execContractDeadline
  grind [memoryOk_setContract, memoryOk_countMiss, NextOk]
@[simp] theorem nextOk_execContractBudgetExhausted (tid) : NextOk (execContractBudgetExhausted tid s) := by
  unfold execContractBudgetExhausted
  grind [memoryOk_countOverrun, memoryOk_setThread, NextOk]
@[simp] theorem memoryOk_throttle : memoryOk s.throttle := by
  unfold State.throttle
  split <;> simp [h]
@[simp] theorem memoryOk_unthrottle : memoryOk s.unthrottle := by
  unfold State.unthrottle
  split <;> simp [h]
@[simp] theorem nextOk_execPowerControlStep (watts) : NextOk (execPowerControlStep watts s) := by
  unfold execPowerControlStep
  split <;> simp [h]

/-! ### The host's side of a function (R421-R426) -/

@[simp] theorem nextOk_hostAccess (func act) (hact : ∀ s', memoryOk s' → NextOk (act s')) :
    NextOk (hostAccess func act s) := by
  unfold hostAccess
  split <;> simp [hact, h]
@[simp] theorem memoryOk_dropBar2 (n ctx va r reason) : memoryOk (s.dropBar2 n ctx va r reason) := by
  unfold State.dropBar2
  split <;> simp [h]
@[simp] theorem memoryOk_performBar2 (n lines r) : memoryOk (s.performBar2 n lines r) := by
  unfold State.performBar2
  grind [memoryOk_poke, memoryOk_linesCost, memoryOk_bill, memoryOk_setFunc, memoryOk_foldl]
@[simp] theorem every_headBar2 (n) : Every memoryOk (s.headBar2 n) := by
  unfold State.headBar2
  grind [memoryOk_setFunc, memoryOk_dropBar2, ok_checkRun, memoryOk_performBar2, RunCheck.Ok, memoryOk_mk, every_some,
    every_none]
@[simp] theorem memoryOk_pumpBar2 (n k) : memoryOk (s.pumpBar2 n k) := by
  induction k generalizing s with
  | zero => exact h
  | succ k ih => grind [State.pumpBar2, Every.of_eq, every_headBar2]
@[simp] theorem memoryOk_pumpHosts : memoryOk s.pumpHosts := by
  unfold State.pumpHosts
  grind [memoryOk_pumpBar2, memoryOk_foldl]
@[simp] theorem memoryOk_arriveBar2 (n r) : memoryOk (s.arriveBar2 n r) := by
  simp [State.arriveBar2, h]
@[simp] theorem memoryOk_failBar2 (n reason) : memoryOk (s.failBar2 n reason) := by
  unfold State.failBar2
  grind [memoryOk_dropBar2, memoryOk_setFunc]
@[simp] theorem nextOk_bar2Access (func off size mk) : NextOk (bar2Access func off size mk s) := by
  unfold bar2Access
  grind [nextOk_hostAccess, memoryOk_arriveBar2, memoryOk_tickFree, memoryOk_dropBar2, NextOk]
@[simp] theorem nextOk_execDoorbellWrite (func idx size val) : NextOk (execDoorbellWrite func idx size val s) := by
  unfold execDoorbellWrite
  grind [nextOk_hostAccess, memoryOk_postEvent, memoryOk_arriveBar2, NextOk]
@[simp] theorem nextOk_execRcfgWrite (func val) : NextOk (execRcfgWrite func val s) := by
  unfold execRcfgWrite
  grind [nextOk_hostAccess, memoryOk_pumpEvents, memoryOk_setFunc, NextOk]
@[simp] theorem nextOk_execEventRingReadWrite (func val) : NextOk (execEventRingReadWrite func val s) := by
  unfold execEventRingReadWrite
  grind [nextOk_hostAccess, memoryOk_pumpEvents, memoryOk_setFunc, NextOk]

/-! ### The fabric as its receiver (R429-R433) -/

@[simp] theorem memoryOk_dropFab (hd type reason) : memoryOk (s.dropFab hd type reason) := by
  simp [State.dropFab, h]
@[simp] theorem nextOk_deliverFab (hd type len fields body) (hbody : ∀ s', memoryOk s' → Every memoryOk (body s')) :
    NextOk (deliverFab hd type len fields body s) := by
  unfold deliverFab
  grind [memoryOk_dropFab, memoryOk_setPeer, NextOk, every_some]
@[simp] theorem nextOk_execAck (src seq) : NextOk (execAck src seq s) := by
  unfold execAck
  split <;> simp [h]
@[simp] theorem nextOk_execResolve (hd handle value cause kind want token) :
    NextOk (execResolve hd handle value cause kind want token s) := by
  refine nextOk_deliverFab h _ _ _ _ _ fun s' h' => every_some.2 ?_
  have hp := memoryOk_performNote h' hd.dctx handle (kindOfCode kind) (BitVec.ofNat 8 cause) value
  refine memoryOk_ite (memoryOk_sendFab hp _ _ _ _) ?_
  split
  · exact memoryOk_tickFree (memoryOk_report hp _ _ _ _ _ _)
  · exact hp
@[simp] theorem nextOk_execFabricTouch (hd handle proxy) : NextOk (execFabricTouch hd handle proxy s) := by
  refine nextOk_deliverFab h _ _ _ _ _ fun s' h' => every_some.2 ?_
  exact memoryOk_ite (memoryOk_sendNote h' _) (memoryOk_proxyReply h' _ _)
@[simp] theorem memoryOk_remoteInput (cl k handle state) : memoryOk (s.remoteInput cl k handle state) := by
  unfold State.remoteInput
  split <;> simp [h]
@[simp] theorem nextOk_execTouchReply (hd handle proxy state cause value) :
    NextOk (execTouchReply hd handle proxy state cause value s) := by
  refine nextOk_deliverFab h _ _ _ _ _ fun s' h' => ?_
  dsimp only
  split <;> simp [h']
@[simp] theorem memoryOk_pokeLines (data lines) : memoryOk (s.pokeLines data lines) := by
  unfold State.pokeLines
  grind [memoryOk_poke, memoryOk_foldl]
@[simp] theorem memoryOk_putFailed (hd number note status failva) :
    memoryOk (s.putFailed hd number note status failva) := by
  unfold State.putFailed
  split <;> simp [h]
@[simp] theorem memoryOk_putDone (hd number total plen note) : memoryOk (s.putDone hd number total plen note) := by
  unfold State.putDone
  grind [memoryOk_sendFab, memoryOk_sendNote, memoryOk_mk]
@[simp] theorem nextOk_execPut (hd dst number total plen note data) :
    NextOk (execPut hd dst number total plen note data s) := by
  have hfail (st va) : NextOk (deliverFab hd 0x06 (32 + plen)
      (decide (1 ≤ plen ∧ plen ≤ 4096) && decide (data < 256 ^ plen) && decide (dst < 2 ^ 64) && decide (total < 2 ^ 32))
      (fun s => some (s.putFailed hd number note st va)) s) :=
    nextOk_deliverFab h _ _ _ _ _ fun _ h' => every_some.2 (memoryOk_putFailed h' _ _ _ _ _)
  have hdrop := fun s' (h' : memoryOk s') => every_some (P := memoryOk).2 h'
  unfold execPut
  dsimp only
  split
  · split
    · split
      · exact nextOk_ite (hfail _ _) nextOk_refused
      · split
        · exact nextOk_refused
        next s' hs =>
          have hr := ok_checkRun h hd.dctx .write (.put hd.src hd.seq) (piecesOf dst plen 0)
          exact (hs ▸ hr : RunCheck.Ok (.page s'))
        · exact hfail _ _
        · refine nextOk_deliverFab h _ _ _ _ _ fun _ h' => every_ite every_none (every_some.2 ?_)
          exact memoryOk_putDone (memoryOk_bill (memoryOk_linesCost (memoryOk_pokeLines h' _ _) _ _) _ _ _) _ _ _ _ _
    · exact nextOk_deliverFab h _ _ _ _ _ hdrop
  · exact nextOk_deliverFab h _ _ _ _ _ hdrop
@[simp] theorem nextOk_execPutAck (hd number bytes status failva) :
    NextOk (execPutAck hd number bytes status failva s) := by
  refine nextOk_deliverFab h _ _ _ _ _ fun s' h' => ?_
  split <;> simp [h']
@[simp] theorem memoryOk_peerDown (p) : memoryOk (s.peerDown p) := by
  unfold State.peerDown
  grind [memoryOk_setPeer, memoryOk_postEvent, memoryOk_mk]
@[simp] theorem nextOk_execFabricRetransmit (chip seq) : NextOk (execFabricRetransmit chip seq s) := by
  unfold execFabricRetransmit
  grind [memoryOk_peerDown, memoryOk_setPeer, NextOk]
@[simp] theorem nextOk_execPortFail (port) : NextOk (execPortFail port s) := by
  unfold execPortFail
  grind [memoryOk_mk, NextOk]

/-! ### Start-up, the mailbox and updates (R449-R454) -/

@[simp] theorem memoryOk_answer (seq status body) : memoryOk (s.answer seq status body) := h
@[simp] theorem memoryOk_refuse (seq) : memoryOk (s.refuse seq) := h
@[simp] theorem nextOk_command (stage seq body) (hbody : ∀ s', memoryOk s' → memoryOk (body s')) :
    NextOk (command stage seq body s) := by
  unfold command
  grind [memoryOk_refuse, NextOk]
@[simp] theorem memoryOk_orRefuse (seq r) (hr : Every memoryOk r) : memoryOk (s.orRefuse seq r) := by
  unfold State.orRefuse
  grind [memoryOk_answer, memoryOk_refuse, every_some]
@[simp] theorem nextOk_execInfo (seq) : NextOk (execInfo seq s) := by
  unfold execInfo
  grind [nextOk_command, memoryOk_tickFree, memoryOk_answer]
@[simp] theorem nextOk_execAttest (seq nonce) : NextOk (execAttest seq nonce s) := by
  unfold execAttest
  grind [nextOk_command, memoryOk_refuse, memoryOk_tickFree, memoryOk_answer]
@[simp] theorem memoryOk_zeroAll : memoryOk s.zeroAll := ⟨rfl, h.2⟩
@[simp] theorem nextOk_execZero (seq) : NextOk (execZero seq s) :=
  nextOk_command h _ _ _ fun _ h' => memoryOk_orRefuse h' _ _ (every_guard (memoryOk_zeroAll h'))
@[simp] theorem nextOk_execImageStage (seq off bytes) : NextOk (execImageStage seq off bytes s) := by
  unfold execImageStage
  grind [nextOk_command, memoryOk_refuse, memoryOk_answer, memoryOk_mk]
@[simp] theorem memoryOk_startStages : memoryOk s.startStages := by
  simp [State.startStages, h]
@[simp] theorem memoryOk_resumeAll (q status) : memoryOk (s.resumeAll q status) := by
  unfold State.resumeAll
  grind [memoryOk_postEvent, memoryOk_answer, memoryOk_mk, memoryOk_foldl]
@[simp] theorem memoryOk_tryActivate : memoryOk s.tryActivate := by
  unfold State.tryActivate
  grind [memoryOk_resumeAll, memoryOk_startStages, memoryOk_mk]
@[simp] theorem nextOk_execImageActivate (seq timeout) : NextOk (execImageActivate seq timeout s) := by
  unfold execImageActivate
  grind [nextOk_command, memoryOk_answer, memoryOk_postEvent, memoryOk_tryActivate, memoryOk_mk, memoryOk_foldl]
@[simp] theorem nextOk_execQuiesceAck (seq func) : NextOk (execQuiesceAck seq func s) := by
  unfold execQuiesceAck
  grind [memoryOk_tryActivate, memoryOk_answer, memoryOk_refuse, memoryOk_mk, NextOk]
@[simp] theorem nextOk_execQuiesceTimeout : NextOk (execQuiesceTimeout s) := by
  unfold execQuiesceTimeout
  split <;> simp [h]
@[simp] theorem memoryOk_writeReportHeader (d) : memoryOk (s.writeReportHeader d) := by
  simp [State.writeReportHeader, h]
@[simp] theorem memoryOk_startRoot (d) : memoryOk (s.startRoot d) := h
@[simp] theorem nextOk_execLaunch (seq func d) : NextOk (execLaunch seq func d s) := by
  unfold execLaunch
  grind [nextOk_command, memoryOk_answer, memoryOk_grant, memoryOk_startRoot, memoryOk_writeReportHeader, memoryOk_mk,
    NextOk, memoryOk_foldl]
@[simp] theorem nextOk_execEnd (seq job) : NextOk (execEnd seq job s) :=
  nextOk_command h _ _ _ fun _ h' => memoryOk_orRefuse h' _ _ (every_guard (memoryOk_endJob h' _ _))
@[simp] theorem every_endAsleep (ctx) : Every memoryOk (s.endAsleep ctx) := by
  simp [State.endAsleep, h]
@[simp] theorem nextOk_execContract (seq job va) : NextOk (execContract seq job va s) := by
  unfold execContract
  grind [nextOk_command, memoryOk_refuse, memoryOk_submitContract, memoryOk_answer, NextOk]
@[simp] theorem nextOk_execContractWithdraw (seq job va) : NextOk (execContractWithdraw seq job va s) :=
  nextOk_command h _ _ _ fun _ h' => memoryOk_orRefuse h' _ _ (every_guard (memoryOk_withdrawContract h' _ _))
@[simp] theorem nextOk_execAperture (seq func ctx base) : NextOk (execAperture seq func ctx base s) :=
  nextOk_command h _ _ _ fun _ h' => memoryOk_orRefuse h' _ _ (every_guard (memoryOk_setFunc h' _))
@[simp] theorem nextOk_execDoorbell (seq func idx ctx va) : NextOk (execDoorbell seq func idx ctx va s) :=
  nextOk_command h _ _ _ fun _ h' => memoryOk_orRefuse h' _ _ (every_guard (memoryOk_setFunc h' _))
@[simp] theorem nextOk_execStream (seq func ctx d) : NextOk (execStream seq func ctx d s) := by
  unfold execStream
  grind [nextOk_command, memoryOk_refuse, memoryOk_answer, memoryOk_mk]
@[simp] theorem memoryOk_closeStream (n) : memoryOk (s.closeStream n) := h
@[simp] theorem nextOk_execStreamClose (seq func n) : NextOk (execStreamClose seq func n s) := by
  refine nextOk_command h _ _ _ fun _ h' => memoryOk_orRefuse h' _ _ ?_
  split
  · exact every_guard (memoryOk_closeStream h' _)
  · exact every_none
@[simp] theorem nextOk_execFabric (seq chip port) : NextOk (execFabric seq chip port s) :=
  nextOk_command h _ _ _ fun _ h' => memoryOk_orRefuse h' _ _ (every_guard (memoryOk_mk h'))
@[simp] theorem nextOk_execPeer (seq chip addr) : NextOk (execPeer seq chip addr s) :=
  nextOk_command h _ _ _ fun _ h' => memoryOk_orRefuse h' _ _ (every_guard (memoryOk_mk h'))
@[simp] theorem nextOk_execFabricGrant (seq job src sctx revoke) : NextOk (execFabricGrant seq job src sctx revoke s) :=
  nextOk_command h _ _ _ fun _ h' => memoryOk_orRefuse h' _ _ (every_ite every_none (every_some.2 (memoryOk_mk h')))
@[simp] theorem nextOk_execPipeline (seq job va) : NextOk (execPipeline seq job va s) :=
  nextOk_ite nextOk_refused
    (nextOk_command h _ _ _ fun _ h' => memoryOk_orRefuse h' _ _ (every_guard (memoryOk_launchPipeline h' _ _)))
/-- The package reset empties the HBM and leaves host memory (R449). -/
@[simp] theorem nextOk_execPackageReset : NextOk (execPackageReset s) := by
  unfold execPackageReset
  refine nextOk_next.2 (memoryOk_ite (memoryOk_startStages ?_) ?_) <;> exact ⟨rfl, h.2⟩
@[simp] theorem nextOk_execStackTrained (stack ok localsa) : NextOk (execStackTrained stack ok localsa s) := by
  unfold execStackTrained
  grind [memoryOk_setStack, memoryOk_mk, NextOk]

/-! ### Commands of the mailbox (R421, R452) -/

@[simp] theorem nextOk_badCommand (seq) : NextOk (badCommand seq s) := by
  simp +contextual [badCommand, h]
@[simp] theorem nextOk_jobCommand (seq fn op len) : NextOk (jobCommand seq fn op len s) := by
  unfold jobCommand
  split <;> simp [h]
@[simp] theorem nextOk_runCommand (seq) : NextOk (s.runCommand seq) := by
  unfold State.runCommand
  grind [nextOk_badCommand, nextOk_execInfo, nextOk_execAttest, nextOk_execZero, nextOk_execImageStage,
    nextOk_execImageActivate, nextOk_execQuiesceAck, nextOk_execLaunch, nextOk_execEnd, nextOk_jobCommand]
@[simp] theorem nextOk_execHostRegisterWrite (func off val) : NextOk (execHostRegisterWrite func off val s) := by
  unfold execHostRegisterWrite
  grind [nextOk_hostAccess, memoryOk_setFunc, nextOk_runCommand, memoryOk_mk, NextOk]

/-! ### Active messages (R164-R168) -/

@[simp] theorem memoryOk_sendOut (m) : memoryOk (s.sendOut m) := h
@[simp] theorem doneOk_sendMsg (o dst reply rest t) : DoneOk (sendMsg o dst reply rest t s) := by
  unfold sendMsg
  grind [doneOk_atSync, doneOk_taking, memoryOk_sendOut, memoryOk_consume, DoneOk]
@[simp] theorem memoryOk_replyTo (sender v) : memoryOk (s.replyTo sender v) := h
@[simp] theorem nextOk_execAmret (o) : NextOk (execAmret o s) := by
  unfold execAmret
  grind [nextOk_issue, memoryOk_dropThread, memoryOk_consume, memoryOk_replyTo, DoneOk]
@[simp] theorem nextOk_execAmsgArrive (core entry) : NextOk (execAmsgArrive core entry s) := by
  unfold execAmsgArrive
  grind [memoryOk_setCore, memoryOk_modCore, NextOk]
@[simp] theorem nextOk_execAmsgHandlerStart (core) : NextOk (execAmsgHandlerStart core s) := by
  unfold execAmsgHandlerStart
  grind [memoryOk_takeTid, memoryOk_modCore, memoryOk_mk, NextOk]
@[simp] theorem nextOk_execHandlerIssueLimit (tid) : NextOk (execHandlerIssueLimit tid s) := by
  unfold execHandlerIssueLimit
  grind [memoryOk_takeTrap, NextOk]

/-! ### Replies to threads out of the rotation (R136, R204, R456) -/

@[simp] theorem memoryOk_replyTileLoad (t ea size ext d) : memoryOk (replyTileLoad t s ea size ext d).1 := by
  unfold replyTileLoad
  split <;> simp [h]
@[simp] theorem memoryOk_replyTileStore (t ea size v) : memoryOk (replyTileStore t s ea size v).1 := by
  simp [replyTileStore, h]
omit h in
@[simp] theorem ok_ofOption (r) (hr : Every (memoryOk ·.1) r) : Answer.Ok (Answer.ofOption r) := by
  cases r
  · trivial
  · exact hr _ rfl
omit h in
@[simp] theorem ok_ofQueue (r) (hr : QueueReply.Ok r) : Answer.Ok (Answer.ofQueue r) := by
  cases r <;> exact hr
omit h in
@[simp] theorem ok_ofSpawn (r) (hr : Spawned.Ok r) : Answer.Ok (Answer.ofSpawn r) := by
  cases r <;> exact hr
@[simp] theorem ok_spillWait (p) : Answer.Ok (s.spillWait p) := by
  unfold State.spillWait
  grind [every_tellSpill, Answer.Ok, every_some]
@[simp] theorem ok_loadAnswer (t va pa size ext d chk num hit) :
    Answer.Ok (s.loadAnswer t va pa size ext d chk num hit) := by
  unfold State.loadAnswer
  grind [every_replyLoad, ok_spillWait, Answer.Ok, every_some]
@[simp] theorem ok_orderedAnswer (t op r va pa scope x y d chk after num win) :
    Answer.Ok (s.orderedAnswer t op r va pa scope x y d chk after num win) := by
  unfold State.orderedAnswer
  grind [ok_ofOption, every_replyOrdered, Answer.Ok]
@[simp] theorem ok_walkAnswer (t need va size num p) : Answer.Ok (s.walkAnswer t need va size num p) := by
  unfold State.walkAnswer
  grind [memoryOk_raiseFault, memoryOk_repark, memoryOk_cacheFill, memoryOk_frameWrite, memoryOk_setThread, Answer.Ok,
    memoryOk_mk]
@[simp] theorem memoryOk_startEntry (t x) : memoryOk (s.startEntry t x) := by
  unfold State.startEntry
  grind [memoryOk_enqueue, memoryOk_setThread, memoryOk_frameWrite]
@[simp] theorem ok_waitAt (t w) : Answer.Ok (s.waitAt t w) := by
  unfold State.waitAt
  grind [memoryOk_repark, Answer.Ok]
@[simp] theorem ok_feAnswer (t op d ea b) : Answer.Ok (s.feAnswer t op d ea b) := by
  unfold State.feAnswer
  grind [ok_waitAt, memoryOk_perform, memoryOk_bill, Answer.Ok]
@[simp] theorem ok_tagAnswer (t op d a) : Answer.Ok (s.tagAnswer t op d a) := by
  unfold State.tagAnswer
  grind [memoryOk_frameWrite, memoryOk_setThread, ok_waitAt, Answer.Ok]
@[simp] theorem memoryOk_arriveAt (t n) : memoryOk (s.arriveAt t n).1 := by
  simp [State.arriveAt, h]
@[simp] theorem ok_barAnswer (t n) : Answer.Ok (s.barAnswer t n) := by
  unfold State.barAnswer
  grind [memoryOk_arriveAt, ok_waitAt, memoryOk_consume, Answer.Ok]
@[simp] theorem ok_atOnce (t p) : Answer.Ok (s.atOnce t p) := by
  unfold State.atOnce
  grind [memoryOk_startEntry, memoryOk_sendOut, memoryOk_addRow, memoryOk_modThread, memoryOk_replyFrame,
    memoryOk_sendNote, Answer.Ok]
@[simp] theorem ok_answerFor (t p) : Answer.Ok (s.answerFor t p) := by
  unfold State.answerFor
  grind [ok_walkAnswer, every_fetchReply, ok_atOnce, ok_feAnswer, ok_tagAnswer, memoryOk_arriveAt, ok_barAnswer,
    memoryOk_dropCopies, memoryOk_replyTileLoad, memoryOk_replyTileStore, ok_loadAnswer, ok_ofOption, every_replyPost,
    every_replyStore, ok_orderedAnswer, every_replyFence, every_replyTlb, ok_ofSpawn, ok_spawnReply, every_replyNote,
    every_replyTouch, every_replyPostNote, every_replyFq, every_replyFnew, ok_ofQueue, ok_replyQpush, ok_replyQput,
    ok_replyQpop, every_replyQtail, ok_replyChsend, ok_replyChrecv, every_replyChclose, every_replyChq,
    every_replyEbind, every_replyDpmLoad, every_replyDpmFree, ok_replyAqPost, every_replyAqBytes, every_replyEncTl,
    every_replyOwn, every_replyPzero, Answer.Ok, every_some]
@[simp] theorem memoryOk_rearm (t) : memoryOk (s.rearm t) := h
@[simp] theorem memoryOk_keepReply (t r) : memoryOk (s.keepReply t r) := h
@[simp] theorem memoryOk_giveReply (tid r) : memoryOk (s.giveReply tid r) := by
  unfold State.giveReply
  grind [memoryOk_rearm, memoryOk_keepReply, memoryOk_frameWrite, memoryOk_State_deliver, memoryOk_setThread]
@[simp] theorem nextOk_execMemoryReply (tid) : NextOk (execMemoryReply tid s) := by
  unfold execMemoryReply
  split
  · exact nextOk_refused
  split
  · exact nextOk_refused
  split
  · exact nextOk_refused
  next t _ _ p _ _ =>
    have ha := ok_answerFor h t p
    grind [Answer.Ok, NextOk, memoryOk_giveReply, memoryOk_modThread, memoryOk_receive, memoryOk_startInline]
@[simp] theorem memoryOk_clearFences (w) : memoryOk (s.clearFences w) := by
  unfold State.clearFences
  grind [every_replyFence, memoryOk_keepReply, memoryOk_giveReply, every_some, memoryOk_foldl]
@[simp] theorem nextOk_execClearing (window) : NextOk (execClearing window s) := by
  unfold execClearing
  grind [memoryOk_clearFences, memoryOk_pastDeadline, memoryOk_mk, NextOk]
@[simp] theorem memoryOk_denyWaiter (page c who) : memoryOk (s.denyWaiter page c who) := by
  unfold State.denyWaiter
  grind [memoryOk_giveReply, memoryOk_wakeThread, memoryOk_failXfer, memoryOk_failRowOp, memoryOk_failHeld,
    memoryOk_streamFault, memoryOk_encoderFault, memoryOk_failBar2, memoryOk_setPeer]
@[simp] theorem memoryOk_retryWaiter (page who) : memoryOk (s.retryWaiter page who) := by
  unfold State.retryWaiter
  grind [memoryOk_wakeThread]
@[simp] theorem memoryOk_pumpAllFaults (ctx n) : memoryOk (s.pumpAllFaults ctx n) := by
  induction n generalizing s with
  | zero => exact h
  | succ n ih => exact ih (memoryOk_pumpFaults h _)
@[simp] theorem memoryOk_completeFault (f outcome) : memoryOk (s.completeFault f outcome) := by
  unfold State.completeFault
  grind [memoryOk_pumpAllFaults, memoryOk_jobWrite, memoryOk_retryWaiter, memoryOk_denyWaiter, memoryOk_mk,
    memoryOk_foldl]
@[simp] theorem nextOk_execFaultComplete (ctx page outcome) : NextOk (execFaultComplete ctx page outcome s) := by
  unfold execFaultComplete
  split <;> simp [h]

/-! ### Page migration and map-out (R392-R394) -/

/-- A page moves cell by cell (R392). -/
@[simp] theorem memoryOk_movePage (dst src n ctx) : memoryOk (s.movePage dst src n ctx) :=
  memoryOk_foldl (fun _ _ h' => memoryOk_ueEvent h' _ _) ⟨Memory.wf_cells (Memory.wf_clear h.1 _ _) _ _, h.2⟩
@[simp] theorem memoryOk_dropLines (pa n) : memoryOk (s.dropLines pa n) := h
@[simp] theorem memoryOk_retryRange (ctx lo hi n) : memoryOk (s.retryRange ctx lo hi n) := by
  induction n generalizing s with
  | zero => exact h
  | succ n ih => grind [State.retryRange, memoryOk_completeFault]
@[simp] theorem memoryOk_endMigration (m leaf) : memoryOk (s.endMigration m leaf) := by
  unfold State.endMigration
  grind [memoryOk_poke, memoryOk_retryRange, memoryOk_mk]
@[simp] theorem every_beginMigration (ctx va newPa) : Every memoryOk (s.beginMigration ctx va newPa) := by
  unfold State.beginMigration
  grind [memoryOk_tlbRemove, memoryOk_poke, memoryOk_mk, every_some, every_none]
@[simp] theorem every_finishMigration (m) : Every memoryOk (s.finishMigration m) := by
  unfold State.finishMigration
  grind [memoryOk_stackEvent, memoryOk_endMigration, memoryOk_dropLines, memoryOk_movePage, every_some, every_none]
@[simp] theorem nextOk_execPageMigrate (ctx va newPa) : NextOk (execPageMigrate ctx va newPa s) := by
  unfold execPageMigrate
  grind [every_finishMigration, every_beginMigration, NextOk, every_some]
@[simp] theorem nextOk_execDieMapOut (stack die) : NextOk (execDieMapOut stack die s) := by
  unfold execDieMapOut
  grind [memoryOk_setStack, memoryOk_stackEvent, NextOk]

/-! ### Scalar instructions (R52-R59, R96-R103) -/

@[simp] theorem doneOk_takeBody (o t) : DoneOk (takeBody o t s) := by
  unfold takeBody
  split <;> simp [h]
@[simp] theorem doneOk_putBody (o t) : DoneOk (putBody o t s) := by
  unfold putBody
  grind [memoryOk_writeResult, memoryOk_consume, DoneOk]
@[simp] theorem nextOk_execRclr (o) : NextOk (execRclr o s) := by
  unfold execRclr
  grind [nextOk_issue, memoryOk_markEmpty, DoneOk]
@[simp] theorem nextOk_execRful (o) : NextOk (execRful o s) := by
  unfold execRful
  grind [nextOk_issue, memoryOk_finish, DoneOk]
@[simp] theorem nextOk_execFmt (o) : NextOk (execFmt o s) := by
  simp +contextual [execFmt, h]

/-! ### Vector instructions (R105-R112) -/

@[simp] theorem doneOk_vecOp (o srcs f t) : DoneOk (vecOp o srcs f t s) := by
  unfold vecOp
  split <;> simp [h]
@[simp] theorem doneOk_maskOp (o f t) : DoneOk (maskOp o f t s) := by
  unfold maskOp
  split <;> simp [h]
@[simp] theorem doneOk_vecScalar (o srcs f t) : DoneOk (vecScalar o srcs f t s) := by
  unfold vecScalar
  split <;> simp [h]
@[simp] theorem nextOk_execKset (o) : NextOk (execKset o s) := by
  unfold execKset
  grind [nextOk_issue, memoryOk_finishWith, DoneOk]

/-! ### The meaning of every instruction -/

/-- Every instruction. An arm that only issues one of the shared bodies is unfolded here; the others have their lemmas above. -/
@[simp] theorem nextOk_exec (i) : NextOk (exec i s) := by
  unfold exec
  split <;> simp +contextual [h,
    execCsrr, execCsrx, execCsrs, execCsrc, execYield, execLdlB, execLdlH, execLdlW, execLdlD, execLdlBz, execLdlHz,
    execLdlWz, execLdlV, execLdcB, execLdcH, execLdcW, execLdcD, execLdcBz, execLdcHz, execLdcWz, execLdcV, execStlB,
    execStlH, execStlW, execStlD, execStlV, execStcB, execStcH, execStcW, execStcD, execStcV, execLdlFr, execLdlFe,
    execStlEf, execStlXf, execFelClr, execFelQ, execStlTf, execTagWany, execTagWall, execTagFfr, execLdgB, execLdgH,
    execLdgW, execLdgD, execLdgBz, execLdgHz, execLdgWz, execLdgV, execStgB, execStgH, execStgW, execStgD, execStgV,
    execLdgAcq, execLdgSc, execStgRel, execStgSc, execAmoSwap, execAmoAdd, execAmoAnd, execAmoOr, execAmoXor,
    execAmoMin, execAmoMax, execAmoMinz, execAmoMaxz, execAmoCas, execFenceAcq, execFenceRel, execFenceAr,
    execFenceSc, execRcptQ, execL1CopyExpire, execXput, execXget, execXgath, execXscat, execTld, execTst, execTzero,
    execAzero, execMma, execMmac, execMdrain, execTouch, execTouchP, execFres, execFresFirst, execFpois, execFcan,
    execFcanq, execQueueSlotPoll, execMrowZero, execMrowCopy, execMrowWait, execMrowTl, execMrowIss, execBankRefresh,
    execSelfRefreshEntry, execCeThresh, execAqNorm, execAqNormB, execAqWait, execAqTl, execAqIss, execBeq, execBne,
    execBlt, execBge, execBltz, execBp, execBnp, execJal, execPnez, execPeq, execPlt, execPltz, execPand, execPor,
    execPxor, execPnot, execPget, execBrk, execEret, execFlitRetry, execBar2Read, execBar2Write, execBar2Fetchadd,
    execResolveReply, execTail, execClusterRelease, execAmsg, execAmsgN, execAdd, execSub, execAnd, execOr, execXor,
    execAndn, execSll, execSrl, execSra, execRor, execSlt, execSltz, execSeq, execMin, execMax, execMinz, execMaxz,
    execAdds, execSubs, execClz, execCtz, execPopc, execBswap, execSxb, execSxh, execSxw, execZxw, execMvt, execMvp,
    execAddi, execAndi, execAndiz, execOri, execOriz, execXori, execXoriz, execSlli, execSrli, execSrai, execRori,
    execSlti, execSltiz, execSeqi, execShlim, execAddpc, execMul, execMulh, execMulhz, execDiv, execDivz, execRem,
    execRemz, execVadd, execVsub, execVmul, execVmulh, execVand, execVor, execVxor, execVsll, execVsrl, execVsra,
    execVmin, execVmax, execVclt, execVceq, execVfadd, execVfsub, execVfmul, execVfma, execVfmax, execVfmin,
    execVfclt, execVfceq, execVbcast, execVext, execVins, execVrot, execVperm, execVredadd, execVredmax, execKget,
    execVcvt, execVexp2, execVrcp, execVrsq, execVgelu]

/-! ### What follows from a step (R135, R286, R422) -/

@[simp] theorem memoryOk_tryWake (tid) : memoryOk (s.tryWake tid) := by
  unfold State.tryWake
  grind [memoryOk_wakeThread]
@[simp] theorem memoryOk_grantQueues : memoryOk s.grantQueues := by
  unfold State.grantQueues
  grind [memoryOk_grantKey, memoryOk_foldl]
@[simp] theorem memoryOk_follow : memoryOk s.follow := by
  refine memoryOk_tryActivate (memoryOk_pumpHosts (memoryOk_fillReserves (memoryOk_wakeChans (memoryOk_grantQueues ?_))))
  refine memoryOk_foldl (fun _ _ h' => memoryOk_tryWake h' _) ?_
  exact memoryOk_retryRecords (memoryOk_sendReleased (memoryOk_advanceWaits h))

/-! ### Choices and events -/

@[simp] theorem nextOk_runWord (w) : NextOk (runWord w s) := by
  unfold runWord
  repeat' split
  all_goals simp [h]
@[simp] theorem nextOk_takeSlot (t) : NextOk (takeSlot t s) := by
  unfold takeSlot
  grind [memoryOk_atSlot, nextOk_execBudgetOverrun, memoryOk_takeTrap, nextOk_runWord, nextOk_execFetchFault,
    memoryOk_settle, memoryOk_raiseFault, memoryOk_mk, NextOk]
@[simp] theorem memoryOk_upsetHbm (pa) : memoryOk (s.upsetHbm pa) := by
  simp [State.upsetHbm, h]
@[simp] theorem memoryOk_upsetSpad (core addr) : memoryOk (s.upsetSpad core addr) := by
  simp [State.upsetSpad, h]
@[simp] theorem memoryOk_dropFetched (unit line) : memoryOk (s.dropFetched unit line) := h
@[simp] theorem memoryOk_setAlimMax (stack v) : memoryOk (s.setAlimMax stack v) := h
@[simp] theorem memoryOk_countCorrected (tile place) : memoryOk (s.countCorrected tile place) := by
  simp [State.countCorrected, h]
omit h in
@[simp] theorem nextOk_chosen (r) (hr : Every memoryOk r) : NextOk (chosen r) := by
  cases r
  · trivial
  · exact hr _ rfl
@[simp] theorem nextOk_choose (c) : NextOk (choose c s) := by
  unfold choose
  split
  case h_4 core id b => exact nextOk_chosen _ (every_bind fun x => every_earlyByte h x b)
  all_goals repeat' split
  all_goals simp [h]
omit h in
@[simp] theorem every_firstEvent (fs) {u : State} (hfs : ∀ f ∈ fs, NextOk (f u)) : Every NextOk (firstEvent fs u) := by
  induction fs with
  | nil => exact every_none
  | cons f fs ih =>
    unfold firstEvent
    split
    · exact ih fun g hg => hfs g (.tail _ hg)
    · exact every_some.2 (hfs f (.head _))
theorem nextOk_threadEvents (u : State) : ∀ f ∈ u.threadEvents, NextOk (f s) := by
  simp only [State.threadEvents, List.forall_mem_append, List.forall_mem_map, List.forall_mem_flatMap]
  simp [h]
theorem nextOk_placeEvents (u : State) : ∀ f ∈ u.placeEvents, NextOk (f s) := by
  have hdispatch (k : Cluster) (hd : Held) : ∀ f ∈ (match u.storePlace hd.ctx hd.r hd.hint with
      | some (c, p) => [execRecordDispatch k.id hd.id c p]
      | none => []), NextOk (f s) := by
    split <;> simp [h]
  simp only [State.placeEvents, List.forall_mem_append, List.forall_mem_map, List.forall_mem_flatMap]
  simp [h]
  exact fun k _ hd _ => hdispatch k hd
theorem nextOk_jobEvents (u : State) : ∀ f ∈ u.jobEvents, NextOk (f s) := by
  simp only [State.jobEvents, List.forall_mem_append, List.forall_mem_map, List.forall_mem_flatMap]
  simp [h]
theorem nextOk_placingEvents (u : State) : ∀ f ∈ u.placingEvents, NextOk (f s) := by
  simp only [State.placingEvents, List.forall_mem_flatMap]
  intro t _
  split
  · split
    · simp [h]
    · simp only [List.forall_mem_flatMap, List.forall_mem_map]
      simp [h]
  · simp [h]
theorem nextOk_tellerEvents (u : State) : ∀ f ∈ u.tellerEvents, NextOk (f s) := by
  simp only [State.tellerEvents, List.forall_mem_append, List.forall_mem_map, List.forall_mem_flatMap]
  simp [h]
theorem nextOk_timedEvents (u : State) : ∀ f ∈ u.timedEvents, NextOk (f s) := by
  simp only [State.timedEvents, List.forall_mem_append, List.forall_mem_map]
  simp [h]

@[simp] theorem nextOk_idleStep : NextOk (idleStep s) := by
  have hevents : Every NextOk (firstEvent (s.threadEvents ++ s.placeEvents ++ s.jobEvents ++ s.placingEvents
      ++ s.tellerEvents ++ s.timedEvents) s) := by
    refine every_firstEvent _ ?_
    simp only [List.forall_mem_append]
    exact ⟨⟨⟨⟨⟨nextOk_threadEvents h s, nextOk_placeEvents h s⟩, nextOk_jobEvents h s⟩, nextOk_placingEvents h s⟩,
      nextOk_tellerEvents h s⟩, nextOk_timedEvents h s⟩
  unfold idleStep
  split
  · exact nextOk_execPackageReset h
  split
  next r hr => exact hevents.of_eq hr
  split
  · exact nextOk_takeSlot h _
  · exact memoryOk_mk h
@[simp] theorem nextOk_stepBody : NextOk (stepBody s) := by
  unfold stepBody
  split <;> simp [h]

/-! ### One step -/

@[simp] theorem nextOk_step : NextOk (step s) := by
  unfold step
  grind [nextOk_stepBody, memoryOk_follow, NextOk]

end

/-! ### At reset -/

/-- A stack after package reset is the absent one of its number (R371, R375): the list holds each stack as its number's, and one
that it does not hold reads so too. -/
theorem reset_stack (n : Nat) : State.reset.stack n = Stack.reset n := by
  have hhbm : State.reset.hbm = (List.range 12).map Stack.reset := rfl
  unfold State.stack
  cases hfind : State.reset.hbm.find? fun k => k.n == n with
  | none => rfl
  | some k =>
    have hnum := List.find?_some hfind
    have hmem := List.mem_of_find?_eq_some hfind
    rw [hhbm] at hmem
    obtain ⟨m, -, rfl⟩ := List.mem_map.1 hmem
    exact congrArg Stack.reset (eq_of_beq hnum)

/-- No core is listed at reset, so each is unowned (R449). -/
theorem reset_core (n : Nat) : State.reset.core n = Core.blank n := rfl

end Sys2Proof.Machine

namespace Sys2Proof.Proofs

open Sys2Proof.Machine

/-- Settles O60, from `nextOk_step`: whatever `step` answers as the next state has its memories in canonical form. -/
theorem stepKeepsMemory : Obligations.StepKeepsMemory := by
  unfold Obligations.StepKeepsMemory
  intro s s' h hs
  have hn : NextOk (step s) := nextOk_step h
  rw [hs] at hn
  exact hn

/-- Settles O59: the fields as they are written in `State.reset`, its stacks and cores by `reset_stack` and `reset_core`, and its
memories by `State.reset_wf`. -/
theorem resetState : Obligations.ResetState := by
  unfold Obligations.ResetState
  have hstack (n : Nat) (_ : n < 12) : (State.reset.stack n).state = 0 ∧ (State.reset.stack n).alim = 49152 := by
    rw [reset_stack n]
    exact ⟨rfl, rfl⟩
  have hcore (n : Nat) (_ : n < 2048) : (State.reset.core n).owner = none := by
    rw [reset_core n]
    rfl
  exact ⟨rfl, rfl, rfl, rfl, rfl, rfl, rfl, rfl, rfl, rfl, rfl, rfl, rfl, rfl, rfl, rfl, hstack, hcore, State.reset_wf⟩

end Sys2Proof.Proofs
end

section
/-! PROOFS. Decoding a floating-point element and rounding the value back (R20-R26), for every format: the bits of an element are its
sign, exponent and fraction, so the rounding of a decoded value is exact and puts them together again. -/

namespace Sys2Proof.Machine

/-! ### An element is its sign bit, exponent and fraction -/

/-- R20: the fields sign, exponent and fraction of an element make up all its bits. -/
theorem bits_eq_fields (f : FloatFmt) {x : Nat} (hx : x < 2 ^ (f.m + f.ebits + 1)) :
    x = f.signBit (x / 2 ^ (f.m + f.ebits) % 2 == 1) + (x / 2 ^ f.m % 2 ^ f.ebits * 2 ^ f.m + x % 2 ^ f.m) := by
  have hsign : f.signBit (x / 2 ^ (f.m + f.ebits) % 2 == 1) = 2 ^ (f.m + f.ebits) * (x / 2 ^ (f.m + f.ebits)) := by
    have hlt : x / 2 ^ (f.m + f.ebits) < 2 := Nat.div_lt_of_lt_mul (by rwa [Nat.pow_succ] at hx)
    unfold FloatFmt.signBit
    rcases Nat.le_one_iff_eq_zero_or_eq_one.1 (Nat.le_of_lt_succ hlt) with h | h <;> rw [h]
    · rfl
    · exact (Nat.mul_one _).symm
  calc x = 2 ^ (f.m + f.ebits) * (x / 2 ^ (f.m + f.ebits)) + x % (2 ^ f.m * 2 ^ f.ebits) := by
        rw [← Nat.pow_add]; exact (Nat.div_add_mod ..).symm
    _ = _ := by rw [hsign, Nat.mod_mul, Nat.mul_comm (2 ^ f.m), Nat.add_comm (x % 2 ^ f.m)]

/-- The bits of a decoded subnormal number or zero (R20, R21), of value m·2^e. -/
structure SubnormalBits (f : FloatFmt) (x : Nat) (neg : Bool) (m : Nat) (e : Int) : Prop where
  bits : x = f.signBit neg + m
  frac_lt : m < 2 ^ f.m
  exp_eq : e = 1 - (f.bias : Int) - f.m
  plus_zero : f.f8a = true → m = 0 → neg = false

/-- The bits of a decoded normal number (R20) of value (2^m + frac)·2^e, with the biased exponent `expo` and the fraction `frac`. -/
structure NormalBits (f : FloatFmt) (x : Nat) (neg : Bool) (expo frac : Nat) : Prop where
  bits : x = f.signBit neg + (expo * 2 ^ f.m + frac)
  frac_lt : frac < 2 ^ f.m
  expo_pos : 0 < expo
  expo_lt : expo < 2 ^ f.ebits
  not_reserved : f.f8a = false → expo ≠ 2 ^ f.ebits - 1

/-- What a finite element can be: a subnormal number or zero, or a normal number (R20, R21). -/
theorem decodeFloat_eq_fin {f : FloatFmt} {x : Nat} {neg : Bool} {m : Nat} {e : Int} (hx : x < 2 ^ (f.m + f.ebits + 1))
    (h : decodeFloat f x = .fin neg m e) :
    SubnormalBits f x neg m e ∨
      ∃ expo frac, NormalBits f x neg expo frac ∧ m = 2 ^ f.m + frac ∧ e = (expo : Int) - f.bias - f.m := by
  have hbits := bits_eq_fields f hx
  have hfrac : x % 2 ^ f.m < 2 ^ f.m := Nat.mod_lt _ (Nat.two_pow_pos _)
  have hexpo : x / 2 ^ f.m % 2 ^ f.ebits < 2 ^ f.ebits := Nat.mod_lt _ (Nat.two_pow_pos _)
  unfold decodeFloat at h
  dsimp only at h
  split at h
  · cases h
  next hnan =>
  split at h
  · split at h <;> cases h
  next hres =>
  split at h
  next hzero =>
    obtain ⟨rfl, rfl, rfl⟩ := Num.fin.inj h
    exact .inl ⟨by simpa [hzero] using hbits, hfrac, rfl, fun h8 hm => by simpa [h8, hzero, hm] using hnan⟩
  next hpos =>
    obtain ⟨rfl, rfl, rfl⟩ := Num.fin.inj h
    exact .inr ⟨_, _, ⟨hbits, hfrac, Nat.pos_of_ne_zero hpos, hexpo, fun h8 hr => hres (by simp [h8, hr])⟩, rfl, rfl⟩

/-- Only a format with infinities decodes one, and its bits are the infinity of its sign (R20, R21). -/
theorem decodeFloat_eq_inf {f : FloatFmt} {x : Nat} {neg : Bool} (hx : x < 2 ^ (f.m + f.ebits + 1))
    (h : decodeFloat f x = .inf neg) : f.f8a = false ∧ x = f.infBits neg := by
  have hbits := bits_eq_fields f hx
  unfold decodeFloat at h
  dsimp only at h
  split at h
  · cases h
  split at h
  next hres =>
    split at h
    next hzero =>
      obtain rfl := Num.inf.inj h
      obtain ⟨h8, hexpo⟩ : f.f8a = false ∧ x / 2 ^ f.m % 2 ^ f.ebits = 2 ^ f.ebits - 1 := by simpa using hres
      rw [hzero, hexpo] at hbits
      exact ⟨h8, by simpa [FloatFmt.infBits, h8] using hbits⟩
    · cases h
  · split at h <;> cases h

/-! ### Rounding a value that the format has -/

/-- A value that is a multiple of the spacing already is not changed by rounding (R18). -/
theorem roundAt_self (rc : Nat) (neg : Bool) (m : Nat) (q : Int) : roundAt rc neg m q q = m := by simp [roundAt]

/-- A subnormal number or zero is rounded to its own bits (R21, R22, R24). -/
theorem roundFmt_of_subnormalBits {f : FloatFmt} {x : Nat} {neg : Bool} {m : Nat} {e : Int} (h : SubnormalBits f x neg m e)
    (rc : Nat) (sat : Bool) : roundFmt f rc sat (.fin neg m e) = x := by
  obtain ⟨rfl, hfrac, rfl, hplus⟩ := h
  by_cases hm : m = 0
  · subst hm
    cases h8 : f.f8a with
    | false => simp [roundFmt, h8]
    | true => simp [roundFmt, h8, hplus h8 rfl, FloatFmt.signBit]
  · have hlog : Nat.log2 m < f.m := (Nat.log2_lt hm).2 hfrac
    have hspacing : max ((Nat.log2 m : Int) + (1 - f.bias - f.m)) (1 - f.bias) - f.m = 1 - f.bias - f.m := by omega
    simp [roundFmt, hspacing, roundAt_self, hm, hfrac]

/-- A normal number's magnitude is at most the largest finite one (R20): F8A has all its exponents, the others reserve the last. -/
theorem NormalBits.le_maxBits {f : FloatFmt} {x : Nat} {neg : Bool} {expo frac : Nat} (h : NormalBits f x neg expo frac)
    (h8 : f.f8a = true → f.m + f.ebits = 7) : expo * 2 ^ f.m + frac ≤ f.maxBits := by
  have hlt {bound : Nat} (hb : expo < bound) : expo * 2 ^ f.m + frac < bound * 2 ^ f.m := by
    calc expo * 2 ^ f.m + frac < (expo + 1) * 2 ^ f.m := by rw [Nat.add_one_mul]; exact Nat.add_lt_add_left h.frac_lt _
      _ ≤ bound * 2 ^ f.m := Nat.mul_le_mul_right _ hb
  cases ha : f.f8a with
  | false =>
    have hb := hlt (Nat.lt_of_le_of_ne (Nat.le_sub_one_of_lt h.expo_lt) (h.not_reserved ha))
    simpa [FloatFmt.maxBits, ha] using Nat.le_sub_one_of_lt hb
  | true =>
    have hb := hlt h.expo_lt
    rw [← Nat.pow_add, Nat.add_comm f.ebits, h8 ha] at hb
    simpa [FloatFmt.maxBits, ha] using Nat.le_sub_one_of_lt hb

/-- A normal number is rounded to its own bits (R24). -/
theorem roundFmt_of_normalBits {f : FloatFmt} {x : Nat} {neg : Bool} {expo frac : Nat} (h : NormalBits f x neg expo frac)
    (h8 : f.f8a = true → f.m + f.ebits = 7) (rc : Nat) (sat : Bool) :
    roundFmt f rc sat (.fin neg (2 ^ f.m + frac) ((expo : Int) - f.bias - f.m)) = x := by
  have hmax := h.le_maxBits h8
  obtain ⟨rfl, hfrac, hpos, -, -⟩ := h
  have hne : 2 ^ f.m + frac ≠ 0 := Nat.ne_of_gt (Nat.add_pos_left (Nat.two_pow_pos _) _)
  have hlog : Nat.log2 (2 ^ f.m + frac) = f.m := (Nat.log2_eq_iff hne).2 ⟨Nat.le_add_right .., by rw [Nat.pow_succ]; omega⟩
  have hspacing : max ((f.m : Int) + (expo - f.bias - f.m)) (1 - f.bias) - f.m = expo - f.bias - f.m := by omega
  have hmant : 2 ^ f.m + frac < 2 ^ (f.m + 1) := by rw [Nat.pow_succ]; omega
  have htop : (f.m : Int) + (expo - f.bias - f.m) + f.bias = expo := by omega
  have hbody : (expo * (2 ^ f.m : Nat) + (2 ^ f.m + frac - 2 ^ f.m : Nat) : Int).toNat = expo * 2 ^ f.m + frac := by
    rw [Nat.add_sub_cancel_left]; exact Int.toNat_natCast (expo * 2 ^ f.m + frac)
  simp only [roundFmt, hlog, hspacing, roundAt_self, hne, hmant, htop, hbody, if_false, if_true, Nat.not_lt.2 hmax,
    Nat.not_lt.2 (Nat.le_add_right (2 ^ f.m) frac)]

/-- Rounding a decoded finite element gives its bits again, under every rounding code, with the sat bit and without (R20-R24). A format
with F8A's codes has to have F8A's width. -/
theorem roundFmt_decodeFloat_of_fin {f : FloatFmt} {x : Nat} {neg : Bool} {m : Nat} {e : Int} (hx : x < 2 ^ (f.m + f.ebits + 1))
    (h8 : f.f8a = true → f.m + f.ebits = 7) (h : decodeFloat f x = .fin neg m e) (rc : Nat) (sat : Bool) :
    roundFmt f rc sat (decodeFloat f x) = x := by
  rw [h]
  rcases decodeFloat_eq_fin hx h with hsub | ⟨expo, frac, hnorm, rfl, rfl⟩
  · exact roundFmt_of_subnormalBits hsub rc sat
  · exact roundFmt_of_normalBits hnorm h8 rc sat

end Sys2Proof.Machine

namespace Sys2Proof.Proofs

open Sys2Proof.Machine

/-- Settles O17: the finite elements by `roundFmt_decodeFloat_of_fin`, which holds of both formats' widths, the infinities by
`decodeFloat_eq_inf`, and a NaN by the canonical NaN of each format. -/
theorem roundKeepsF8 : Obligations.RoundKeepsF8 := by
  unfold Obligations.RoundKeepsF8
  intro f ff rc x hf hff _ hx
  have hwidth : ff.m + ff.ebits = 7 := by
    rcases hf with rfl | rfl <;> (obtain rfl := Option.some.inj hff; rfl)
  have hx' : x < 2 ^ (ff.m + ff.ebits + 1) := by rw [hwidth]; exact hx
  refine ⟨fun sat sign m e h => roundFmt_decodeFloat_of_fin hx' (fun _ => hwidth) h rc sat, fun sign h => ?_, fun sat h => ?_⟩
  · obtain ⟨h8, hbits⟩ := decodeFloat_eq_inf hx' h
    rw [h]
    rcases hf with rfl | rfl <;> obtain rfl := Option.some.inj hff
    · cases h8
    · exact ⟨rfl, hbits.symm, by cases sign <;> rfl⟩
  · rw [h]
    rcases hf with rfl | rfl <;> (obtain rfl := Option.some.inj hff; rfl)

end Sys2Proof.Proofs
end

section
/-! PROOFS. Instruction words (R43-R49): a word is made of its fields again, so decoding and encoding agree in both directions; the words
written out from their formats; and the opcodes that name no instruction. -/

namespace Sys2Proof

/-! ### A word is the word of its own fields (R43) -/

/-- Adjacent fields of a word are one field. -/
theorem bits_append (w : W32) {hi lo n m : Nat} (h : hi = lo + m) : bits w hi n ++ bits w lo m = bits w lo (n + m) :=
  BitVec.extractLsb'_append_extractLsb'_eq_extractLsb' h

/-- A bit kept as a Boolean is that bit. -/
theorem ofBool_beq_one (x : BitVec 1) : BitVec.ofBool (x == 1#1) = x := by
  revert x; decide

section

variable {w : W32}

theorem packR_fieldsR {op fn : BitVec 6} (hop : (bits w 26 6).toNat = op.toNat) (hfn : (bits w 0 6).toNat = fn.toNat) :
    packR op (fieldsR w) fn = w := by
  unfold packR fieldsR
  rw [← BitVec.eq_of_toNat_eq hop, ← BitVec.eq_of_toNat_eq hfn]
  iterate 5 rw [bits_append w (by rfl)]
  exact extract_all w

theorem packA_fieldsA {op : BitVec 6} {fn : BitVec 4} (hop : (bits w 26 6).toNat = op.toNat) (hfn : (bits w 2 4).toNat = fn.toNat) :
    packA op (fieldsA w) fn = w := by
  unfold packA fieldsA
  rw [← BitVec.eq_of_toNat_eq hop, ← BitVec.eq_of_toNat_eq hfn]
  iterate 6 rw [bits_append w (by rfl)]
  exact extract_all w

theorem packI_fieldsI {op : BitVec 6} {fn : BitVec 3} (hop : (bits w 26 6).toNat = op.toNat) (hfn : (bits w 11 3).toNat = fn.toNat) :
    packI op (fieldsI w) fn = w := by
  unfold packI fieldsI
  rw [← BitVec.eq_of_toNat_eq hop, ← BitVec.eq_of_toNat_eq hfn]
  iterate 4 rw [bits_append w (by rfl)]
  exact extract_all w

theorem packS_fieldsS {op : BitVec 6} {fn : BitVec 3} (hop : (bits w 26 6).toNat = op.toNat) (hfn : (bits w 11 3).toNat = fn.toNat) :
    packS op (fieldsS w) fn = w := by
  unfold packS fieldsS
  rw [← BitVec.eq_of_toNat_eq hop, ← BitVec.eq_of_toNat_eq hfn]
  iterate 4 rw [bits_append w (by rfl)]
  exact extract_all w

theorem packU_fieldsU {op : BitVec 6} (hop : (bits w 26 6).toNat = op.toNat) :
    packU op (fieldsU w) = w := by
  unfold packU fieldsU
  rw [← BitVec.eq_of_toNat_eq hop]
  iterate 2 rw [bits_append w (by rfl)]
  exact extract_all w

theorem packC_fieldsC {op : BitVec 6} {fn : BitVec 2} (hop : (bits w 26 6).toNat = op.toNat) (hfn : (bits w 12 2).toNat = fn.toNat) :
    packC op (fieldsC w) fn = w := by
  unfold packC fieldsC
  rw [← BitVec.eq_of_toNat_eq hop, ← BitVec.eq_of_toNat_eq hfn]
  iterate 4 rw [bits_append w (by rfl)]
  exact extract_all w

theorem packV_fieldsV {op : BitVec 6} {fn : BitVec 5} (hop : (bits w 26 6).toNat = op.toNat) (hfn : (bits w 0 5).toNat = fn.toNat) :
    packV op (fieldsV w) fn = w := by
  unfold packV fieldsV
  rw [← BitVec.eq_of_toNat_eq hop, ← BitVec.eq_of_toNat_eq hfn]
  iterate 5 rw [bits_append w (by rfl)]
  exact extract_all w

theorem packB_fieldsB {op : BitVec 6} (hop : (bits w 26 6).toNat = op.toNat) :
    packB op (fieldsB w) = w := by
  unfold packB fieldsB
  rw [← BitVec.eq_of_toNat_eq hop]
  iterate 3 rw [bits_append w (by rfl)]
  exact extract_all w

theorem packP_fieldsP {op : BitVec 6} {fn : BitVec 1} (hop : (bits w 26 6).toNat = op.toNat) (hfn : (bits w 22 1).toNat = fn.toNat) :
    packP op (fieldsP w) fn = w := by
  unfold packP fieldsP
  rw [← BitVec.eq_of_toNat_eq hop, ← BitVec.eq_of_toNat_eq hfn]
  iterate 5 rw [bits_append w (by rfl)]
  exact extract_all w

theorem packJ_fieldsJ {op : BitVec 6} (hop : (bits w 26 6).toNat = op.toNat) :
    packJ op (fieldsJ w) = w := by
  unfold packJ fieldsJ
  rw [← BitVec.eq_of_toNat_eq hop]
  iterate 2 rw [bits_append w (by rfl)]
  exact extract_all w

theorem packJr_fieldsJr {op : BitVec 6} (hop : (bits w 26 6).toNat = op.toNat) :
    packJr op (fieldsJr w) = w := by
  unfold packJr fieldsJr
  rw [← BitVec.eq_of_toNat_eq hop]
  iterate 3 rw [bits_append w (by rfl)]
  exact extract_all w

theorem packX_fieldsX {op : BitVec 6} {fn : BitVec 2} (hop : (bits w 26 6).toNat = op.toNat) (hfn : (bits w 24 2).toNat = fn.toNat) :
    packX op (fieldsX w) fn = w := by
  unfold packX fieldsX
  rw [← BitVec.eq_of_toNat_eq hop, ← BitVec.eq_of_toNat_eq hfn]
  iterate 5 rw [bits_append w (by rfl)]
  exact extract_all w

theorem packQ_fieldsQ {op : BitVec 6} {fn : BitVec 5} (hop : (bits w 26 6).toNat = op.toNat) (hfn : (bits w 3 5).toNat = fn.toNat) :
    packQ op (fieldsQ w) fn = w := by
  unfold packQ fieldsQ
  rw [← BitVec.eq_of_toNat_eq hop, ← BitVec.eq_of_toNat_eq hfn, ofBool_beq_one]
  iterate 6 rw [bits_append w (by rfl)]
  exact extract_all w

theorem packM_fieldsM {op : BitVec 6} {fn : BitVec 4} (hop : (bits w 26 6).toNat = op.toNat) (hfn : (bits w 22 4).toNat = fn.toNat) :
    packM op (fieldsM w) fn = w := by
  unfold packM fieldsM
  rw [← BitVec.eq_of_toNat_eq hop, ← BitVec.eq_of_toNat_eq hfn]
  iterate 7 rw [bits_append w (by rfl)]
  exact extract_all w

theorem packF_fieldsF {op : BitVec 6} (hop : (bits w 26 6).toNat = op.toNat) :
    packF op (fieldsF w) = w := by
  unfold packF fieldsF
  rw [← BitVec.eq_of_toNat_eq hop]
  iterate 6 rw [bits_append w (by rfl)]
  exact extract_all w

end

/-! ### A word that decodes is the word of its instruction (R43, R48) -/

/-- The word `w` stands for the instruction `i`. -/
def IsWordOf (i : Instr) (w : W32) : Prop := i.isWord = true ∧ i.encode = w

section

variable {w : W32} {i : Instr}

theorem isWordOf_of_decode01 (hop : (bits w 26 6).toNat = 0x01) (h : decode01 w = .ok i) : IsWordOf i w := by
  unfold decode01 at h
  split at h <;> cases h
  all_goals exact ⟨rfl, packR_fieldsR hop ‹_›⟩

theorem isWordOf_of_decode02 (hop : (bits w 26 6).toNat = 0x02) (h : decode02 w = .ok i) : IsWordOf i w := by
  unfold decode02 at h
  split at h <;> cases h
  all_goals exact ⟨rfl, packI_fieldsI hop ‹_›⟩

theorem isWordOf_of_decode03 (hop : (bits w 26 6).toNat = 0x03) (h : decode03 w = .ok i) : IsWordOf i w := by
  unfold decode03 at h
  split at h <;> cases h
  all_goals exact ⟨rfl, packI_fieldsI hop ‹_›⟩

theorem isWordOf_of_decode06 (hop : (bits w 26 6).toNat = 0x06) (h : decode06 w = .ok i) : IsWordOf i w := by
  unfold decode06 at h
  split at h <;> cases h
  all_goals exact ⟨rfl, packR_fieldsR hop ‹_›⟩

theorem isWordOf_of_decode07 (hop : (bits w 26 6).toNat = 0x07) (h : decode07 w = .ok i) : IsWordOf i w := by
  unfold decode07 at h
  split at h <;> cases h
  all_goals exact ⟨rfl, packC_fieldsC hop ‹_›⟩

theorem isWordOf_of_decode08 (hop : (bits w 26 6).toNat = 0x08) (h : decode08 w = .ok i) : IsWordOf i w := by
  unfold decode08 at h
  split at h <;> cases h
  all_goals exact ⟨rfl, packV_fieldsV hop ‹_›⟩

theorem isWordOf_of_decode09 (hop : (bits w 26 6).toNat = 0x09) (h : decode09 w = .ok i) : IsWordOf i w := by
  unfold decode09 at h
  split at h <;> cases h
  all_goals exact ⟨rfl, packV_fieldsV hop ‹_›⟩

theorem isWordOf_of_decode0A (hop : (bits w 26 6).toNat = 0x0A) (h : decode0A w = .ok i) : IsWordOf i w := by
  unfold decode0A at h
  split at h <;> cases h
  all_goals exact ⟨rfl, packV_fieldsV hop ‹_›⟩

theorem isWordOf_of_decode0B (hop : (bits w 26 6).toNat = 0x0B) (h : decode0B w = .ok i) : IsWordOf i w := by
  unfold decode0B at h
  split at h <;> cases h
  all_goals exact ⟨rfl, packV_fieldsV hop ‹_›⟩

theorem isWordOf_of_decode11 (hop : (bits w 26 6).toNat = 0x11) (h : decode11 w = .ok i) : IsWordOf i w := by
  unfold decode11 at h
  split at h <;> cases h
  all_goals exact ⟨rfl, packP_fieldsP hop ‹_›⟩

theorem isWordOf_of_decode14 (hop : (bits w 26 6).toNat = 0x14) (h : decode14 w = .ok i) : IsWordOf i w := by
  unfold decode14 at h
  split at h <;> cases h
  all_goals exact ⟨rfl, packR_fieldsR hop ‹_›⟩

theorem isWordOf_of_decode15 (hop : (bits w 26 6).toNat = 0x15) (h : decode15 w = .ok i) : IsWordOf i w := by
  unfold decode15 at h
  split at h <;> cases h
  all_goals exact ⟨rfl, packI_fieldsI hop ‹_›⟩

theorem isWordOf_of_decode16 (hop : (bits w 26 6).toNat = 0x16) (h : decode16 w = .ok i) : IsWordOf i w := by
  unfold decode16 at h
  split at h <;> cases h
  all_goals exact ⟨rfl, packS_fieldsS hop ‹_›⟩

theorem isWordOf_of_decode17 (hop : (bits w 26 6).toNat = 0x17) (h : decode17 w = .ok i) : IsWordOf i w := by
  unfold decode17 at h
  split at h <;> cases h
  all_goals exact ⟨rfl, packI_fieldsI hop ‹_›⟩

theorem isWordOf_of_decode18 (hop : (bits w 26 6).toNat = 0x18) (h : decode18 w = .ok i) : IsWordOf i w := by
  unfold decode18 at h
  split at h <;> cases h
  all_goals exact ⟨rfl, packS_fieldsS hop ‹_›⟩

theorem isWordOf_of_decode19 (hop : (bits w 26 6).toNat = 0x19) (h : decode19 w = .ok i) : IsWordOf i w := by
  unfold decode19 at h
  split at h <;> cases h
  all_goals exact ⟨rfl, packR_fieldsR hop ‹_›⟩

theorem isWordOf_of_decode1A (hop : (bits w 26 6).toNat = 0x1A) (h : decode1A w = .ok i) : IsWordOf i w := by
  unfold decode1A at h
  split at h <;> cases h
  all_goals exact ⟨rfl, packR_fieldsR hop ‹_›⟩

theorem isWordOf_of_decode1B (hop : (bits w 26 6).toNat = 0x1B) (h : decode1B w = .ok i) : IsWordOf i w := by
  unfold decode1B at h
  split at h <;> cases h
  all_goals exact ⟨rfl, packX_fieldsX hop ‹_›⟩

theorem isWordOf_of_decode1C (hop : (bits w 26 6).toNat = 0x1C) (h : decode1C w = .ok i) : IsWordOf i w := by
  unfold decode1C at h
  split at h <;> cases h
  all_goals exact ⟨rfl, packR_fieldsR hop ‹_›⟩

theorem isWordOf_of_decode1D (hop : (bits w 26 6).toNat = 0x1D) (h : decode1D w = .ok i) : IsWordOf i w := by
  unfold decode1D at h
  split at h <;> cases h
  all_goals exact ⟨rfl, packI_fieldsI hop ‹_›⟩

theorem isWordOf_of_decode1E (hop : (bits w 26 6).toNat = 0x1E) (h : decode1E w = .ok i) : IsWordOf i w := by
  unfold decode1E at h
  split at h <;> cases h
  all_goals exact ⟨rfl, packS_fieldsS hop ‹_›⟩

theorem isWordOf_of_decode1F (hop : (bits w 26 6).toNat = 0x1F) (h : decode1F w = .ok i) : IsWordOf i w := by
  unfold decode1F at h
  split at h
  case h_5 =>
    split at h <;> cases h
    all_goals exact ⟨rfl, packA_fieldsA hop ‹_›⟩
  all_goals cases h
  all_goals exact ⟨rfl, packR_fieldsR hop ‹_›⟩

theorem isWordOf_of_decode20 (hop : (bits w 26 6).toNat = 0x20) (h : decode20 w = .ok i) : IsWordOf i w := by
  unfold decode20 at h
  split at h <;> cases h
  all_goals exact ⟨rfl, packR_fieldsR hop ‹_›⟩

theorem isWordOf_of_decode21 (hop : (bits w 26 6).toNat = 0x21) (h : decode21 w = .ok i) : IsWordOf i w := by
  unfold decode21 at h
  split at h <;> cases h
  all_goals exact ⟨rfl, packQ_fieldsQ hop ‹_›⟩

theorem isWordOf_of_decode22 (hop : (bits w 26 6).toNat = 0x22) (h : decode22 w = .ok i) : IsWordOf i w := by
  unfold decode22 at h
  split at h <;> cases h
  all_goals exact ⟨rfl, packQ_fieldsQ hop ‹_›⟩

theorem isWordOf_of_decode23 (hop : (bits w 26 6).toNat = 0x23) (h : decode23 w = .ok i) : IsWordOf i w := by
  unfold decode23 at h
  split at h <;> cases h
  all_goals exact ⟨rfl, packM_fieldsM hop ‹_›⟩

theorem isWordOf_of_decode24 (hop : (bits w 26 6).toNat = 0x24) (h : decode24 w = .ok i) : IsWordOf i w := by
  unfold decode24 at h
  split at h <;> cases h
  all_goals exact ⟨rfl, packM_fieldsM hop ‹_›⟩

theorem isWordOf_of_decode25 (hop : (bits w 26 6).toNat = 0x25) (h : decode25 w = .ok i) : IsWordOf i w := by
  unfold decode25 at h
  split at h <;> cases h
  all_goals exact ⟨rfl, packR_fieldsR hop ‹_›⟩

theorem isWordOf_of_decode26 (hop : (bits w 26 6).toNat = 0x26) (h : decode26 w = .ok i) : IsWordOf i w := by
  unfold decode26 at h
  split at h <;> cases h
  all_goals exact ⟨rfl, packR_fieldsR hop ‹_›⟩

theorem isWordOf_of_decode27 (hop : (bits w 26 6).toNat = 0x27) (h : decode27 w = .ok i) : IsWordOf i w := by
  unfold decode27 at h
  split at h <;> cases h
  all_goals exact ⟨rfl, packR_fieldsR hop ‹_›⟩

theorem isWordOf_of_decode28 (hop : (bits w 26 6).toNat = 0x28) (h : decode28 w = .ok i) : IsWordOf i w := by
  unfold decode28 at h
  split at h <;> cases h
  all_goals exact ⟨rfl, packR_fieldsR hop ‹_›⟩

theorem isWordOf_of_decode29 (hop : (bits w 26 6).toNat = 0x29) (h : decode29 w = .ok i) : IsWordOf i w := by
  unfold decode29 at h
  split at h <;> cases h
  all_goals exact ⟨rfl, packR_fieldsR hop ‹_›⟩

theorem isWordOf_of_decodeMost (h : decodeMost w = .ok i) : IsWordOf i w := by
  unfold decodeMost at h
  split at h
  · cases h
  · cases h
  · exact isWordOf_of_decode01 ‹_› h
  · exact isWordOf_of_decode02 ‹_› h
  · exact isWordOf_of_decode03 ‹_› h
  · cases h; exact ⟨rfl, packU_fieldsU ‹_›⟩
  · cases h; exact ⟨rfl, packU_fieldsU ‹_›⟩
  · exact isWordOf_of_decode06 ‹_› h
  · exact isWordOf_of_decode07 ‹_› h
  · exact isWordOf_of_decode08 ‹_› h
  · exact isWordOf_of_decode09 ‹_› h
  · exact isWordOf_of_decode0A ‹_› h
  · exact isWordOf_of_decode0B ‹_› h
  · cases h; exact ⟨rfl, packB_fieldsB ‹_›⟩
  · cases h; exact ⟨rfl, packB_fieldsB ‹_›⟩
  · cases h; exact ⟨rfl, packB_fieldsB ‹_›⟩
  · cases h; exact ⟨rfl, packB_fieldsB ‹_›⟩
  · cases h; exact ⟨rfl, packB_fieldsB ‹_›⟩
  · exact isWordOf_of_decode11 ‹_› h
  · cases h; exact ⟨rfl, packJ_fieldsJ ‹_›⟩
  · cases h; exact ⟨rfl, packJr_fieldsJr ‹_›⟩
  · exact isWordOf_of_decode14 ‹_› h
  · exact isWordOf_of_decode15 ‹_› h
  · exact isWordOf_of_decode16 ‹_› h
  · exact isWordOf_of_decode17 ‹_› h
  · exact isWordOf_of_decode18 ‹_› h
  · exact isWordOf_of_decode19 ‹_› h
  · exact isWordOf_of_decode1A ‹_› h
  · exact isWordOf_of_decode1B ‹_› h
  · exact isWordOf_of_decode1C ‹_› h
  · exact isWordOf_of_decode1D ‹_› h
  · exact isWordOf_of_decode1E ‹_› h
  · exact isWordOf_of_decode1F ‹_› h
  · exact isWordOf_of_decode20 ‹_› h
  · exact isWordOf_of_decode21 ‹_› h
  · exact isWordOf_of_decode22 ‹_› h
  · exact isWordOf_of_decode23 ‹_› h
  · exact isWordOf_of_decode24 ‹_› h
  · exact isWordOf_of_decode25 ‹_› h
  · exact isWordOf_of_decode26 ‹_› h
  · exact isWordOf_of_decode27 ‹_› h
  · cases h

/-- No bit of a word that decodes is dropped (R43, R48). -/
theorem isWordOf_of_decode (h : decode w = .ok i) : IsWordOf i w := by
  unfold decode at h
  split at h
  · exact isWordOf_of_decode28 ‹_› h
  · exact isWordOf_of_decode29 ‹_› h
  · cases h; exact ⟨rfl, packF_fieldsF ‹_›⟩
  · exact isWordOf_of_decodeMost h

end

/-! ### The word of an instruction decodes to it (R43, R48) -/

open Laws.RoundTrip in
/-- Every instruction's word decodes to it, by its own lemma of Laws/PerInstr.lean; an event is no word. -/
theorem decode_encode {i : Instr} (h : i.isWord = true) : decode i.encode = .ok i := by
  cases i with
    | add o => exact add o h | sub o => exact sub o h | and_ o => exact and_ o h | or_ o => exact or_ o h
    | xor_ o => exact xor_ o h | andn o => exact andn o h | sll o => exact sll o h | srl o => exact srl o h
    | sra o => exact sra o h | ror o => exact ror o h | slt o => exact slt o h | sltz o => exact sltz o h
    | seq o => exact seq o h | min_ o => exact min_ o h | max_ o => exact max_ o h | minz o => exact minz o h
    | maxz o => exact maxz o h | adds o => exact adds o h | subs o => exact subs o h | clz o => exact clz o h
    | ctz o => exact ctz o h | popc o => exact popc o h | bswap o => exact bswap o h | sxb o => exact sxb o h
    | sxh o => exact sxh o h | sxw o => exact sxw o h | zxw o => exact zxw o h | mvt o => exact mvt o h
    | mvp o => exact mvp o h | rclr o => exact rclr o h | rful o => exact rful o h | addi o => exact addi o h
    | andi o => exact andi o h | andiz o => exact andiz o h | ori o => exact ori o h | oriz o => exact oriz o h
    | xori o => exact xori o h | xoriz o => exact xoriz o h | slli o => exact slli o h | srli o => exact srli o h
    | srai o => exact srai o h | rori o => exact rori o h | slti o => exact slti o h | sltiz o => exact sltiz o h
    | seqi o => exact seqi o h | shlim o => exact shlim o h | addpc o => exact addpc o h | mul o => exact mul o h
    | mulh o => exact mulh o h | mulhz o => exact mulhz o h | div o => exact div o h | divz o => exact divz o h
    | rem o => exact rem o h | remz o => exact remz o h | csrr o => exact csrr o h | csrx o => exact csrx o h
    | csrs o => exact csrs o h | csrc o => exact csrc o h | vadd o => exact vadd o h | vsub o => exact vsub o h
    | vmul o => exact vmul o h | vmulh o => exact vmulh o h | vand o => exact vand o h | vor o => exact vor o h
    | vxor o => exact vxor o h | vsll o => exact vsll o h | vsrl o => exact vsrl o h | vsra o => exact vsra o h
    | vmin o => exact vmin o h | vmax o => exact vmax o h | vclt o => exact vclt o h | vceq o => exact vceq o h
    | vfadd o => exact vfadd o h | vfsub o => exact vfsub o h | vfmul o => exact vfmul o h | vfma o => exact vfma o h
    | vfmax o => exact vfmax o h | vfmin o => exact vfmin o h | vfclt o => exact vfclt o h | vfceq o => exact vfceq o h
    | vbcast o => exact vbcast o h | vext o => exact vext o h | vins o => exact vins o h | vrot o => exact vrot o h
    | vperm o => exact vperm o h | vredadd o => exact vredadd o h | vredmax o => exact vredmax o h
    | kget o => exact kget o h | kset o => exact kset o h | vcvt o => exact vcvt o h | vexp2 o => exact vexp2 o h
    | vrcp o => exact vrcp o h | vrsq o => exact vrsq o h | vgelu o => exact vgelu o h | beq o => exact beq o h
    | bne o => exact bne o h | blt o => exact blt o h | bge o => exact bge o h | bltz o => exact bltz o h
    | bp o => exact bp o h | bnp o => exact bnp o h | jal o => exact jal o h | jr o => exact jr o h
    | pnez o => exact pnez o h | peq o => exact peq o h | plt o => exact plt o h | pltz o => exact pltz o h
    | pand o => exact pand o h | por o => exact por o h | pxor o => exact pxor o h | pnot o => exact pnot o h
    | pget o => exact pget o h | yield_ o => exact yield_ o h | exit_ o => exact exit_ o h | brk o => exact brk o h
    | ecall o => exact ecall o h | eret o => exact eret o h | ldlB o => exact ldlB o h | ldlH o => exact ldlH o h
    | ldlW o => exact ldlW o h | ldlD o => exact ldlD o h | ldlBz o => exact ldlBz o h | ldlHz o => exact ldlHz o h
    | ldlWz o => exact ldlWz o h | ldlV o => exact ldlV o h | stlB o => exact stlB o h | stlH o => exact stlH o h
    | stlW o => exact stlW o h | stlD o => exact stlD o h | stlV o => exact stlV o h | ldcB o => exact ldcB o h
    | ldcH o => exact ldcH o h | ldcW o => exact ldcW o h | ldcD o => exact ldcD o h | ldcBz o => exact ldcBz o h
    | ldcHz o => exact ldcHz o h | ldcWz o => exact ldcWz o h | ldcV o => exact ldcV o h | stcB o => exact stcB o h
    | stcH o => exact stcH o h | stcW o => exact stcW o h | stcD o => exact stcD o h | stcV o => exact stcV o h
    | ldlFr o => exact ldlFr o h | ldlFe o => exact ldlFe o h | stlEf o => exact stlEf o h | stlXf o => exact stlXf o h
    | felClr o => exact felClr o h | felQ o => exact felQ o h | stlTf o => exact stlTf o h | amsg o => exact amsg o h
    | amsgN o => exact amsgN o h | amret o => exact amret o h | xput o => exact xput o h | xget o => exact xget o h
    | xgath o => exact xgath o h | xscat o => exact xscat o h | tagWany o => exact tagWany o h
    | tagWall o => exact tagWall o h | tagFfr o => exact tagFfr o h | barInit o => exact barInit o h
    | barExp o => exact barExp o h | barArr o => exact barArr o h | barWait o => exact barWait o h
    | barQ o => exact barQ o h | barSync o => exact barSync o h | ldgB o => exact ldgB o h | ldgH o => exact ldgH o h
    | ldgW o => exact ldgW o h | ldgD o => exact ldgD o h | ldgBz o => exact ldgBz o h | ldgHz o => exact ldgHz o h
    | ldgWz o => exact ldgWz o h | ldgV o => exact ldgV o h | stgB o => exact stgB o h | stgH o => exact stgH o h
    | stgW o => exact stgW o h | stgD o => exact stgD o h | stgV o => exact stgV o h | ldgAcq o => exact ldgAcq o h
    | ldgSc o => exact ldgSc o h | stgRel o => exact stgRel o h | stgSc o => exact stgSc o h
    | amoSwap o => exact amoSwap o h | amoCas o => exact amoCas o h | amoAdd o => exact amoAdd o h
    | amoAnd o => exact amoAnd o h | amoOr o => exact amoOr o h | amoXor o => exact amoXor o h
    | amoMin o => exact amoMin o h | amoMax o => exact amoMax o h | amoMinz o => exact amoMinz o h
    | amoMaxz o => exact amoMaxz o h | fenceAcq o => exact fenceAcq o h | fenceRel o => exact fenceRel o h
    | fenceAr o => exact fenceAr o h | fenceSc o => exact fenceSc o h | fenceRcpt o => exact fenceRcpt o h
    | rcptQ o => exact rcptQ o h | fenceTlb o => exact fenceTlb o h | spawn o => exact spawn o h
    | touch o => exact touch o h | touchP o => exact touchP o h | fres o => exact fres o h
    | fresFirst o => exact fresFirst o h | fpois o => exact fpois o h | fcan o => exact fcan o h
    | fcanq o => exact fcanq o h | fq o => exact fq o h | frel o => exact frel o h | fnew o => exact fnew o h
    | ftaskQ o => exact ftaskQ o h | qpush o => exact qpush o h | qpop o => exact qpop o h | qtail o => exact qtail o h
    | chsend o => exact chsend o h | chrecv o => exact chrecv o h | chclose o => exact chclose o h | chq o => exact chq o h
    | mma o => exact mma o h | mmac o => exact mmac o h | mdrain o => exact mdrain o h | tld o => exact tld o h
    | tst o => exact tst o h | tzero o => exact tzero o h | azero o => exact azero o h | ebind o => exact ebind o h
    | efree o => exact efree o h | tlwait o => exact tlwait o h | tlread o => exact tlread o h
    | dpmLoad o => exact dpmLoad o h | dpmFree o => exact dpmFree o h | mrowZero o => exact mrowZero o h
    | mrowCopy o => exact mrowCopy o h | mrowWait o => exact mrowWait o h | mrowTl o => exact mrowTl o h
    | mrowIss o => exact mrowIss o h | aqPost o => exact aqPost o h | aqMerge o => exact aqMerge o h
    | aqNorm o => exact aqNorm o h | aqNormB o => exact aqNormB o h | aqWait o => exact aqWait o h
    | aqTl o => exact aqTl o h | aqIss o => exact aqIss o h | encPost o => exact encPost o h
    | encWait o => exact encWait o h | encTl o => exact encTl o h | fabPut o => exact fabPut o h
    | ownGrant o => exact ownGrant o h | ownRevoke o => exact ownRevoke o h | pinv o => exact pinv o h
    | pzero o => exact pzero o h | fmt o => exact fmt o h | _ => cases h

/-- A word written out by the format of its instruction decodes to it (R43). -/
theorem decode_of_encode {w : W32} {i : Instr} (hi : i.isWord = true) (hw : i.encode = w) : decode w = .ok i :=
  hw ▸ decode_encode hi

/-- The bytes of a word are read as that word (R43: little-endian). -/
theorem decodeBytes_wordBytes {w : W32} {i : Instr} (h : decode w = .ok i) (rest : List Byte) :
    decodeBytes (wordBytes w ++ rest) = .ok (i, rest) := by
  have hw : bits w 24 8 ++ bits w 16 8 ++ bits w 8 8 ++ bits w 0 8 = w := by
    iterate 3 rw [bits_append w (by rfl)]
    exact extract_all w
  unfold bits at hw
  simp only [wordBytes, List.cons_append, List.nil_append, decodeBytes, hw, h]

/-! ### Words that name no instruction (R49) -/

/-- The major opcode in numbers (R43). -/
theorem toNat_bits_major (w : W32) : (bits w 26 6).toNat = w.toNat / 2 ^ 26 := by
  unfold bits
  rw [BitVec.extractLsb'_toNat, Nat.shiftRight_eq_div_pow]
  omega

/-- The major opcodes 0x00, 0x2B-0x3E and 0x3F are reserved or unassigned (R49). -/
theorem decode_ne_ok_of_major {w : W32} (h : w.toNat / 2 ^ 26 = 0 ∨ 0x2B ≤ w.toNat / 2 ^ 26) (i : Instr) : decode w ≠ .ok i := by
  rw [← toNat_bits_major] at h
  unfold decode decodeMost
  split
  case h_4 =>
    split
    case h_1 | h_2 | h_42 => nofun
    all_goals omega
  all_goals omega

end Sys2Proof

namespace Sys2Proof.Proofs

/-- Settles O58: `decode_encode` for an instruction's word and `isWordOf_of_decode` for a word that decodes. -/
theorem roundTrip : Obligations.RoundTrip := by
  unfold Obligations.RoundTrip
  exact ⟨fun _ rest hi => decodeBytes_wordBytes (decode_encode hi) rest, fun _ _ h => isWordOf_of_decode h⟩

/-- Settles O57: each word is the word of its instruction, by the definition of its format, so `decode_encode` reads it; the others by the
decoder's own arms. -/
theorem decodeWords : Obligations.DecodeWords := by
  unfold Obligations.DecodeWords
  refine ⟨?_, ?_, ?_, ?_, ?_, ?_, ?_, ?_, ?_, ?_, ?_, ?_, ?_, ?_, ?_, ?_, ?_, rfl, rfl, rfl, rfl⟩
  all_goals exact decode_of_encode rfl rfl

end Sys2Proof.Proofs
end

section
/-! PROOFS. What an instruction word does at decode (R49-R51): the causes in their order, `addpc` (R59), `fmt` (R53), and the trap
of a word that names no instruction. -/

namespace Sys2Proof.Machine

open Sys2Proof.Safety

/-! ### The causes at decode (R51) -/

/-- A trap stops an instruction at its own address. -/
theorem State.stop_trap (s : State) (t : Thread) (c : Cause) (v : Word) : s.stop t (.trap c v) = takeTrap t c v t.pc s := rfl

@[simp] theorem illegalHere_charged (i j : Instr) (t : Thread) (s : State) :
    illegalHere i (chargedThread j t s) = illegalHere i t := by
  simp [illegalHere, chargedThread]
@[simp] theorem unprivileged_charged (i j : Instr) (t : Thread) (s : State) :
    unprivileged i (chargedThread j t s) = unprivileged i t := by
  simp [unprivileged, chargedThread]
@[simp] theorem chargedThread_handler_isSome (i : Instr) (t : Thread) (s : State) :
    (chargedThread i t s).handler.isSome = t.handler.isSome := by
  simp [chargedThread]
@[simp] theorem chargedThread_pfx (i : Instr) (t : Thread) (s : State) : (chargedThread i t s).csr.pfx = t.csr.pfx := by
  simp [chargedThread]
@[simp] theorem chargedThread_latch (i : Instr) (t : Thread) (s : State) : (chargedThread i t s).csr.latch = t.csr.latch := by
  simp [chargedThread]

/-- An instruction word that meets a trap at decode takes it, at its own address, and does nothing else (R50). -/
theorem exec_decode_trap {i : Instr} {s : State} {t : Thread} {c : Cause} {v : Word} (hi : i.isWord = true)
    (h : s.current = some t) (hx : decodeStop i (chargedThread i t s) = some (.trap c v)) :
    exec i s = .next (takeTrap (chargedThread i t s) c v t.pc (chargedState i t s)) := by
  obtain ⟨body, hbody⟩ := exec_issues i hi
  rw [hbody, issue_decode h hx, State.stop_trap, chargedThread_pc]

section

variable {i : Instr} {s : State} {t : Thread}

/-- First ILLEGAL: fields that are not accepted, or a word that is none where it is issued. -/
theorem decodeStop_illegal (h : i.wf = false ∨ illegalHere i t = true) :
    decodeStop i (chargedThread i t s) = some (.trap .illegal (i.encode.zeroExtend 64)) := by
  unfold decodeStop
  rcases h with h | h <;> simp [h]

variable (hw : i.wf = true) (hh : illegalHere i t = false)
include hw hh

/-- Then what a message handler may not issue (R168). -/
theorem decodeStop_barred (hs : t.handler.isSome = true) (hb : barred i = true) :
    decodeStop i (chargedThread i t s) = some (.trap .access t.pc) := by
  simp [decodeStop, hw, hh, hs, hb]

variable (hb : t.handler.isSome = true → barred i = false)
include hb

/-- Then PRIVILEGE. -/
theorem decodeStop_privilege (hu : unprivileged i t = true) :
    decodeStop i (chargedThread i t s) = some (.trap .privilege (i.encode.zeroExtend 64)) := by
  have hbar : (t.handler.isSome && barred i) = false := by simpa using hb
  simp [decodeStop, hw, hh, hbar, hu]

/-- Then PREFIX_MISUSE. -/
theorem decodeStop_prefixMisuse (hu : unprivileged i t = false) (hp : t.csr.pfx = true)
    (hm : takesPrefix i = false ∨ rejectsFmts i t.csr.latch = true) :
    decodeStop i (chargedThread i t s) = some (.trap .prefixMisuse (i.encode.zeroExtend 64)) := by
  have hbar : (t.handler.isSome && barred i) = false := by simpa using hb
  rcases hm with hm | hm <;> simp [decodeStop, hw, hh, hbar, hu, hp, hm]

end

/-! ### A word that names no instruction (R49, R50) -/

/-- It is charged and traps ILLEGAL with itself as TVAL. -/
theorem execIllegal_eq {s : State} {t : Thread} (w : W32) (h : s.current = some t) :
    execIllegal w s = .next (takeTrap (t.charge s.now (!t.isFw && s.reload t != 0) 12) .illegal (w.zeroExtend 64) t.pc
      (s.chargeFor t 12)) := by
  unfold execIllegal issueChecked
  simp only [h, State.stop_trap, Thread.charge_pc]

/-! ### `addpc` (R59) -/

/-- What a word does depends on its body after the charge alone. -/
theorem issue_congr {i : Instr} {s : State} {t : Thread} {body body' : Thread → State → Done} (h : s.current = some t)
    (hb : body (chargedThread i t s) (chargedState i t s) = body' (chargedThread i t s) (chargedState i t s)) :
    issue i body s = issue i body' s := by
  unfold chargedThread chargedState at hb
  unfold issue issueChecked
  simp only [h, hb]

theorem wf_addpc (o : OpU) : (Instr.addpc o).wf = true ↔ o.d.toNat < 32 := decide_eq_true_iff

@[simp] theorem major_addpc (o : OpU) : (Instr.addpc o).major = 0x05 := by
  show (bits (packU 0x05#6 o) 26 6).toNat = 0x05
  rw [packU_op]; rfl

/-- Registers g0-g31 are neither ports nor core-shared (R45). -/
theorem isPort_gReg {d : Reg} (hd : d.toNat < 32) : isPort d = false := by
  simp [isPort]
  omega
theorem isShared_gReg {d : Reg} (hd : d.toNat < 32) : isShared d = false := by
  rw [← Bool.not_eq_true, isShared_iff]
  rintro (rfl | rfl) <;> exact absurd hd (by decide)

/-- They can be written at any time. -/
theorem readable_gReg (t : Thread) (s : State) (w : BitVec 2) {d : Reg} (hd : d.toNat < 32) : Readable t s w [] [d] := by
  have hp := isPort_gReg hd
  refine ⟨fun r hr hport => ?_, nofun, nofun, fun r hr => ?_⟩
  all_goals obtain rfl : r = d := by simpa using hr
  · rw [hp] at hport; cases hport
  · simp [destBusy, hp]

/-- What such a register holds is in the thread's own registers. -/
theorem holds_gReg {t u : Thread} {s s' : State} {w : BitVec 2} {d : Reg} {x : Word} (hd : d.toNat < 32)
    (h : Holds t s w d x u s') :
    if d = 0#6 then u.c.x = t.c.x ∧ u.c.full = t.c.full else u.c.reg d = x ∧ u.c.isFull d = true := by
  simpa [Holds, isPort_gReg hd, isShared_gReg hd] using h

/-- A word read as a signed number (R7). -/
theorem signedOf_toNat {n : Nat} (x : BitVec n) (hn : 0 < n) : Claims.signedOf n x.toNat = x.toInt := by
  have hiff : x.toNat < 2 ^ (n - 1) ↔ 2 * x.toNat < 2 ^ n := by
    rw [← Nat.two_pow_pred_mul_two hn]
    omega
  rw [BitVec.toInt_eq_toNat_cond]
  simp [Claims.signedOf, hiff]

/-- A dword plus a signed immediate, in numbers modulo 2^64. -/
theorem add_signExtend (x : Word) {n : Nat} (y : BitVec n) (hn : 0 < n) :
    x + y.signExtend 64 = Claims.dw (x.toNat + Claims.signedOf n y.toNat) := by
  rw [signedOf_toNat y hn]
  unfold Claims.dw BitVec.signExtend
  rw [BitVec.ofInt_add, BitVec.ofInt_natCast, BitVec.ofNat_toNat, BitVec.setWidth_eq]

/-- Without a pending prefix, and to an accepted destination, `addpc` completes with PC plus its immediate. -/
theorem execAddpc_clear {o : OpU} {s : State} {t : Thread} (h : Clear (.addpc o) s t) :
    ∃ s' u, exec (.addpc o) s = .next s' ∧ RegisterFrame s t s' u ∧ u.pc = t.pc + 4#64
      ∧ u.c.q0 = t.pc + o.imm.signExtend 64 ∧ u.c.q1 = t.c.q0 ∧ Holds t s 0#2 o.d (t.pc + o.imm.signExtend 64) u s'
      ∧ othersKept t u o.d := by
  have hd := (wf_addpc o).1 h.fields
  have hdest : WellFormed.dest o.d = true := by simp [WellFormed.dest]; omega
  show ∃ s' u, execAddpc o s = _ ∧ _
  unfold execAddpc
  rw [issue_congr (body' := scalarOp 0#2 [] o.d fun _ => t.pc + o.imm.signExtend 64) h.slot (by rw [chargedThread_pc])]
  exact issue_scalarOp h (readable_gReg t s 0#2 hd) hdest

/-- A task that is no handler may always issue `addpc`. -/
theorem addpc_allowed (o : OpU) (t : Thread) :
    illegalHere (.addpc o) t = false ∧ unprivileged (.addpc o) t = false ∧ takesPrefix (.addpc o) = false := by
  simp [illegalHere, unprivileged, takesPrefix, csrUse]

/-! ### `fmt` (R53) -/

/-- A `fmt` word is a legal, unprivileged one that takes no prefix. -/
theorem fmt_allowed (o : OpF) (t : Thread) :
    illegalHere (.fmt o) t = false ∧ unprivileged (.fmt o) t = false ∧ takesPrefix (.fmt o) = false := by
  simp [illegalHere, unprivileged, takesPrefix, csrUse]

/-- The latched fields are word bits 25:11. -/
theorem encode_fmt_latch (o : OpF) : (Instr.fmt o).encode.extractLsb' 11 15 = o.fa ++ o.fb ++ o.fr ++ o.rc ++ o.sat := by
  let w : W32 := packF 0x2A#6 o
  have hbits : bits w 22 4 ++ bits w 18 4 ++ bits w 14 4 ++ bits w 12 2 ++ bits w 11 1 = bits w 11 15 := by
    iterate 4 rw [bits_append w (by rfl)]
  rw [packF_fa, packF_fb, packF_fr, packF_rc, packF_sat] at hbits
  exact hbits.symm

/-- The thread goes on behind a `fmt` whose fields are latched. -/
def Thread.latchFmt (t : Thread) (o : OpF) : Thread :=
  { t.advance with csr := { t.csr with latch := o.fa ++ o.fb ++ o.fr ++ o.rc ++ o.sat, pfx := true } }

/-- A `fmt` that meets no cause at decode latches its fields, and its thread goes on. -/
theorem execFmt_clear {o : OpF} {s : State} {t : Thread} (h : Clear (.fmt o) s t) :
    exec (.fmt o) s = .next ((chargedState (.fmt o) t s).setThread ((chargedThread (.fmt o) t s).latchFmt o)) := by
  have hrun : ((chargedThread (.fmt o) t s).latchFmt o).run = .runnable :=
    (chargedThread_run (.fmt o) t s).trans (s.current_eq t h.slot).2.1
  show execFmt o s = _
  unfold execFmt
  rw [late_fmt, ← State.settle_runnable _ _ hrun]
  exact issue_next h rfl

/-! ### The charge of an issue and the other threads (R316) -/

@[simp] theorem State.thread?_jobWrite (s : State) (ctx va n v tid : Nat) : (s.jobWrite ctx va n v).thread? tid = s.thread? tid := by
  unfold State.thread?
  rw [State.jobWrite_threads]

/-- A charge of work takes no thread away, and changes of its CSRs only what a charge changes. -/
theorem State.thread?_bill {s : State} {n : Nat} {v : Thread} (tid ctx pj : Nat) (h : s.thread? n = some v) :
    ∃ v', (s.bill tid ctx pj).thread? n = some v' ∧ csrsBut v'.csr = csrsBut v.csr := by
  unfold State.bill
  split
  next w hw =>
    have hset : ∃ v', (s.setThread (w.pay pj)).thread? n = some v' ∧ csrsBut v'.csr = csrsBut v.csr := by
      by_cases hn : w.tid = n
      · obtain rfl : w = v := by
          rw [← s.tid_of_thread? w tid hw, hn, h] at hw
          exact (Option.some.inj hw).symm
        exact ⟨_, s.thread?_setThread w (w.pay pj) n h hn, rfl⟩
      · exact ⟨v, (s.thread?_setThread_ne (w.pay pj) n hn).trans h, rfl⟩
    dsimp only
    split
    · rw [State.thread?_jobWrite]; exact hset
    · exact hset
  next => exact ⟨v, h, rfl⟩

theorem State.thread?_chargeFor {s : State} {n : Nat} {v : Thread} (t : Thread) (pj : Nat) (h : s.thread? n = some v) :
    ∃ v', (s.chargeFor t pj).thread? n = some v' ∧ csrsBut v'.csr = csrsBut v.csr := by
  unfold State.chargeFor
  split
  · exact State.thread?_bill _ _ _ h
  · exact ⟨v, h, rfl⟩

end Sys2Proof.Machine

namespace Sys2Proof.Proofs

open Sys2Proof.Machine Sys2Proof.Safety

/-- Settles O12, by `decode_ne_ok_of_major` and `execIllegal_eq`. -/
theorem unassignedOpcodes : Obligations.UnassignedOpcodes := by
  unfold Obligations.UnassignedOpcodes
  exact ⟨fun _ hm => decode_ne_ok_of_major hm, fun w _ _ _ h => execIllegal_eq w h, by decide, by decide⟩

/-- Settles O13: the four causes by `decodeStop_illegal`, `decodeStop_barred`, `decodeStop_privilege` and `decodeStop_prefixMisuse`, each
taken by `exec_decode_trap`. -/
theorem decodeOrder : Obligations.DecodeOrder := by
  unfold Obligations.DecodeOrder
  intro i s t hi h
  refine ⟨fun hx => ?_, fun hw hh hs hb => ?_, fun hw hh hb hu => ?_, fun hw hh hb hu hp hm => ?_⟩
  · exact exec_decode_trap hi h (decodeStop_illegal hx)
  · exact exec_decode_trap hi h (decodeStop_barred hw hh hs hb)
  · exact exec_decode_trap hi h (decodeStop_privilege hw hh hb hu)
  · exact exec_decode_trap hi h (decodeStop_prefixMisuse hw hh hb hu hp hm)

/-- Settles O7: `execAddpc_clear` for its result, and the causes at decode for the rest. -/
theorem addpcGives : Obligations.AddpcGives := by
  unfold Obligations.AddpcGives
  refine ⟨fun o s t h => ?_, wf_addpc, fun o s t h hd => ?_, fun o s t h hd hn hp => ?_⟩
  · obtain ⟨s', u, he, hframe, hpc, hq0, hq1, hholds, hothers⟩ := execAddpc_clear h
    rw [add_signExtend t.pc o.imm (by decide)] at hq0 hholds
    exact ⟨s', u, he, hframe, hpc, holds_gReg ((wf_addpc o).1 h.fields) hholds, hq0, hq1, hothers⟩
  · have hw : (Instr.addpc o).wf = false := by
      rw [← Bool.not_eq_true, wf_addpc]; omega
    exact exec_decode_trap rfl h (decodeStop_illegal (.inl hw))
  · obtain ⟨hh, hu, hm⟩ := addpc_allowed o t
    exact exec_decode_trap rfl h (decodeStop_prefixMisuse ((wf_addpc o).2 hd) hh (by simp [hn]) hu hp (.inl hm))

/-- Settles O8: `execFmt_clear` for the latch, and the fourth cause at decode for a second `fmt`. -/
theorem fmtLatches : Obligations.FmtLatches := by
  unfold Obligations.FmtLatches
  refine ⟨fun o s t h => ?_, fun o s t h hw hn hp => ⟨?_, chargedThread_latch ..⟩⟩
  · obtain ⟨v, hv, -⟩ := State.thread?_chargeFor t (issueCost (.fmt o)) (s.current_tid t h.slot)
    have htid : ((chargedThread (.fmt o) t s).latchFmt o).tid = t.tid := chargedThread_tid (.fmt o) t s
    refine ⟨_, _, execFmt_clear h, State.thread?_setThread _ _ _ _ hv htid, ?_, chargedThread_c (.fmt o) t s, rfl,
      (encode_fmt_latch o).symm, ?_, fun n v hn hs => ?_, fun hn => ?_⟩
    · exact congrArg (· + 4#64) (chargedThread_pc (.fmt o) t s)
    · rw [← chargedThread_pfx (.fmt o) t s, ← chargedThread_latch (.fmt o) t s]
      exact chargedThread_csrsBut (.fmt o) t s
    · obtain ⟨v', hv', hcsr⟩ := State.thread?_chargeFor t (issueCost (.fmt o)) hs
      exact ⟨v', (State.thread?_setThread_ne _ _ _ (by rw [htid]; exact hn.symm)).trans hv', (congrArg Csrs.latch hcsr :),
        (congrArg Csrs.pfx hcsr :)⟩
    · rw [show chargedState (.fmt o) t s = s from s.chargeFor_task t _ hn]
      exact ⟨rfl, rfl, rfl⟩
  · obtain ⟨hh, hu, hm⟩ := fmt_allowed o t
    exact exec_decode_trap rfl h (decodeStop_prefixMisuse hw hh (by simp [hn]) hu hp (.inl hm))

end Sys2Proof.Proofs
end

section
/-! PROOFS. Words and fetches that fail, translation faults and their completion, and traps on firmware cores (R49, R50, R116,
R202-R204, R441, R456). -/

namespace Sys2Proof.Machine

open Sys2Proof.Safety Sys2Proof.Claims

/-- A fetch that fails at the thread's pc traps there, and nothing is charged (R116). -/
theorem execFetchFault_eq {s : State} {t : Thread} (ue : Bool) (h : s.current = some t) :
    exec (.fetchFault ue t.pc) s = .next (takeTrap t (if ue then .ue else .access) t.pc t.pc s) := by
  show execFetchFault ue t.pc s = _
  unfold execFetchFault
  simp only [h, if_true]

/-! ### Traps that enter a handler (R130, R441) -/

/-- Clearing the low two bits of an address leaves one that is a multiple of 4. -/
theorem and_not_three {x : Word} (h : x.toNat % 4 = 0) : x &&& ~~~3#64 = x := by
  have hlow : x.setWidth 2 = 0#2 := BitVec.eq_of_toNat_eq (by simpa using h)
  have hthree : ∀ i < 64, 2 ≤ i → (3#64).getLsbD i = false := by decide
  apply BitVec.eq_of_getLsbD_eq
  intro i hi
  rw [BitVec.getLsbD_and, BitVec.getLsbD_not]
  by_cases h2 : i < 2
  · have hbit : x.getLsbD i = false := by simpa [h2] using congrArg (·.getLsbD i) hlow
    rw [hbit, Bool.false_and]
  · simp only [hi, hthree i hi (Nat.le_of_not_lt h2), decide_true, Bool.not_false, Bool.and_true]

/-- A thread that is on no firmware core has no place on one. -/
theorem loc_ne_fw {t : Thread} (h : t.isFw = false) (d n p : Nat) : t.loc ≠ .fw d n p := by
  intro hl
  simp [Thread.isFw, hl] at h

/-- What a trap at its own address leaves of a task in a slot, its issue charged or not: it stands at its handler's first instruction, and
TEPC is its own. -/
theorem takeTrap_traps {s : State} {t u : Thread} (c : Cause) (v : Word) (h : Traps s t) (hloc : u.loc = t.loc)
    (htid : u.tid = t.tid) (hhandler : u.handler = none) (hcsr : csrsBut u.csr = csrsBut t.csr) :
    (takeTrap u c v t.pc s).thread? t.tid = some (u.enterTrap c v t.pc t.csr.tbase)
      ∧ (u.enterTrap c v t.pc t.csr.tbase).csr.tepc = t.pc := by
  have hbase : u.csr.tbase = t.csr.tbase := (congrArg Csrs.tbase hcsr :)
  have htrap : u.csr.trap = t.csr.trap := (congrArg Csrs.trap hcsr :)
  obtain ⟨hfw, -⟩ := h.plain
  have hl (d n p : Nat) : u.loc ≠ .fw d n p := hloc ▸ loc_ne_fw hfw d n p
  rw [takeTrap_task c v hl hhandler (hbase ▸ h.base) (by rw [hbase, htrap]; exact h.first), hbase]
  exact ⟨State.thread?_setThread _ _ _ _ (s.current_tid t h.slot) htid, and_not_three h.aligned⟩

/-- A trap on a firmware core is the firmware's. -/
theorem takeTrap_fw {t : Thread} {die n phase : Nat} (hl : t.loc = .fw die n phase) (c : Cause) (v epc : Word) (s : State) :
    takeTrap t c v epc s = s.fwTrap t die n c v epc := by
  unfold takeTrap
  rw [hl]

/-- The level at which firmware handles a trap, and the address of its handler there (R441). -/
def Thread.trapLevel (t : Thread) (cause : Cause) : BitVec 2 :=
  if t.lev = 2#2 then 1#2 else if t.lev = 1#2 ∧ cause = .ecall then 0#2 else t.lev
def FwCore.trapBase (f : FwCore) (lev : BitVec 2) : Word := if lev = 1#2 then f.ftbase1 else f.ftbase0

/-- Firmware with a handler at that level enters it there. -/
theorem fwTrap_enters {s : State} {t : Thread} {die n : Nat} {c : Cause} (v epc : Word) (ht : s.thread? t.tid = some t)
    (hb : (s.fwcore die n).trapBase (t.trapLevel c) ≠ 0#64) :
    (s.fwTrap t die n c v epc).thread? t.tid = some { t.enterTrap c v epc ((s.fwcore die n).trapBase (t.trapLevel c)) with
      plev := t.lev, lev := t.trapLevel c } := by
  have he : s.fwTrap t die n c v epc = s.setThread { t.enterTrap c v epc ((s.fwcore die n).trapBase (t.trapLevel c)) with
      plev := t.lev, lev := t.trapLevel c } := if_neg hb
  rw [he]
  exact State.thread?_setThread _ t _ _ ht rfl

/-- An event to the host changes no firmware core (R425). -/
theorem fwcore_postEvent (s : State) (func cls ctx record d n : Nat) :
    (s.postEvent func cls ctx record).fwcore d n = s.fwcore d n := rfl

/-- Firmware without a handler at that level halts its core. -/
theorem fwTrap_halts {s : State} {t : Thread} {die n : Nat} {c : Cause} (v epc : Word)
    (hb : (s.fwcore die n).trapBase (t.trapLevel c) = 0#64) : ((s.fwTrap t die n c v epc).fwcore die n).halted = true := by
  have he : s.fwTrap t die n c v epc = (s.setFw { s.fwcore die n with halted := true }).postEvent 0 0x0B 0xFFFF
      (die + 2 ^ 8 * n + 2 ^ 16 * t.lastPhase + 2 ^ 24 * c.code.toNat + 2 ^ 64 * epc.toNat + 2 ^ 128 * s.now) := if_pos hb
  rw [he, fwcore_postEvent, State.fwcore_setFw, if_pos (s.fwcore_key die n)]

/-! ### The completion of a fault record (R204, R456) -/

/-- What the outcome of a page's fault record does for one of its waiters. -/
def State.meetOutcome (s : State) (page : Nat) (outcome : FaultOutcome) (who : FaultWaiter) : State :=
  match outcome with
  | .retry => s.retryWaiter page who
  | .deny => s.denyWaiter page .access who
  | .poison => s.denyWaiter page .ue who

/-- The trap that a thread waiting for address `va` takes after an outcome, if not the one it was due. -/
def dueAfter (outcome : FaultOutcome) (va : Word) (before : Option Trap) : Option Trap :=
  match outcome with
  | .retry => before
  | .deny => some ⟨.access, va⟩
  | .poison => some ⟨.ue, va⟩

/-- The completion of the only fault record zeroes its slot, leaves none, and meets its waiters in turn. -/
theorem execFaultComplete_only {s : State} {f : FaultRec} {j : Job} (outcome : FaultOutcome) (hf : s.faults = [f])
    (hw : f.written = true) (hj : s.job? f.ctx = some j) :
    execFaultComplete f.ctx f.page outcome s =
      .next (f.waiters.foldl (fun s who => s.meetOutcome f.page outcome who)
        (({ s with faults := [] } : State).jobWrite f.ctx (j.faultSlot f.k) 32 0)) := by
  have hexec : execFaultComplete f.ctx f.page outcome s = .next (s.completeFault f outcome) := by
    simp [execFaultComplete, hf, hw, hj]
  rw [hexec]
  unfold State.completeFault
  simp only [hf, hj, List.filter_cons, beq_self_eq_true, Bool.and_self, Bool.not_true, Bool.false_eq_true, if_false,
    List.filter_nil, List.length_nil, State.pumpAllFaults]
  cases outcome <;> rfl

section

variable {s : State} {t : Thread} {w : Wake}

/-- A thread parked on a page is woken by any outcome, and DENY and POISON leave it the trap of the address it waits for. -/
theorem meetOutcome_parked (outcome : FaultOutcome) (ht : s.thread? t.tid = some t) (hr : t.run = .parked w false)
    (hk : w.kind = .page) :
    s.meetOutcome (w.operand.toNat / 65536) outcome (.thread t.tid)
      = s.wakeThread { t with due := dueAfter outcome w.operand t.due } := by
  have hwake : t.run.wake? = some w := by rw [hr]; rfl
  have hpending : t.run.pending = none := by rw [hr]; rfl
  cases outcome <;> simp [State.meetOutcome, dueAfter, State.retryWaiter, State.denyWaiter, ht, hk, hwake, hpending]

/-- A parked thread whose condition fires is ready with it, and keeps its registers. -/
theorem wakeThread_parked {v : Thread} (ht : s.thread? t.tid = some t) (hv : v.tid = t.tid) (hr : v.run = .parked w false) :
    ∃ u, (s.wakeThread v).thread? t.tid = some u ∧ u.run = .parked w true ∧ u.pc = v.pc ∧ u.c = v.c ∧ u.due = v.due :=
  ⟨_, State.thread?_setThread s t { v.becomeReady s.now with run := v.run.fire } t.tid ht hv, by rw [hr]; rfl, rfl, rfl, rfl⟩

end

/-! ### A walk that finds no leaf (R202, R203) -/

/-- A thread that holds its phase is in no frame. -/
theorem loc_ne_frame {t : Thread} (h : t.phase?.isSome = true) (va : Word) (c p : Nat) (x : Option Nat) :
    t.loc ≠ .frame va c p x := by
  intro hl
  simp [Thread.phase?, hl] at h

/-- Such a thread has no frame to write to. -/
theorem frameVa_none {t : Thread} (h : t.phase?.isSome = true) : t.frameVa = none := by
  unfold Thread.frameVa
  split
  next hl => exact (loc_ne_frame h _ _ _ _ hl).elim
  next => rfl

/-- Nothing holds back the reply of a thread that holds its phase (R149, R306, R454). -/
theorem replyHeld_awaits {p : Pending} {t : Thread} {s : State} (h : Awaits p t s) : s.replyHeld t p = false := by
  obtain ⟨-, ⟨w, hr, -⟩, hplace, hcalm, htarget, hrequest⟩ := h
  have hevicted : t.evicted = false := by
    unfold Thread.evicted
    split
    next hl => exact (loc_ne_frame hplace _ _ _ _ hl).elim
    next => rfl
  have hheld : s.heldBack t = false := by simp [State.heldBack, hcalm]
  have hleave : s.mustLeave t = false := by simp [State.mustLeave, State.mustMigrate, State.migrates, htarget, hrequest]
  unfold State.replyHeld
  rw [hheld, hleave, hr, Bool.false_or, Bool.false_or]
  split
  next => exact hevicted
  next hout => exact (hout _ _ rfl).elim
  next => rfl

/-- Where the awaited operation has put its thread at another blocking point, that state is the reply's. -/
theorem execMemoryReply_left {p : Pending} {t : Thread} {s s' : State} (h : Awaits p t s) (ha : s.answerFor t p = .left s') :
    exec (.memoryReply t.tid) s = .next s' := by
  obtain ⟨w, hr, -⟩ := h.run
  have hp : t.run.pending = some p := by rw [hr]; rfl
  show execMemoryReply t.tid s = _
  unfold execMemoryReply
  simp only [h.there, hp, replyHeld_awaits h, ha, Bool.false_eq_true, if_false]

/-- What such a thread awaited is given up, and it parks. -/
theorem repark_out {t : Thread} {w0 w : Wake} {p : Pending} (s : State) (hr : t.run = .out w0 p) (h : t.phase?.isSome = true) :
    s.repark t w = s.setThread { t with run := .parked w false, taken := [] } := by
  have hva : ({ t with run := .parked w false, taken := [] } : Thread).frameVa = none := frameVa_none (t := t) h
  simp [State.repark, State.frameWrite, hr, hva]

/-- A walk that stops without a leaf parks its thread on the page's fault record. -/
theorem walkAnswer_fault {s : State} {t : Thread} {need : Need} {va : Word} {size n : Nat} {p : Pending} {x : WalkStop} {j : Job}
    (hj : s.job? t.ctx = some j) (hwalker : s.hasWalker t va.toNat n = true)
    (hmiss : s.cachedAt [.l2 t.cluster] t.ctx va.toNat = none)
    (hawake : s.translationWaits [.l2 t.cluster] t.ctx va.toNat = false)
    (hwalk : s.walkFrom t.cluster t.ctx va.toNat 4 0 j.root = .error x) :
    s.walkAnswer t need va size n p = .left ((s.repark t (wake .page need.code va)).raiseFault t.ctx va.toNat need x
      (.thread t.tid) (coordOf s.chip t.coreId)) := by
  have hleaf : s.leaf [.l2 t.cluster] t.cluster t.ctx va.toNat = .error x := by
    unfold State.leaf
    simp only [hmiss, hj, hwalk]
  unfold State.walkAnswer
  simp [hawake, hmiss, hwalker, hleaf]

/-- A job under its own number after it was changed. -/
theorem job?_modJob {s : State} {ctx : Nat} {j : Job} (g : Job → Job) (hg : ∀ j, (g j).ctx = j.ctx) (hj : s.job? ctx = some j) :
    (s.modJob ctx g).job? ctx = some (g j) := by
  have hkey : ((fun k => k.ctx == ctx) ∘ fun k : Job => if k.ctx = ctx then g k else k) = fun k => k.ctx == ctx := by
    funext k
    by_cases hk : k.ctx = ctx <;> simp [hk, hg]
  have hctx : j.ctx = ctx := by simpa using List.find?_some hj
  unfold State.job? at hj ⊢
  rw [State.modJob, List.find?_map, hkey, hj, Option.map_some, if_pos hctx]

/-- The only fault record of a package, if not written yet, is written at once (R456). -/
theorem pumpFaults_only {s : State} {f : FaultRec} {j : Job} (hf : s.faults = [f]) (hw : f.written = false)
    (hj : s.job? f.ctx = some j) :
    s.pumpFaults f.ctx = ({ s with faults := [{ f with written := true, cycle := s.now }] } : State).jobWrite f.ctx (j.faultSlot f.k) 32
      ({ f with written := true, cycle := s.now } : FaultRec).image := by
  simp [State.pumpFaults, hf, hw, hj]

/-- The first translation fault of a package raises a record of its own for its page (R203). -/
theorem raiseFault_first {s : State} {ctx : Nat} {j : Job} (va : Nat) (need : Need) (x : WalkStop) (who : FaultWaiter) (coord : Word)
    (hf : s.faults = []) (hj : s.job? ctx = some j) :
    ∃ f, (s.raiseFault ctx va need x who coord).faults = [f] ∧ f.ctx = ctx ∧ f.page = va / 65536 ∧ f.kind = need.code
      ∧ f.reason = x.reason ∧ f.level = x.level ∧ f.waiters = [who]
      ∧ (s.raiseFault ctx va need x who coord).threads = s.threads := by
  let f : FaultRec := ⟨ctx, va / 65536, need.code, x.reason, x.level, [who], coord, s.now, j.faultK, false⟩
  let s1 : State := ({ s with faults := [f] } : State).modJob ctx fun j => { j with faultK := j.faultK + 1 }
  have hraise : s.raiseFault ctx va need x who coord = s1.pumpFaults ctx := by
    unfold State.raiseFault
    simp only [hf, hj]
    rfl
  have hj1 : s1.job? f.ctx = some { j with faultK := j.faultK + 1 } := job?_modJob _ (fun _ => rfl) hj
  rw [hraise, pumpFaults_only (f := f) rfl rfl hj1, State.jobWrite_faults, State.jobWrite_threads]
  exact ⟨_, rfl, rfl, rfl, rfl, rfl, rfl, rfl, rfl⟩

end Sys2Proof.Machine

namespace Sys2Proof.Proofs

open Sys2Proof.Machine Sys2Proof.Safety Sys2Proof.Claims

/-- Settles O44: words and fetches that fail by `takeTrap_traps`, the completion of a record by `execFaultComplete_only` and
`meetOutcome_parked`, a walk without a leaf by `walkAnswer_fault` and `raiseFault_first`, and firmware traps by `fwTrap_enters` and
`fwTrap_halts`. -/
theorem faultEvents : Obligations.FaultEvents := by
  unfold Obligations.FaultEvents
  refine ⟨fun w s t h => ?_, fun ue s t h => ?_, fun f j outcome t w s hf hwr hj hwait ht hr hk hp _ => ?_,
    fun need va size n p x j t s h hj hf hwalker hmiss hawake hwalk => ?_,
    fun s t die n phase cause v epc ht hl _ => ⟨fun hb => ?_, fun hb => ?_⟩⟩
  · obtain ⟨-, hn⟩ := h.plain
    have hu : (t.charge s.now (!t.isFw && s.reload t != 0) 12).handler = none :=
      Option.isNone_iff_eq_none.1 ((Thread.charge_handler_none ..).trans (Option.isNone_iff_eq_none.2 hn))
    obtain ⟨hthread, hepc⟩ := takeTrap_traps .illegal (w.zeroExtend 64) h (Thread.charge_loc ..) (Thread.charge_tid ..) hu
      (Thread.charge_csrsBut ..)
    refine ⟨_, _, execIllegal_eq w h.slot, ?_, rfl, rfl, rfl, hepc, rfl, (Thread.enterTrap_c ..).trans (Thread.charge_c ..)⟩
    rw [s.chargeFor_task t 12 hn]
    exact hthread
  · obtain ⟨-, hn⟩ := h.plain
    obtain ⟨hthread, hepc⟩ := takeTrap_traps (if ue then .ue else .access) t.pc h rfl rfl hn rfl
    refine ⟨_, _, execFetchFault_eq ue h.slot, hthread, rfl, ?_, rfl, hepc, rfl, rfl, rfl, rfl⟩
    cases ue <;> rfl
  · let s1 := ({ s with faults := [] } : State).jobWrite f.ctx (j.faultSlot f.k) 32 0
    have ht1 : s1.thread? t.tid = some t := (State.thread?_jobWrite ..).trans ht
    obtain ⟨u, hu, hrun, hpc, hc, hdue⟩ :=
      wakeThread_parked (v := { t with due := dueAfter outcome w.operand t.due }) ht1 rfl hr
    refine ⟨_, u, execFaultComplete_only outcome hf hwr hj, ?_⟩
    rw [hwait, List.foldl_cons, List.foldl_nil, ← hp, meetOutcome_parked outcome ht1 hr hk]
    refine ⟨State.jobWrite_faults .., hu, hrun, hpc, hc, hdue.trans ?_⟩
    cases outcome <;> rfl
  · obtain ⟨w0, hr, -⟩ := h.run
    let v : Thread := { t with run := .parked (wake .page need.code va) false, taken := [] }
    obtain ⟨f, hfaults, hctx, hpage, hkind, hreason, hlevel, hwho, hthreads⟩ :=
      raiseFault_first (s := s.setThread v) va.toNat need x (.thread t.tid) (coordOf s.chip t.coreId) hf hj
    refine ⟨_, v, wake .page need.code va, f,
      execMemoryReply_left h (walkAnswer_fault hj hwalker hmiss hawake hwalk), ?_⟩
    rw [repark_out s hr h.place]
    refine ⟨?_, rfl, rfl, rfl, rfl, rfl, rfl, hfaults, hctx, hpage, hkind, hreason, hlevel, hwho⟩
    unfold State.thread?
    rw [hthreads]
    exact State.thread?_setThread s t v t.tid h.there rfl
  · rw [takeTrap_fw hl]
    exact ⟨_, fwTrap_enters v epc ht hb, rfl, rfl, rfl, rfl, rfl, and_not_three⟩
  · rw [takeTrap_fw hl]
    exact fwTrap_halts v epc hb

end Sys2Proof.Proofs
end

section
/-! PROOFS. Cached copies: what L1_COPY_EXPIRE drops (R208). Its operand is any number that a copy bears as its address, and the copies
that go are those of the 128-byte line in which that number lies. The two differ in a state whose L1 holds a copy under an address that is
no multiple of 128, and `State` does not rule such a copy out. -/

namespace Sys2Proof.Machine

/-- A copy that is there can expire, and with it goes what `dropCopy` drops. -/
theorem execL1CopyExpire_of_mem {s : State} {core : Nat} {l : L1Line} (h : l ∈ (s.core core).l1) :
    exec (.l1CopyExpire core l.pa) s = .next (s.dropCopy core l.pa) :=
  if_pos (List.any_eq_true.2 ⟨l, h, beq_self_eq_true l.pa⟩)

/-- A core gives up its copies of the line in which an address lies (R208). -/
theorem State.l1_dropCopy (s : State) (core pa : Nat) :
    ((s.dropCopy core pa).core core).l1 = (s.core core).l1.filter fun l => l.pa != pa / 128 * 128 := by
  unfold State.dropCopy
  rw [State.core_modCore, if_pos rfl]
  exact fun _ => rfl

end Sys2Proof.Machine

namespace Sys2Proof.Proofs

open Sys2Proof.Machine

/-- Refutes O43: core 0 holds one copy, under address 1, which is not the first byte of a line. L1_COPY_EXPIRE of 1 is enabled by that copy
(`execL1CopyExpire_of_mem`) and drops the copies of line 0 (`State.l1_dropCopy`), so the copy under address 1 stays, where the statement
says that it goes. -/
theorem not_cacheEvents : ¬ Obligations.CacheEvents := by
  unfold Obligations.CacheEvents
  intro ⟨hcopy, _⟩
  let l : L1Line := ⟨1, 0, 0, 0⟩
  let s : State := State.reset.setCore { Core.blank 0 with l1 := [l] }
  have hl : (s.core 0).l1 = [l] := rfl
  have hmem : l ∈ (s.core 0).l1 := hl ▸ List.mem_singleton_self l
  obtain ⟨s', hexec, hgone, -⟩ := hcopy 0 1 l s hmem rfl
  have hs' : s.dropCopy 0 1 = s' := Host.Outcome.next.inj ((execL1CopyExpire_of_mem hmem).symm.trans hexec)
  have hstays : (s'.core 0).l1 = [l] := by rw [← hs', State.l1_dropCopy, hl]; rfl
  have hnone : (s'.core 0).l1 = [] := by rw [hgone, hl]; rfl
  exact List.cons_ne_nil l [] (hstays.symm.trans hnone)

end Sys2Proof.Proofs
end
